-- ==== Sys2Proof/Word.lean ====
section
/-!
DEFINITION. Words and bytes, byte lists keyed by address, and the small types that commands and state share.
-/
namespace Sys2Proof

/-- A 16-bit word (R2). -/
abbrev Word := BitVec 16
/-- A byte. -/
abbrev Byte := BitVec 8
/-- The number of a general register K0 to K15 (R202). -/
abbrev Reg := BitVec 4
/-- Bytes by address in canonical form: addresses strictly rising, no entry equal to what an unlisted address reads as. -/
abbrev Bytes := List (Nat × BitVec 8)

/-- Core A or core B (R200). -/
inductive CoreId where
  | a | b
  deriving DecidableEq, Repr, Inhabited

/-- Who makes a register access: a core, or the Hinge (R298, R535). -/
inductive Who where
  | coreA | coreB | hinge
  deriving DecidableEq, Repr, Inhabited

/-- Partner ports with a polling contract (R384). -/
inductive PortId where
  | s | q | u
  deriving DecidableEq, Repr, Inhabited

/-- Supply sources the selector qualifies (R33). -/
inductive Source where
  | hv | veh | harv
  deriving DecidableEq, Repr, Inhabited

/-- Flyback faults (R40). -/
inductive FlybackCause where
  | overVoltage | openAux | overload | overTemp
  deriving DecidableEq, Repr, Inhabited

/-- Requesters of leave (R74, R75): the wake router, the engines, and the cores. -/
inductive Requester where
  | wakeRouter | vault | pane | touch | ash0 | ashA | ashB | portC | coreA | coreB | gaspPage | gaspWake
  deriving DecidableEq, Repr, Inhabited

/-- Answers of the Porter, a denial with its reason code (R77, R79). -/
inductive Answer where
  | grant | defer | deny (reason : BitVec 3)
  deriving DecidableEq, Repr, Inhabited

/-- Blocks that work inside course windows (R151). -/
inductive WinBlock where
  | vault | touch | pane
  deriving DecidableEq, Repr, Inhabited

/-- Pin banks and groups (R413). -/
inductive PinBank where
  | a | b | c
  deriving DecidableEq, Repr, Inhabited

/-- How a crossing of the Tie's main lane fails (R296, R297). -/
inductive TieFail where
  | parity | timeout
  deriving DecidableEq, Repr, Inhabited

/-- Spaces a Hinge READ or WRITE names (R534). -/
inductive HingeSpace where
  | instr | data | io | hinge
  deriving DecidableEq, Repr, Inhabited

/-- Branch conditions (R245). -/
inductive Cond where
  | eq | ne | hs | lo | mi | pl | vs | vc | hi | ls | ge | lt | gt | le | al
  deriving DecidableEq, Repr, Inhabited

/-- Conversions of FCVT (R247). -/
inductive FcvtKind where
  | ofInt | ofUint | toInt | toUint | integral
  deriving DecidableEq, Repr, Inhabited

/-- A CAN frame as port C handles it (R361, R404, R406). -/
structure CanFrame where
  id : BitVec 29
  ide : Bool
  rtr : Bool
  fdf : Bool
  brs : Bool
  esi : Bool
  dlc : BitVec 4
  data : List Byte
  /-- Tick and microseconds at the end of the frame. -/
  tick : BitVec 48
  us : BitVec 10
  deriving DecidableEq, Repr, Inhabited

end Sys2Proof
end

