-- ==== Sys2Proof/Syntax.lean ====
section
/-!
DEFINITION. The commands of the block: one constructor for each row of the table of commands, with its operands.
-/
namespace Sys2Proof

/-- Everything that can happen to the part, one constructor per row. -/
inductive Instr where
  /-- SOURCE_QUALIFY (R33). A supply source (HV, VEH or HARV) meets its qualify condition for its full time, and the selector re-evaluates which source it uses. -/
  | sourceQualify (src : Source)
  /-- SOURCE_LOSS (R33). A qualified source meets its loss condition; the part sets its LOST bit and may switch to another source. -/
  | sourceLoss (src : Source)
  /-- SELECTOR_HOLD_END (R35). The 4 ms hold after a switch-over expires, and the selector picks the highest-priority source qualified at that moment. -/
  | selectorHoldEnd
  /-- FLYBACK_START (R37). The line rises above 75 V AC rms and the flyback begins its start-up phase. -/
  | flybackStart
  /-- FLYBACK_STOP (R37). The line stays below 68 V AC rms for 60 ms and the flyback stops. -/
  | flybackStop
  /-- FLYBACK_SWITCHING_START (R39). VDDP reaches 12.0 V and the flyback begins switching. -/
  | flybackSwitchingStart
  /-- FLYBACK_VDDP_LOW (R39). VDDP falls below 7.0 V and the flyback stops. -/
  | flybackVddpLow
  /-- FLYBACK_FAULT (R40). An over-voltage, open-AUX, overload or over-temperature condition stops the flyback and starts its 1 s hold-off. -/
  | flybackFault (cause : FlybackCause)
  /-- FLYBACK_RESTART (R40). The 1 s hold-off expires, or the primary region cools below 130 °C, and the flyback restarts from its start-up phase. -/
  | flybackRestart (cooled : Bool)
  /-- X_CAP_DISCHARGE (R41). On removal of the line, the start-up cell discharges the X capacitance across HVL/HVN. -/
  | xCapDischarge
  /-- VEH_OVERVOLTAGE (R46). VEH crosses 37.0 V, so the entry buck stops and sets VEH_OV, or VEH falls below 35.5 V and the buck resumes. -/
  | vehOvervoltage (above : Bool)
  /-- HVSEC_OVERVOLTAGE (R66). HVSEC crosses 11.0 V, so the entry buck stops drawing and sets HV_OV, or HVSEC falls below 10.5 V and the buck resumes. -/
  | hvsecOvervoltage (above : Bool)
  /-- HARV_TRACKING_SAMPLE (R50). A tracking period ends; the harvest boost samples the open-circuit voltage of HARV, stores it and sets its regulation point or pass-through. -/
  | harvTrackingSample (voc : BitVec 16) (store : BitVec 16)
  /-- PRECHARGE_END (R49). STORE rises through 1.00 V and the 50 mA pre-charge limit ends. -/
  | prechargeEnd
  /-- COLD_STARTER_HANDOVER (R53). STORE reaches 1.60 V and the cold starter hands over to the harvest boost. -/
  | coldStarterHandover
  /-- STORE_TARGET_REACHED (R59). STORE reaches its target, so the converter stops charging, or STORE falls 50 mV below the target and charging resumes. -/
  | storeTargetReached (reached : Bool)
  /-- STORE_OVERVOLTAGE (R59). STORE exceeds 5.6 V, so every converter stops delivering and STORE_OV is set, or STORE falls below 5.5 V and delivery resumes. -/
  | storeOvervoltage (above : Bool)
  /-- STORE_START_THRESHOLD (R64). STORE rises through 2.50 V while the part is unpowered or in SEALED, and the keystone and VCORE regulators start. -/
  | storeStartThreshold
  /-- POWER_GOOD (R64). VKEY and VCORE reach regulation and the part declares power good. -/
  | powerGood
  /-- BROWNOUT (R65). STORE falls through 2.10 V; the part cuts every rail at once, sets BROWN and clears the held digest. -/
  | brownout
  /-- ISLAND_SUPPLY_SWITCH (R54). VKEY leaves or returns to regulation, and the backup island moves to CELL or back to the keystone. -/
  | islandSupplySwitch (toCell : Bool)
  /-- CELL_LOW (R55). CELL falls below 1.8 V while the Derzor domain is powered, and CELL_LOW is set. -/
  | cellLow
  /-- CELL_CHARGE_CHANGE (R56). The conditions for charging CELL become true or false, and cell charging starts or stops. -/
  | cellChargeChange (on : Bool)
  /-- CELL_OVERVOLTAGE (R56). CELL exceeds 3.65 V; charging stops and CELL_OV is set. -/
  | cellOvervoltage
  /-- VOUT3_CURRENT_LIMIT (R63). VOUT3 has been held in current limit for 1 ms; it turns off and VOUT3_FLT is set. -/
  | vout3CurrentLimit
  /-- VOUT3_MODE_WRITE (R63). A write to VOUT3_CTL.MODE applies a VOUT3 mode; a reserved code is ignored. -/
  | vout3ModeWrite (v : BitVec 16)
  /-- DERZOR_OVERTEMP (R66). The Derzor junction passes 160 °C, so every converter stops delivering and OT is set, or it falls below 140 °C and delivery resumes. -/
  | derzorOvertemp (above : Bool)
  /-- BACKUP_ISLAND_RESET (R517). The island supply falls below 1.5 V, and the calendar, trim, alarm and backup bytes take their reset values. -/
  | backupIslandReset
  /-- COUNT_MESSAGE (R505). At a tick boundary, or after 512 nC is counted, the STORE counter sends QIN, QOUT and a STORE voltage sample to the Porter. -/
  | countMessage (din : BitVec 32) (dout : BitVec 32) (mv : BitVec 16) (lost : Bool)
  /-- LEDGER_COUNT (R69). A count message reaches the Porter, which adds or subtracts ΔQ × V_STORE to the ledger with saturation. -/
  | ledgerCount
  /-- LEDGER_CORRECTION (R70). A correction period expires, and the Porter compares the ledger with the voltage estimate from a quiet sample and corrects it outside the band. -/
  | ledgerCorrection
  /-- STORE_COUNTER_SAT (R506). The STORE current exceeds ±1.0 A for 100 µs; the counter saturates, sets SAT and reports the fault to the Porter. -/
  | storeCounterSat
  /-- PERMIT_REQUEST (R77). A permit request reaches the Porter, which answers grant, defer or deny and places a hold or a deferred entry. -/
  | permitRequest (lost : Bool)
  /-- DEFER_TIMEOUT (R80). A deferred request reaches its defer_ticks bound, is decided once more, and is answered DENY TIMEOUT if it still does not fit. -/
  | deferTimeout
  /-- PERMIT_WITHDRAW (R81). A requester withdraws its pending request, and the Porter removes it without counting it. -/
  | permitWithdraw
  /-- HOLD_RELEASE (R82). An end notice for a granted operation reaches the Porter, which releases its hold or withdraws the matching deferred request. -/
  | holdRelease
  /-- HOLD_TIMEOUT (R82). A hold still outstanding 16 ticks after its grant is released, and HOLD_TO increments. -/
  | holdTimeout
  /-- PERMIT_ANSWER (R226). A Porter answer reaches its requester; for a core it is written into PG and sets the PA latch. -/
  | permitAnswer
  /-- LEDGER_CAPTURE_READ (R95). A read of LEDG_LO captures LEDG_HI and LEDG_FRAC in the same handshake. -/
  | ledgerCaptureRead
  /-- AVAIL_CAPTURE_READ (R95). A read of AVAIL_LO captures AVAIL_HI in the same handshake. -/
  | availCaptureRead
  /-- TICK (R136). A tick boundary occurs; the tick counter advances and courses due by tick count become pending. -/
  | tick (cal : Option (BitVec 12)) (offsetFault : Bool)
  /-- CRYSTAL_STOP (R137). Eight RC cycles pass without a crystal edge; the detector declares the crystal stopped and moves the tick to the RC. -/
  | crystalStop
  /-- CRYSTAL_RUN (R137). 32 768 good crystal cycles have been counted; the crystal is declared running and the tick moves back at the next tick boundary. -/
  | crystalRun
  /-- RC_TRIM (R139). Every 64 ticks while the crystal runs, the part trims the RC against the crystal. -/
  | rcTrim
  /-- TICK_CAPTURE_READ (R169). A read of TICK_0 captures TICK_1, TICK_2 and SUBTICK. -/
  | tickCaptureRead (sub : BitVec 10)
  /-- COURSE_START (R147). With no course running, the pending occurrence of the lowest-numbered course starts: the start notice, Mortar actions, windows and first task issue follow. -/
  | courseStart (sub : BitVec 10)
  /-- COURSE_WINDOW_OPEN (R151). A block window's open offset is reached in the running course, and frames or programs due in that window may start. -/
  | courseWindowOpen (blk : WinBlock)
  /-- COURSE_WINDOW_CLOSE (R151). A block window's close offset is reached; operations not yet started are skipped or their requests withdrawn. -/
  | courseWindowClose (blk : WinBlock)
  /-- COURSE_TIME_UP (R153). The course timer reaches the bound minus the tail, and every waiting WAITEV of the course ends. -/
  | courseTimeUp (sub : BitVec 10)
  /-- COURSE_STALL (R157). The course is still running at its STALL_TICKS-th tick; STALL is set, a record is appended and finished cores enter their stall doors. -/
  | courseStall
  /-- CONTRACT_RECORD_POP (R158). A read of CRS_REC3 removes the oldest contract record and shows the next. -/
  | contractRecordPop
  /-- DRAIN_BOUND_EXPIRY (R115). The 32-tick drain bound ends; unprogrammed records are discarded, QLOST is set and their count is kept for a gap record. -/
  | drainBoundExpiry
  /-- SLEEP_ENTRY_GATE (R114). With the drain and the heavy operations ended, the part loads the next-course tick, closes the port data paths and gates the main domain into SHUTTERED or BARRED. -/
  | sleepEntryGate
  /-- LATCHED_FREEZE (R108). Entry to LATCHED freezes every main-domain handshake with its tokens in place. -/
  | latchedFreeze
  /-- SEALED_ENTRY (R117). The part copies the digest and wake settings to the island, writes SEAL_REC and powers down into SEALED. -/
  | sealedEntry
  /-- WAKE_LAND_EDGE (R104). A WAKE0 or WAKE1 land meets its configured edge or level for long enough to fire. -/
  | wakeLandEdge (land : Bool)
  /-- PORT_ACTIVITY_DETECT (R400). An activity detector sees the first edge on PA3, PA4 or PA6 in SEALED and fires that port's wake source. -/
  | portActivityDetect (p : PortId)
  /-- HINGE_CLOCK_ACTIVITY (R533). HCK activity during LATCHED, SHUTTERED or BARRED is answered 0b1111 and fires the HINGE wake source. -/
  | hingeClockActivity
  /-- WAKE_LEAVE_ANSWER (R121). The Porter's P0 answer for a wake reaches the wake router; a grant continues the wake, and a denial leaves the part asleep and records WAKE_LOST. -/
  | wakeLeaveAnswer
  /-- WAKE_COMPLETE (R121). VCORE reaches its setpoint after a wake from SHUTTERED or BARRED; the domain is powered, unretained banks are cleared and the wake-map course starts. -/
  | wakeComplete
  /-- LATCHED_WAKE_COMPLETE (R120). VCORE returns to its setpoint after a wake from LATCHED, and every frozen handshake resumes. -/
  | latchedWakeComplete
  /-- SEALED_WAKE (R124). A source fires in SEALED; the Derzor domain is powered from STORE, or the wake is held with PEND when STORE is below 2.50 V. -/
  | sealedWake (src : BitVec 4) (storeOk : Bool)
  /-- ASHLAR_RELOAD_END (R113). The reload of Ashlar banks 1–15 after a wake ends, and ASH_RLD clears. -/
  | ashlarReloadEnd
  /-- WARM_RESET (R129). A write of 0x5EA1 to RST_CTL ends the running course, resets both cores and restarts the schedule at the first course. -/
  | warmReset (who : Who)
  /-- BOOT_VERIFY_END (R182). Verification of a slot ends; a pass updates the slot records, loads the image, sets the ledger and starts course 0, and a fail tries the next slot. -/
  | bootVerifyEnd
  /-- SLOT_QUERY (R583). The store service replies with the active slot, the lifecycle and each slot's state record. -/
  | slotQuery
  /-- SLOT_OPEN (R187). The store service opens a session, sets the slot WRITING, counts a write and erases the slot. -/
  | slotOpen
  /-- SLOT_WRITE (R187). The store service writes the data in order at the next stream offset, placing CODE bytes in the code region. -/
  | slotWrite
  /-- SLOT_CLOSE (R187). The store service verifies the written slot and sets it STANDBY or FAILED. -/
  | slotClose
  /-- SLOT_COMMIT (R187). The store service stages a STANDBY slot and clears the held digest, and a no-image boot continues with it. -/
  | slotCommit
  /-- SLOT_ABORT (R187). The store service ends the session and sets the slot being written to EMPTY. -/
  | slotAbort
  /-- SLOT_UNSTAGE (R187). The store service returns a STAGED slot to STANDBY. -/
  | slotUnstage
  /-- STORE_SERVICE_REPLY (R395). When a service message has been carried out and the out half is free, the service places its reply and sets SVC. -/
  | storeServiceReply (p : PortId)
  /-- ADD (R238). Kd := Ks + Kt with flags. -/
  | cAdd (c : CoreId) (d : Reg) (s : Reg) (t : Reg)
  /-- SUB (R238). Kd := Ks − Kt with flags. -/
  | cSub (c : CoreId) (d : Reg) (s : Reg) (t : Reg)
  /-- MOV (R238). Kd := Ks. -/
  | cMov (c : CoreId) (d : Reg) (s : Reg)
  /-- AND (R238). Kd := Kd & Ks with flags. -/
  | cAnd (c : CoreId) (d : Reg) (s : Reg)
  /-- OR (R238). Kd := Kd | Ks with flags. -/
  | cOr (c : CoreId) (d : Reg) (s : Reg)
  /-- XOR (R238). Kd := Kd ^ Ks with flags. -/
  | cXor (c : CoreId) (d : Reg) (s : Reg)
  /-- ADC (R238). Kd := Kd + Ks + C with flags. -/
  | cAdc (c : CoreId) (d : Reg) (s : Reg)
  /-- SBC (R238). Kd := Kd − Ks − (1 − C) with flags. -/
  | cSbc (c : CoreId) (d : Reg) (s : Reg)
  /-- CMP (R238). Sets the flags of Kd − Ks. -/
  | cCmp (c : CoreId) (d : Reg) (s : Reg)
  /-- TST (R238). Sets the flags of Kd & Ks. -/
  | cTst (c : CoreId) (d : Reg) (s : Reg)
  /-- NOT (R238). Kd := ~Ks. -/
  | cNot (c : CoreId) (d : Reg) (s : Reg)
  /-- NEG (R238). Kd := 0 − Ks with flags. -/
  | cNeg (c : CoreId) (d : Reg) (s : Reg)
  /-- SHL (R238). Shifts Kd left by Ks[3:0]. -/
  | cShl (c : CoreId) (d : Reg) (s : Reg)
  /-- SHR (R238). Shifts Kd right logically by Ks[3:0]. -/
  | cShr (c : CoreId) (d : Reg) (s : Reg)
  /-- SAR (R238). Shifts Kd right arithmetically by Ks[3:0]. -/
  | cSar (c : CoreId) (d : Reg) (s : Reg)
  /-- ROL (R238). Rotates Kd left by Ks[3:0]. -/
  | cRol (c : CoreId) (d : Reg) (s : Reg)
  /-- SWPB (R238). Kd := Ks with its bytes swapped. -/
  | cSwpb (c : CoreId) (d : Reg) (s : Reg)
  /-- SEXB (R238). Kd := Ks[7:0] sign-extended. -/
  | cSexb (c : CoreId) (d : Reg) (s : Reg)
  /-- LDI (R238). Kd := sext(i8). -/
  | cLdi (c : CoreId) (d : Reg) (i : BitVec 8)
  /-- ADDI (R238). Kd := Kd + sext(i8) with flags. -/
  | cAddi (c : CoreId) (d : Reg) (i : BitVec 8)
  /-- SHLI (R238). Shifts Kd left by an immediate count. -/
  | cShli (c : CoreId) (d : Reg) (n : BitVec 4)
  /-- SHRI (R238). Shifts Kd right logically by an immediate count. -/
  | cShri (c : CoreId) (d : Reg) (n : BitVec 4)
  /-- SARI (R238). Shifts Kd right arithmetically by an immediate count. -/
  | cSari (c : CoreId) (d : Reg) (n : BitVec 4)
  /-- ROLI (R238). Rotates Kd left by an immediate count. -/
  | cRoli (c : CoreId) (d : Reg) (n : BitVec 4)
  /-- LDW (R238). Kd := the extension word. -/
  | cLdw (c : CoreId) (d : Reg) (v : BitVec 16)
  /-- ADDW (R238). Kd := Ks + v with flags. -/
  | cAddw (c : CoreId) (d : Reg) (s : Reg) (v : BitVec 16)
  /-- ANDW (R238). Kd := Ks & v with flags. -/
  | cAndw (c : CoreId) (d : Reg) (s : Reg) (v : BitVec 16)
  /-- ORW (R238). Kd := Ks | v with flags. -/
  | cOrw (c : CoreId) (d : Reg) (s : Reg) (v : BitVec 16)
  /-- XORW (R238). Kd := Ks ^ v with flags. -/
  | cXorw (c : CoreId) (d : Reg) (s : Reg) (v : BitVec 16)
  /-- CMPW (R238). Sets the flags of Ks − v. -/
  | cCmpw (c : CoreId) (s : Reg) (v : BitVec 16)
  /-- LD (R240). Loads a data word at Kb + 2u. -/
  | cLd (c : CoreId) (d : Reg) (b : Reg) (u : BitVec 4)
  /-- ST (R240). Stores Kd as a data word at Kb + 2u. -/
  | cSt (c : CoreId) (d : Reg) (b : Reg) (u : BitVec 4)
  /-- LDB (R240). Loads a zero-extended data byte at Kb + u. -/
  | cLdb (c : CoreId) (d : Reg) (b : Reg) (u : BitVec 4)
  /-- STB (R240). Stores Kd[7:0] at Kb + u. -/
  | cStb (c : CoreId) (d : Reg) (b : Reg) (u : BitVec 4)
  /-- LDX (R240). Loads a data word at Kb + v. -/
  | cLdx (c : CoreId) (d : Reg) (b : Reg) (v : BitVec 16)
  /-- STX (R240). Stores a data word at Kb + v. -/
  | cStx (c : CoreId) (d : Reg) (b : Reg) (v : BitVec 16)
  /-- LDBX (R240). Loads a data byte at Kb + v. -/
  | cLdbx (c : CoreId) (d : Reg) (b : Reg) (v : BitVec 16)
  /-- STBX (R240). Stores a data byte at Kb + v. -/
  | cStbx (c : CoreId) (d : Reg) (b : Reg) (v : BitVec 16)
  /-- LDP (R240). Loads the instruction word at i:Ks. -/
  | cLdp (c : CoreId) (d : Reg) (s : Reg)
  /-- LDPX (R240). Loads the instruction word at i:(Kb + v). -/
  | cLdpx (c : CoreId) (d : Reg) (b : Reg) (v : BitVec 16)
  /-- IN (R242). Reads the I/O word at io:Ks[11:0]. -/
  | cIn (c : CoreId) (d : Reg) (s : Reg)
  /-- OUT (R242). Writes Kd to the I/O word at io:Ks[11:0]. -/
  | cOut (c : CoreId) (d : Reg) (s : Reg)
  /-- IN_IMM (R242). Reads the I/O word at an immediate address. -/
  | cInImm (c : CoreId) (d : Reg) (a : BitVec 12)
  /-- OUT_IMM (R242). Writes Kd to the I/O word at an immediate address. -/
  | cOutImm (c : CoreId) (d : Reg) (a : BitVec 12)
  /-- SETB_IMM (R209). Atomically writes 1 to bit n of an immediate I/O word. -/
  | cSetbImm (c : CoreId) (n : BitVec 4) (a : BitVec 12)
  /-- CLRB_IMM (R209). Atomically writes 0 to bit n of an immediate I/O word. -/
  | cClrbImm (c : CoreId) (n : BitVec 4) (a : BitVec 12)
  /-- SETB (R209). Atomically writes 1 to bit n of io:Ks[11:0]. -/
  | cSetb (c : CoreId) (n : BitVec 4) (s : Reg)
  /-- CLRB (R209). Atomically writes 0 to bit n of io:Ks[11:0]. -/
  | cClrb (c : CoreId) (n : BitVec 4) (s : Reg)
  /-- BCC (R244). A conditional relative branch with one delay slot. -/
  | cBcc (c : CoreId) (cc : Cond) (off : BitVec 8)
  /-- CALL (R244). A relative call that pushes its return address and has one delay slot. -/
  | cCall (c : CoreId) (off : BitVec 11)
  /-- JMP (R244). An absolute jump to v with one delay slot. -/
  | cJmp (c : CoreId) (v : BitVec 16)
  /-- CALL_ABS (R244). An absolute call to v that pushes its return address. -/
  | cCallAbs (c : CoreId) (v : BitVec 16)
  /-- JR (R244). A jump to the address in Ks. -/
  | cJr (c : CoreId) (s : Reg)
  /-- CALLR (R244). A call to the address in Ks that pushes its return address. -/
  | cCallr (c : CoreId) (s : Reg)
  /-- RET (R221). Pops the return stack and transfers to the popped entry. -/
  | cRet (c : CoreId)
  /-- MUL (R247). Starts an unsigned 16 × 16 multiply into MH:ML. -/
  | cMul (c : CoreId) (s : Reg) (t : Reg)
  /-- MULS (R247). Starts a signed multiply into MH:ML. -/
  | cMuls (c : CoreId) (s : Reg) (t : Reg)
  /-- MAC (R248). Starts a signed multiply-accumulate onto the accumulator chain. -/
  | cMac (c : CoreId) (s : Reg) (t : Reg)
  /-- MACU (R248). Starts an unsigned multiply-accumulate onto the accumulator chain. -/
  | cMacu (c : CoreId) (s : Reg) (t : Reg)
  /-- DIV (R269). Starts an unsigned divide in the iterative stage, abandoning any operation in progress there. -/
  | cDiv (c : CoreId) (s : Reg) (t : Reg)
  /-- DIVS (R269). Starts a signed divide in the iterative stage. -/
  | cDivs (c : CoreId) (s : Reg) (t : Reg)
  /-- FADD (R247). Starts a binary16 addition into FR. -/
  | cFadd (c : CoreId) (s : Reg) (t : Reg)
  /-- FSUB (R247). Starts a binary16 subtraction into FR. -/
  | cFsub (c : CoreId) (s : Reg) (t : Reg)
  /-- FMUL (R247). Starts a binary16 multiplication into FR. -/
  | cFmul (c : CoreId) (s : Reg) (t : Reg)
  /-- FFMA (R248). Starts a binary16 fused multiply-add onto the FR accumulator. -/
  | cFfma (c : CoreId) (s : Reg) (t : Reg)
  /-- FDIV (R247). Starts a binary16 division in the iterative stage. -/
  | cFdiv (c : CoreId) (s : Reg) (t : Reg)
  /-- FSQRT (R247). Starts a binary16 square root in the iterative stage. -/
  | cFsqrt (c : CoreId) (s : Reg)
  /-- FCVT (R278). Starts a conversion of kind k into FR. -/
  | cFcvt (c : CoreId) (s : Reg) (k : FcvtKind)
  /-- FCMP (R249). Starts a binary16 comparison whose flags land in ST at +2. -/
  | cFcmp (c : CoreId) (s : Reg) (t : Reg)
  /-- AU_RESULT_LAND (R261). An arithmetic result reaches its register at its latency, ORs its flags into FF and sets IDZ or IOV. -/
  | auResultLand (c : CoreId)
  /-- NOP (R237). Does nothing. -/
  | cNop (c : CoreId)
  /-- ENDT (R256). Ends the current task; the core starts its next task or goes idle, and the course may end. -/
  | cEndt (c : CoreId) (sub : BitVec 10)
  /-- POLL (R250). Takes an event snapshot into EV and Kd and clears the latches. -/
  | cPoll (c : CoreId) (d : Reg)
  /-- WAITEV (R251). Suspends the core on the event mask in Ks. -/
  | cWaitev (c : CoreId) (s : Reg)
  /-- WAITEV_IMM (R251). Suspends the core on an immediate event mask. -/
  | cWaitevImm (c : CoreId) (mask : BitVec 13)
  /-- WAITEV_END (R160). A listed line asserts, the permit flag changes, or time-up comes; the WAITEV ends with a snapshot into EV. -/
  | waitevEnd (c : CoreId)
  /-- ASKP (R252). Sends a permit request in class k and waits in ASKING for the first answer. -/
  | cAskp (c : CoreId) (k : BitVec 3)
  /-- ASKE (R253). Sends this core's end notice for class k, withdrawing a deferral or releasing a hold. -/
  | cAske (c : CoreId) (k : BitVec 3)
  /-- SNAP (R254). Starts a snapshot gather from the descriptor list at d:Ks. -/
  | cSnap (c : CoreId) (d : Reg) (s : Reg)
  /-- SNAP_COMPLETE (R302). The gather ends; the record goes to the Vault engine and the result word is written into Kd. -/
  | snapComplete (c : CoreId) (fail : Option Nat)
  /-- MFS (R255). Kd := special register n. -/
  | cMfs (c : CoreId) (d : Reg) (n : BitVec 4)
  /-- MTS (R255). Writes Ks into special register n where it is writable. -/
  | cMts (c : CoreId) (n : BitVec 4) (s : Reg)
  /-- UNDEFINED_INSTRUCTION (R236). An undefined word issues and traps ILLEGAL. -/
  | undefinedInstruction (c : CoreId) (two : Bool)
  /-- TIE_READ_COMPLETE (R296). A Derzor-side read crosses the main lane behind the earlier posted writes and returns its value, or 0x0000 with a late fault. -/
  | tieReadComplete (who : Who) (fail : Option TieFail)
  /-- TIE_WRITE_DELIVER (R297). A posted write crosses the main lane and ends delivered, FULL, PARITY or REJECT, with a late-fault record for each failure. -/
  | tieWriteDeliver (parity : Bool)
  /-- TIE_WRITE_TIMEOUT (R297). A posted write gets no acknowledge within 2 µs and ends TIMEOUT with a late-fault record. -/
  | tieWriteTimeout
  /-- TIE_LATE_FAULT_POP (R298). A read of TIE_LF2 removes the oldest Tie late-fault entry. -/
  | tieLateFaultPop
  /-- REGISTER_WRITE (R17). A write to a register with no row of its own takes effect field by field under its access codes. -/
  | registerWrite (who : Who) (a : BitVec 12) (v : BitVec 16)
  /-- PIN_INPUT_CHANGE (R420). A pad's input level changes; the input word follows and a tap drives its Mortar line. -/
  | pinInputChange (pin : BitVec 6) (level : Bool)
  /-- SOURCE_PULSE_END (R313). The 1 µs pulse of a Mortar pulse source ends and its line drive falls. -/
  | sourcePulseEnd (src : BitVec 8)
  /-- CELL_DELAY_EXPIRY (R317). A reflex cell's lookup has held a new value for its delay d, and its DIRECT or LATCH output changes. -/
  | cellDelayExpiry (n : BitVec 5)
  /-- CELL_PULSE_END (R317). A PULSE cell's output returns to 0 after d. -/
  | cellPulseEnd (n : BitVec 5)
  /-- CELL_LATCH_CLEAR (R317). A write of 1 to an MRT_LAT bit clears that LATCH cell. -/
  | cellLatchClear (who : Who) (a : BitVec 12) (v : BitVec 16)
  /-- MORTAR_SOFT_WRITE (R311). A write to MRT_SOFT sets or clears soft latches and so drives their lines. -/
  | mortarSoftWrite (who : Who) (a : BitVec 12) (v : BitVec 16)
  /-- VIO_LOSS (R414). A bank's VIO falls below power good; its pins go undriven and read 0. -/
  | vioLoss (bank : PinBank)
  /-- VIO_RETURN (R414). A bank's VIO returns and its pins take their settings again. -/
  | vioReturn (bank : PinBank)
  /-- PIN_OUTPUT_WRITE (R418). A write to a group output word changes only the bits of pins the writer owns. -/
  | pinOutputWrite (who : Who) (g : PinBank) (v : BitVec 16)
  /-- PIN_ENABLE_WRITE (R419). A write to a group enable word changes the driver enables of the writer's output pins. -/
  | pinEnableWrite (who : Who) (g : PinBank) (v : BitVec 16)
  /-- ASHLAR_WINDOW_WRITE (R331). A window write stages bytes of an entry, loading the core's stage from the entry first when the target changes. -/
  | ashlarWindowWrite (c : CoreId) (a : BitVec 16) (bytes : List Byte)
  /-- ASHLAR_COMMIT_WRITE (R332). A write of 1 to ASH_CMT.COMMIT queues a commit of the core's stage. -/
  | ashlarCommitWrite (c : CoreId)
  /-- ASHLAR_COMMIT_PERFORM (R334). The commit takes its array slot and replaces the target entry whole, or ends FENCED or SHARE. -/
  | ashlarCommitPerform (c : CoreId)
  /-- ASHLAR_GO (R339). A write of 1 to ASH_GO starts a channel-1 search, abandoning any previous operation of that core. -/
  | ashlarGo (c : CoreId)
  /-- ASHLAR_SEARCH_LAND (R337). A channel-1 search performed in its array slot lands its count, first match and latched match set. -/
  | ashlarSearchLand (c : CoreId)
  /-- ASHLAR_STEP_WRITE (R338). A write of 1 to ASH_NEXT.STEP queues a step to the next latched match. -/
  | ashlarStepWrite (c : CoreId)
  /-- ASHLAR_STEP_LAND (R338). A step lands the next match's fields, or END, with STALE where needed. -/
  | ashlarStepLand (c : CoreId)
  /-- ASHLAR_SCRUB_READ (R354). The scrub reads the next entry in a free array slot and checks its parity. -/
  | ashlarScrubRead
  /-- ASHLAR_SELF_TEST_END (R353). The self-tests of a wake end and TESTING clears. -/
  | ashlarSelfTestEnd (fail : BitVec 16)
  /-- CHANNEL0_SEARCH (R345). Channel 0 searches an accepted frame's key in one or two passes and carries out the action of the result. -/
  | channel0Search
  /-- CAN_FRAME_ACCEPT (R404). Port C accepts a valid frame into its receive queue, or loses it when the queue is full. -/
  | canFrameAccept (f : CanFrame) (own : Bool) (sub : BitVec 10)
  /-- CAN_FDF_IGNORE (R402). In classical mode port C ignores a frame with FDF recessive without an error frame. -/
  | canFdfIgnore
  /-- CAN_REPLY_TRANSMIT (R407). With leave granted, the pending reply starts at the first bus idle before the reply window closes. -/
  | canReplyTransmit
  /-- CAN_REPLY_SENT (R407). The reply frame is sent; PC_SENT increments, the hold is released and the slot is disarmed unless KEEP. -/
  | canReplySent
  /-- CAN_REPLY_WINDOW_EXPIRY (R407). The reply window ends before a start of frame; the request is withdrawn and the reply counted unsent WINDOW. -/
  | canReplyWindowExpiry
  /-- CAN_BUS_ERROR (R401). Port C meets a protocol error and changes its error counters and fault state as ISO 11898-1 requires. -/
  | canBusError (tec : BitVec 8) (rxe : BitVec 8) (busOff : Bool)
  /-- CAN_BUS_OFF_RECOVER (R401). A write of 1 to PC_MODE.RECOVER starts bus-off recovery under BOFF_HOLD. -/
  | canBusOffRecover (who : Who) (v : BitVec 16)
  /-- CAN_LISTEN_WRITE (R408). A write to PC_MODE.LISTEN puts port C in or out of listen-only mode. -/
  | canListenWrite (who : Who) (v : BitVec 16)
  /-- CAN_REPLY_SLOT_ARM (R406). A write of 1 to a PC_RSn ARMED bit arms that reply slot. -/
  | canReplySlotArm (who : Who) (k : BitVec 4) (v : BitVec 16)
  /-- CAN_REPLY_SLOT_DISARM (R406). A write of 1 to a PC_RSn DISARM bit disarms that reply slot. -/
  | canReplySlotDisarm (who : Who) (k : BitVec 4) (v : BitVec 16)
  /-- CAN_IN_CONSUME (R405). A write to PC_IN_RD consumes records of port C's in half. -/
  | canInConsume (who : Who) (v : BitVec 16)
  /-- BTREF_LOSS (R403). BTREF goes absent or out of range with REF = EXT, and port C leaves the bus. -/
  | btrefLoss
  /-- BTREF_RECOVER (R403). BTREF has been in range for 1 ms, and port C rejoins by bus integration. -/
  | btrefRecover
  /-- PORT_POLL (R385). Command 0xA0 returns the porch word. -/
  | portPoll (p : PortId)
  /-- PORT_WRITE (R392). Command 0xA1 carries a message that is checked and placed in the in half, sent to the store service, or discarded with a status. -/
  | portWrite (p : PortId) (opcode : Byte) (tag : Byte) (len : BitVec 16) (rest : List Byte) (fmtOk : Bool)
  /-- PORT_READ (R394). Command 0xA2 sends the posted out-half message, or the empty message, and frees the half when it has been taken whole. -/
  | portRead (p : PortId) (whole : Bool)
  /-- PORT_STATUS (R393). Command 0xA3 returns the status record and clears ERR. -/
  | portStatus (p : PortId)
  /-- PORT_UNKNOWN_COMMAND (R387). An unknown command byte records COMMAND and the rest of the transaction is ignored. -/
  | portUnknownCommand (p : PortId) (b : Byte)
  /-- PORT_U_IDLE_GAP (R391). A 2 ms idle gap on port U's RX ends discarding. -/
  | portUIdleGap
  /-- MAILBOX_IN_RELEASE (R394). A write of 1 to Px_IN.DONE releases the in half and sets INSPACE. -/
  | mailboxInRelease (p : PortId)
  /-- MAILBOX_OUT_POST (R394). A write of 1 to Px_OUT.POST posts the out-half message, or is refused. -/
  | mailboxOutPost (p : PortId)
  /-- VAULT_APPEND (R366). A write to VAULT_ALEN offers a firmware record, which is accepted with a sequence number or refused, shed or thinned. -/
  | vaultAppend (c : CoreId) (len : BitVec 16)
  /-- VAULT_APPEND_COPY_DONE (R366). The engine finishes copying an accepted body and ST reads ACCEPTED. -/
  | vaultAppendCopyDone (c : CoreId)
  /-- VAULT_FLUSH_AGE_EXPIRY (R367). A page's oldest record has waited VAULT_FLUSH.TICKS ticks, and the page counts as queued. -/
  | vaultFlushAgeExpiry
  /-- VAULT_PAGE_PROGRAM_START (R367). With the page queued, the window open, PPT and in-flight limits met and P1 granted, the engine starts a page program. -/
  | vaultPageProgramStart
  /-- VAULT_PROGRAM_END (R368). A program ends VERIFIED, freeing its records from the queue, or FAILED, leading to re-placement or a hole. -/
  | vaultProgramEnd (id : Nat) (attempts : BitVec 2) (ok : Bool)
  /-- VAULT_GAP_RECORD (R372). When its conditions hold, a pending gap is written as a GAP record. -/
  | vaultGapRecord
  /-- VAULT_RELEASE (R359). A write of n to VAULT_REL advances the head, which is written into both table copies. -/
  | vaultRelease (who : Who) (v : BitVec 16)
  /-- VAULT_MOUNT_END (R378). The mount ends and the START record is offered. -/
  | vaultMountEnd
  /-- VAULT_LATE_FAULT_POP (R369). A read of VAULT_LF4 removes the oldest Vault late-fault entry. -/
  | vaultLateFaultPop
  /-- VAULT_ASEQ_CAPTURE (R382). A read of VAULT_ASEQ_LO captures VAULT_ASEQ_HI. -/
  | vaultAseqCapture (c : CoreId)
  /-- LAST_GASP_SEAL (R91). After the flush the part enters SEALED with REASON = LASTGASP. -/
  | lastGaspSeal
  /-- TOUCH_FRAME_DUE (R435). A frame falls due at the step-down rate, skipping an earlier pending frame. -/
  | touchFrameDue
  /-- TOUCH_FRAME_START (R436). A pending frame starts within an open window and, when high-drive, with P3 leave. -/
  | touchFrameStart
  /-- TOUCH_FRAME_END (R437). A frame's results land together: baselines, touches, drops, films, palms, points, hops and events. -/
  | touchFrameEnd (raw : List (List (BitVec 16) × List (BitVec 16))) (noise : BitVec 12) (cand : BitVec 12) (sub : BitVec 10)
  /-- TOUCH_STUCK_RESET (R441). A touch or suppression held for MAX_ON is reset to the raw value and STUCK is set. -/
  | touchStuckReset (g : BitVec 2) (sub : BitVec 10)
  /-- TOUCH_RATE_STEP (R449). T1, T2 or T3 of untouched time passes, and the scan rate steps down. -/
  | touchRateStep (sub : BitVec 10)
  /-- TOUCH_REACQUIRE (R438). A write of 1 to TCH_CTL.REACQ re-acquires every group's baselines from the next frame. -/
  | touchReacquire (who : Who)
  /-- TOUCH_CHG_FORCE (R444). A write of TCH_CTL.CHG_FORCE holds or releases charger-noise mode. -/
  | touchChgForce (who : Who) (v : BitVec 16)
  /-- TOUCH_RESULT_CAPTURE (R437). A read of TCH_FRM captures every touch result register. -/
  | touchResultCapture
  /-- SENTINEL_SCAN_DUE (R451). The sentinel's idle or burst period expires and a scan starts once no main frame runs. -/
  | sentinelScanDue
  /-- SENTINEL_SCAN_END (R452). A sentinel scan ends; touches are qualified, drops and palms rejected, and the burst rate updated. -/
  | sentinelScanEnd (raw : List (BitVec 16)) (noise : BitVec 12)
  /-- PANE_UP (R472). PANE_CTL.UP in OFF starts power-up and the Pane enters RISE. -/
  | paneUp (who : Who)
  /-- PANE_DOWN (R473). PANE_CTL.DOWN zeroes the sinks and starts power-down. -/
  | paneDown (who : Who)
  /-- PANE_CLR (R475). PANE_CTL.CLR in FAULT with every used rail off returns the Pane to OFF. -/
  | paneClr (who : Who)
  /-- PANE_RAIL_CHANGE (R471). A rail comparator declares a change after 20 µs, completing a rail step or raising an order fault. -/
  | paneRailChange (rail : BitVec 3) (good : Bool) (isOff : Bool)
  /-- PANE_RAIL_WINDOW_EXPIRY (R474). A rail step is not complete within RAIL_WIN, and the Pane enters FAULT with cause WINDOW. -/
  | paneRailWindowExpiry
  /-- PANE_FRAME_START (R466). A due frame starts with the window open, PX0 low and P2 granted. -/
  | paneFrameStart
  /-- PANE_LINE_START (R461). A row or common line time begins and reads its frame-store words. -/
  | paneLineStart
  /-- PANE_FRAME_END (R467). A frame ends; FRM increments, clear frames are counted, the state may advance and derate steps are taken. -/
  | paneFrameEnd
  /-- PANE_STALE (R469). HOLD_MS passes in LIT with no frame ending, and STALE is set. -/
  | paneStale
  /-- LED_SINK_SET (R480). A write to LSn_SET sets the set and effective codes, or is rejected above 240. -/
  | ledSinkSet (who : Who) (n : BitVec 2) (code : BitVec 8)
  /-- LED_SINK_OUT_OF_REGULATION (R481). A sink's current is more than 5 % low for 10 µs, so OOR and HEADROOM are set. -/
  | ledSinkOutOfRegulation (n : BitVec 2)
  /-- SILL_SAMPLE_INSTANT (R488). A sample instant starts a conversion burst, or records a MISS when the previous burst has not landed. -/
  | sillSampleInstant (sub : BitVec 10)
  /-- SILL_BURST_LAND (R493). A burst's results land: the shunt sample is queued, the range chosen, auxiliary results stored and thresholds evaluated. -/
  | sillBurstLand (sh : List (BitVec 16)) (shClip : Option Bool) (cmBad : Bool) (aux : List (BitVec 16)) (temp : Option (BitVec 16))
  /-- SILL_TEMP_LAND (R500). A lone TEMP conversion lands in SILL_TEMP. -/
  | sillTempLand (t : BitVec 16)
  /-- SILL_SHUNT_POP (R495). A read of SILL_SH_DATA removes the oldest shunt entry and captures its tag. -/
  | sillShuntPop
  /-- SILL_CTL_WRITE (R498). A write to SILL_CTL changes RUN, AUTO or RANGE from the next instant, deasserting thresholds when RUN goes 0. -/
  | sillCtlWrite (who : Who) (v : BitVec 16)
  /-- SILL_AUX_CAPTURE (R499). A read of SILL_AUXn captures SILL_AUXTn. -/
  | sillAuxCapture (n : BitVec 3)
  /-- SILL_RESUME_CAPTURE (R494). A read of SILL_SH_RSEQ_LO or RTICK_LO captures its high word and RSUB. -/
  | sillResumeCapture (hi : Bool)
  /-- STORE_CHARGE_CAPTURE (R504). A read of SILL_ST_QIN_LO or QOUT_LO captures the matching high word. -/
  | storeChargeCapture (hi : Bool)
  /-- CALENDAR_TICK (R509). Thirty-two oscillation cycles advance the calendar by 1/1024 s with trim; new seconds and minutes pulse and compare the alarm. -/
  | calendarTick
  /-- CALENDAR_LOAD (R513). A write of 1 to CAL_CTL.LOAD loads the corrected CAL_SET values and restarts the divider and trim window. -/
  | calendarLoad (who : Who)
  /-- CALENDAR_CAPTURE (R512). A read of CAL_SUB captures the time and date registers. -/
  | calendarCapture
  /-- FLOOR_RAISE (R524). A write of 0xF1A3 to SEC_FLRCMD starts programming a FLOOR entry, or reports SAME or FULL. -/
  | floorRaise (who : Who) (v : BitVec 16)
  /-- FLOOR_PROGRAM_END (R524). The FLOOR program ends and FLR reads DONE. -/
  | floorProgramEnd
  /-- CRYPTO_JOB_START (R525). A write of CRY_OP with GO = 1 checks and queues a cryptographic job. -/
  | cryptoJobStart (c : CoreId) (v : BitVec 16)
  /-- CRYPTO_JOB_END (R526). A job ends, writes DST and its status, and the engines take the next waiting user in order. -/
  | cryptoJobEnd
  /-- RNG_READ (R528). A read of RNG_DATA returns 16 random bits and starts a refill. -/
  | rngRead
  /-- RNG_HEALTH_FAIL (R528). A health test fails and RNG_STAT.FAULT is set. -/
  | rngHealthFail
  /-- RNG_RESTART (R528). A write of 1 to RNG_STAT.RESTART restarts the source after a fault. -/
  | rngRestart (who : Who)
  /-- HINGE_ID (R534). Hinge command 0x01 returns 0x7216. -/
  | hingeId (hdrOk : Bool)
  /-- HINGE_READ (R535). A Hinge READ accesses instruction, data, I/O or Hinge-register space as the named core. -/
  | hingeRead (space : HingeSpace) (a : BitVec 16) (hdrOk : Bool)
  /-- HINGE_WRITE (R535). A Hinge WRITE accesses data, I/O or Hinge-register space as the named core. -/
  | hingeWrite (space : HingeSpace) (a : BitVec 16) (v : BitVec 16) (hdrOk : Bool) (dataOk : Bool)
  /-- HINGE_CHALLENGE (R536). A write of HCTL.CHAL fills HCHAL with a fresh random challenge. -/
  | hingeChallenge (rnd : List Byte)
  /-- HINGE_OPEN (R536). A write of HCTL.OPEN opens a session in FACTORY, or starts the signed session check in LOCKED. -/
  | hingeOpen
  /-- HINGE_SESSION_CHECK_END (R536). The debug-key check ends and opens the session with the requested rights, or counts a failure. -/
  | hingeSessionCheckEnd
  /-- HINGE_CLOSE (R539). A write of HCTL.CLOSE ends the session and resumes halted cores. -/
  | hingeClose
  /-- HINGE_HALT (R540). A write of HRUN.HALT requests that a core halt. -/
  | hingeHalt (c : CoreId)
  /-- CORE_HALTED (R540). The core reaches a permitted point and stops issuing. -/
  | coreHalted (c : CoreId)
  /-- HINGE_RESUME (R540). A write of HRUN.RESUME returns a halted core to its previous state. -/
  | hingeResume (c : CoreId)
  /-- HINGE_STEP (R540). A write of HRUN.STEP issues one instruction on a halted core and halts it again. -/
  | hingeStep (c : CoreId)
  /-- HINGE_SCHED_WRITE (R542). A write of HRUN.SCHED turns schedule-check mode on or off for a core. -/
  | hingeSchedWrite (c : CoreId) (on : Bool)
  /-- HINGE_PC_WRITE (R541). A write to HPC sets a halted core's next issue address. -/
  | hingePcWrite (c : CoreId) (v : BitVec 16)
  /-- HINGE_RESET (R544). A write of 0x5EA1 to HRST causes a warm reset with cause WARM_HINGE. -/
  | hingeReset (v : BitVec 16)
  /-- OTP_PROG (R521). HOTP_CMD PROG programs one OTP word in FACTORY, or is refused. -/
  | otpProg
  /-- OTP_PROG_END (R521). The OTP word program completes and the word can never change again. -/
  | otpProgEnd
  /-- LIFECYCLE_LOCK (R522). HOTP_CMD 0x10C4 moves FACTORY to LOCKED and closes the session. -/
  | lifecycleLock
  /-- LIFECYCLE_RETIRE (R522). HOTP_CMD 0x0DEA moves the part to RETIRED and closes the session. -/
  | lifecycleRetire
  /-- FETCH_COUNT_CAPTURE (R543). A read of FCNT_A_LO or FCNT_B_LO captures the matching high word. -/
  | fetchCountCapture (c : CoreId)
  /-- CAN_BUS_INTEGRATION (R402). Port C sees 11 consecutive recessive bits and takes part in the bus again after an ignored FD frame, after BTREF returns or after VIOA returns. -/
  | canBusIntegration
  /-- CAN_BUS_OFF_RECOVERY_END (R401). The standard's bus-off recovery sequence of recessive bit runs completes and port C returns to error-active. -/
  | canBusOffRecoveryEnd
  /-- LED_SINK_BACK_IN_REGULATION (R481). A sink's loop headroom returns and its current is back within 5 % of its effective code, so LS_HR.OOR clears. -/
  | ledSinkBackInRegulation (n : BitVec 2)
  /-- CELL_PRESENT (R55). CELL rises to 1.8 V or above and ENT_SRC.CELL_P reads 1, so SEALED sleep actions are no longer refused. -/
  | cellPresent
  /-- COLD_STARTER_START (R53). With STORE below 1.60 V and neither HV nor VEH qualified, HARV reaches 0.33 V with 3 µW available and the cold starter begins charging STORE. -/
  | coldStarterStart
  /-- ENTRY_BUCK_MARGIN (R45). The selected VEH or HVSEC crosses STORE + 0.3 V, so the entry buck stops or resumes charging and ENT_SRC.CHG changes. -/
  | entryBuckMargin (met : Bool)
  /-- RNG_REFILL_END (R528). The random source finishes a refill, or 1024 fresh samples pass after a restart, and RNG_STAT.READY becomes 1. -/
  | rngRefillEnd (w : BitVec 16)
  /-- HINGE_UNKNOWN_COMMAND (R534). A Hinge transaction with a command not in the table is answered FAULT and LASTERR records CMD. -/
  | hingeUnknownCommand (cmd : BitVec 6) (hdrOk : Bool)
  /-- PORT_U_FRAMING_ERROR (R398). A port U command byte with a framing or parity error is discarded and status FRAME is recorded. -/
  | portUFramingError
  deriving DecidableEq, Repr

end Sys2Proof
end

