-- ==== Sys2Proof/Decode.lean ====
section
/-!
DEFINITION. The rows of the table carry no bits, so no word of the table spells a command.
-/
namespace Sys2Proof

/-- The command a word of the table spells: none, since no row has bits. -/
def decodeTableWord (_nbits _w : Nat) : Option Instr := none

end Sys2Proof
end

