-- ==== Sys2Proof/Config.lean ====
section
/-!
DEFINITION. Settings that an image fixes, and the free values: constants without a body, of which nothing is known.
-/
namespace Sys2Proof
namespace Machine

/-- Modes of a reflex cell (R317); `reserved` is a reserved code as loaded (R322). -/
inductive CellMode where
  | direct | latch | pulse | off | reserved
  deriving DecidableEq, Repr, Inhabited

/-- Settings of a reflex cell (R315); an input of `none` is constant 0. -/
structure CellCfg where
  in0 : Option (BitVec 6)
  in1 : Option (BitVec 6)
  in2 : Option (BitVec 6)
  in3 : Option (BitVec 6)
  lut : BitVec 16
  mode : CellMode
  delay : BitVec 8
  scale : BitVec 2
  clr : Option (BitVec 6)
  out : BitVec 6
  deriving DecidableEq, Repr, Inhabited

def CellCfg.idle : CellCfg :=
  { in0 := none, in1 := none, in2 := none, in3 := none, lut := 0, mode := .off, delay := 0, scale := 0, clr := none, out := 0 }

/-- A sink of the fabric that follows one line (R323): `line = none` names no line (R322). -/
structure SinkCfg where
  en : Bool
  line : Option (BitVec 6)
  inv : Bool
  deriving DecidableEq, Repr, Inhabited

def SinkCfg.off : SinkCfg := { en := false, line := none, inv := false }

/-- What the MORTAR section sets (R312, R315, R323). -/
structure MortarCfg where
  src : Vector (BitVec 8) 64
  cells : Vector CellCfg 32
  viewA : Vector SinkCfg 12
  viewB : Vector SinkCfg 12
  pins : Vector SinkCfg 48
  wr0 : SinkCfg
  wr1 : SinkCfg
  vt0 : SinkCfg
  vt1 : SinkCfg
  px0 : SinkCfg
  px1 : SinkCfg
  deriving DecidableEq, Repr, Inhabited

/-- No MORTAR section: no route and no cell in use (R173). -/
def MortarCfg.absent : MortarCfg :=
  { src := Vector.replicate 64 0, cells := Vector.replicate 32 CellCfg.idle, viewA := Vector.replicate 12 SinkCfg.off,
    viewB := Vector.replicate 12 SinkCfg.off, pins := Vector.replicate 48 SinkCfg.off, wr0 := SinkCfg.off,
    wr1 := SinkCfg.off, vt0 := SinkCfg.off, vt1 := SinkCfg.off, px0 := SinkCfg.off, px1 := SinkCfg.off }

/-- What the VAULT section sets (VAULT_CFG, VAULT_STRM, VAULT_THINS, VAULT_SRCS, VAULT_FLUSH). -/
structure VaultCfg where
  thin : Bool
  stop : Bool
  thinN : BitVec 4
  ppt : BitVec 4
  chain : Bool
  strm : BitVec 16
  thins : BitVec 16
  srcCan : BitVec 4
  srcVt0 : BitVec 4
  srcVt1 : BitVec 4
  flush : BitVec 8
  deriving DecidableEq, Repr, Inhabited

def VaultCfg.absent : VaultCfg :=
  { thin := false, stop := false, thinN := 2, ppt := 0, chain := false, strm := 0, thins := 0, srcCan := 0, srcVt0 := 0,
    srcVt1 := 0, flush := 0 }

/-- What the PORTS section sets (R345, R411, R412). -/
structure PortsCfg where
  s : BitVec 16
  q : BitVec 16
  u : BitVec 16
  uBaud : BitVec 16
  c : BitVec 16
  btn0 : BitVec 16
  btn1 : BitVec 16
  btd0 : BitVec 16
  btd1 : BitVec 16
  rwin : BitVec 16
  listen : Bool
  c0m1 : BitVec 48
  c0m2 : BitVec 48
  c0sel : BitVec 2
  c0pass2 : Bool
  deriving DecidableEq, Repr, Inhabited

/-- Kinds of touch group (R430). -/
inductive TouchKind where
  | off | self | strip | grid
  deriving DecidableEq, Repr, Inhabited

/-- Settings of a touch group (R432). `tx`: the members in order, for a GRID its TX lines; `rx`: a GRID's RX lines. -/
structure GroupCfg where
  kind : TouchKind
  tx : List (BitVec 5)
  rx : List (BitVec 5)
  shield : BitVec 2
  high : Bool
  th : BitVec 12
  deb : BitVec 2
  nbEn : Bool
  nbPct : BitVec 2
  palmN : BitVec 3
  palmSum : BitVec 16
  filmN : BitVec 5
  filmTh : BitVec 12
  maxOn : BitVec 8
  deriving DecidableEq, Repr, Inhabited

def GroupCfg.absent : GroupCfg :=
  { kind := .off, tx := [], rx := [], shield := 0, high := false, th := 0, deb := 0, nbEn := false, nbPct := 0, palmN := 0,
    palmSum := 0, filmN := 0, filmTh := 0, maxOn := 0 }

/-- Settings of the touch sentinel (R432, R451 to R453); times in burst periods, `stepMax` likewise. -/
structure SentinelCfg where
  sensors : List (BitVec 4)
  sth : BitVec 12
  snbPct : BitVec 2
  spalmN : BitVec 3
  dtap : Bool
  swipe : Bool
  dir : BitVec 2
  dtapKey : BitVec 3
  tapMax : BitVec 8
  tapGap : BitVec 8
  stepMax : BitVec 8
  swipeMin : BitVec 3
  sfreqA : BitVec 3
  sfreqB : BitVec 3
  idle : BitVec 11
  deriving DecidableEq, Repr, Inhabited

def SentinelCfg.absent : SentinelCfg :=
  { sensors := [], sth := 0, snbPct := 0, spalmN := 0, dtap := false, swipe := false, dir := 0, dtapKey := 0, tapMax := 0,
    tapGap := 0, stepMax := 0, swipeMin := 0, sfreqA := 0, sfreqB := 0, idle := 512 }

/-- What the TOUCH section sets (R432). `filt` is FILT's code; `drift` codes 1/16, 1/64, 1/256, 1/1024. -/
structure TouchCfg where
  owner : Bool
  groups : Vector GroupCfg 4
  freqEn : BitVec 8
  freqStart : BitVec 3
  filt : BitVec 2
  hopTh : BitVec 12
  chgTh : BitVec 12
  drift : BitVec 2
  rates : Vector (BitVec 8) 4
  times : Vector (BitVec 8) 3
  sent : SentinelCfg
  /-- A setting was reserved or inconsistent (TCH_STAT.CFG_BAD). -/
  bad : Bool
  deriving DecidableEq, Repr, Inhabited

def TouchCfg.absent : TouchCfg :=
  { owner := false, groups := Vector.replicate 4 GroupCfg.absent, freqEn := 0, freqStart := 0, filt := 0, hopTh := 0,
    chgTh := 0, drift := 0, rates := #v[120, 30, 8, 2], times := #v[2, 10, 60], sent := SentinelCfg.absent, bad := false }

/-- Panel modes (R458). -/
inductive PaneMode where
  | none | matrix | segment | split
  deriving DecidableEq, Repr, Inhabited

/-- What the PANE section sets, after R483. -/
structure PaneCfg where
  owner : Bool
  mode : PaneMode
  bias : Bool
  coms : BitVec 4
  derate : BitVec 4
  cols : BitVec 7
  rows : BitVec 6
  lineUs : BitVec 8
  railWin : BitVec 8
  holdMs : BitVec 8
  nom : Vector (BitVec 16) 7
  ls : Vector (BitVec 8) 4
  /-- First content of the frame store, by word. -/
  store : List (Nat × BitVec 16)
  /-- A field was loaded under R483. -/
  bad : Bool
  deriving DecidableEq, Repr, Inhabited

def PaneCfg.absent : PaneCfg :=
  { owner := false, mode := .none, bias := false, coms := 1, derate := 0, cols := 0, rows := 0, lineUs := 8, railWin := 255,
    holdMs := 0, nom := Vector.replicate 7 0, ls := Vector.replicate 4 0, store := [], bad := false }

/-- A loaded threshold (R501); `ch = none` is OFF. -/
structure ThrCfg where
  ch : Option (BitVec 4)
  above : Bool
  level : BitVec 16
  hyst : BitVec 16
  /-- COUNT − 1. -/
  count : BitVec 4
  trange : BitVec 3
  deriving DecidableEq, Repr, Inhabited

def ThrCfg.off : ThrCfg := { ch := none, above := false, level := 0, hyst := 0, count := 0, trange := 0 }

/-- What the SILL section sets, before the check of R489; OVS codes as SILL_CFG1. -/
structure SillCfg where
  owner : BitVec 2
  per : BitVec 16
  ovsSh : BitVec 3
  ovsAux : BitVec 3
  rmin : BitVec 3
  rmax : BitVec 3
  aux : List (BitVec 4)
  shOn : Bool
  run : Bool
  auto : Bool
  range : BitVec 3
  thr : Vector ThrCfg 8
  bad : Bool
  deriving DecidableEq, Repr, Inhabited

/-- No SILL section: no instants are taken (R173, R500). -/
def SillCfg.absent : SillCfg :=
  { owner := 0, per := 0, ovsSh := 0, ovsAux := 0, rmin := 0, rmax := 0, aux := [], shOn := false, run := false, auto := false,
    range := 0, thr := Vector.replicate 8 ThrCfg.off, bad := false }

/-- The built-in delay calibration a Mortar starts from (R319). -/
opaque Config.builtinCal : BitVec 12

/-- Whether a quotient that the spec does not say how to round is rounded up: numerator and denominator. -/
opaque Config.roundsUp : Nat → Nat → Bool

/-- Free words and bits, by the count of free values taken so far. -/
opaque Config.freeWord : Nat → BitVec 16
opaque Config.freeBit : Nat → Bool

/-- Whether a cell whose inputs change together shows the value of a combination between (R318): the count of free values, the tick,
the lines before and after, the cell. -/
opaque Config.spike : Nat → Nat → BitVec 64 → BitVec 64 → Nat → Bool

/-- What the bodies of the sections whose layout the spec does not give set (R173). -/
opaque Config.mortarSection : List (BitVec 8) → MortarCfg
opaque Config.paneSection : List (BitVec 8) → PaneCfg
opaque Config.touchSection : List (BitVec 8) → TouchCfg
opaque Config.sillSection : List (BitVec 8) → SillCfg
opaque Config.vaultSection : List (BitVec 8) → VaultCfg
opaque Config.portsSection : List (BitVec 8) → PortsCfg

/-- The offset of a touch point where the deltas beside it do not sum to more than 0 (R448 states no mean there). -/
opaque Config.pointOffset : Int → Int → Int

end Machine
end Sys2Proof
end

