-- ==== Sys2Proof/Machine/State.lean ====
section
/-!
DEFINITION. The state of the part as plain data, its value before the first supply, and the reasons a step can stop.
-/
namespace Sys2Proof
namespace Machine

/-- Reasons a step stops with a fault. No command of this block stops so. -/
inductive Fault where
  /-- Raised by no command (safe: it stops nothing). -/
  | unused
  deriving DecidableEq, Repr

/-- Reasons a step refuses a command. -/
inductive Refusal where
  /-- The command has no meaning yet; raised by its arm of `exec` alone (safe: nothing is claimed of it). -/
  | notModelled (mnemonic : String)
  deriving DecidableEq, Repr

/-- A supply source the selector can choose (R28). -/
inductive Sel where
  | none | hv | veh | harv
  deriving DecidableEq, Repr

/-- Phases of the flyback (R39, R40). `holdoff timer hot`: the 1 s hold-off still runs; the primary region is still hot. -/
inductive Flyback where
  | off | startup | switching | holdoff (timer hot : Bool)
  deriving DecidableEq, Repr

/-- VOUT3 modes (R63). -/
inductive VoutMode where
  | off | lowq | on
  deriving DecidableEq, Repr

/-- Image fields of the energy entry (ENT_CFG, HARV_CFG, CELL_CFG and the per-state VOUT3 modes). -/
structure EntryCfg where
  storeTgt : BitVec 5
  vehIlim : BitVec 3
  hvIlim : BitVec 4
  k : BitVec 4
  period : BitVec 2
  chgEn : Bool
  cv : BitVec 2
  cellIlim : BitVec 2
  voutOpen : VoutMode
  voutLatched : VoutMode
  voutShuttered : VoutMode
  voutBarred : VoutMode
  deriving DecidableEq, Repr

/-- Start-up settings of the energy entry (R60). -/
def EntryCfg.startup : EntryCfg :=
  { storeTgt := 3, vehIlim := 5, hvIlim := 5, k := 6, period := 2, chgEn := false, cv := 0, cellIlim := 0,
    voutOpen := .off, voutLatched := .off, voutShuttered := .off, voutBarred := .off }

/-- The energy entry of the Derzor die (02_energy_entry.md). -/
structure Energy where
  /-- Live qualification of HV, VEH, HARV (R33; ENT_SRC[4:2]). -/
  hvQ : Bool
  vehQ : Bool
  harvQ : Bool
  /-- Selected source (R28, R34; ENT_SRC.SEL). -/
  sel : Sel
  /-- The 4 ms hold after a switch-over runs (R35). -/
  hold : Bool
  /-- The selected source was lost during the hold: its converter delivers nothing (R35). -/
  selDead : Bool
  /-- ENT_STAT, bits [11:0] without BROWN, which the backup island holds (R36, R66). -/
  stat : BitVec 12
  /-- ENT_SWCNT (R36). -/
  swcnt : BitVec 16
  /-- Live over-voltage and over-temperature stops (R46, R59, R66). -/
  vehOv : Bool
  hvOv : Bool
  storeOv : Bool
  overTemp : Bool
  cellOv : Bool
  /-- The entry buck's 0.3 V margin over STORE is met (R45). -/
  marginOk : Bool
  /-- STORE has reached its target and not yet fallen 50 mV below it (R59). -/
  storeFull : Bool
  /-- STORE is below 1.00 V: the 50 mA limit applies (R49). -/
  precharge : Bool
  /-- STORE is at or above 3.0 V (R56). -/
  store3v : Bool
  /-- The cold starter charges STORE (R53). -/
  coldStarter : Bool
  /-- HARV_VOC in mV (R50), the regulation point in mV and pass-through (R51). -/
  harvVoc : BitVec 13
  harvPoint : BitVec 16
  pass : Bool
  /-- ENT_SRC.CELL_P (R55). -/
  cellP : Bool
  /-- The mains path (R37 to R41). -/
  flyback : Flyback
  lineCap : Bool
  /-- The backup island is fed from CELL (R54). -/
  islandOnCell : Bool
  /-- VOUT3_CTL.MODE, the mode in force and VOUT3_PG (R63; RAIL_STAT). -/
  vout3Ctl : BitVec 2
  vout3 : VoutMode
  vout3Pg : Bool
  /-- RAIL_STAT.VCORE_SET (R61, R87). -/
  vcoreSet : BitVec 7
  cfg : EntryCfg
  deriving DecidableEq, Repr

def Energy.reset : Energy :=
  { hvQ := false, vehQ := false, harvQ := false, sel := .none, hold := false, selDead := false, stat := 0, swcnt := 0,
    vehOv := false, hvOv := false, storeOv := false, overTemp := false, cellOv := false, marginOk := false,
    storeFull := false, precharge := true, store3v := false, coldStarter := false, harvVoc := 0, harvPoint := 0,
    pass := false, cellP := false, flyback := .off, lineCap := false, islandOnCell := false, vout3Ctl := 0,
    vout3 := .off, vout3Pg := false, vcoreSet := 0x2A, cfg := EntryCfg.startup }

/-- A hold or a deferred request of the Porter (R77, R82): class, requester, cost in 1/1024 nJ, age in ticks. -/
structure Claim where
  cls : BitVec 3
  req : Requester
  cost : Nat
  age : Nat
  deriving DecidableEq, Repr

/-- Policies of a permit class (PCLSn.POLICY, R73). -/
inductive Policy where
  | defer | deny | force | off
  deriving DecidableEq, Repr

/-- The Porter's loaded settings (03_porter.md, register reference). -/
structure PorterCfg where
  /-- LG_RES in uJ. -/
  lgRes : BitVec 16
  /-- CORR_CFG.PERIOD and CORR_CFG.MV. -/
  corrPeriod : BitVec 2
  corrMv : BitVec 3
  /-- STORE_C in mF. -/
  storeC : BitVec 16
  vcFloor : BitVec 7
  vcTop : BitVec 7
  vcKhi : BitVec 16
  vcKlo : BitVec 16
  /-- PCLS0 to PCLS7 as loaded. -/
  pcls : Vector (BitVec 10) 8
  /-- PCOST0 to PCOST7. -/
  pcost : Vector (BitVec 16) 8
  deriving DecidableEq, Repr

/-- Settings before an image is loaded: no class may start anything (policy OFF), P7 FORCE. -/
def PorterCfg.startup : PorterCfg :=
  { lgRes := 0, corrPeriod := 0, corrMv := 0, storeC := 0, vcFloor := 0x2A, vcTop := 0x2A, vcKhi := 0, vcKlo := 0,
    pcls := #v[3, 3, 3, 3, 3, 3, 3, 2], pcost := Vector.replicate 8 0 }

/-- The Porter (03_porter.md). Energies are in units of 1/1024 nJ. -/
structure Porter where
  /-- The ledger with its 10-bit fraction (R27, R69). -/
  ledger : Nat
  /-- Captured LEDG_HI, LEDG_FRAC and AVAIL_HI (R95). -/
  ledgHiCap : BitVec 16
  ledgFracCap : BitVec 10
  availHiCap : BitVec 16
  /-- Holds, oldest first, and deferred requests in order of arrival (R77, R80, R82). -/
  holds : List Claim
  deferred : List Claim
  /-- Unused reservations of the running course, by class (R84). -/
  resv : Vector Nat 8
  /-- Answers on their way to their requesters, in order (R77, R79). -/
  answers : List (BitVec 3 × Requester × Answer)
  /-- PSTAT. -/
  armed : Bool
  lgActive : Bool
  drift : Bool
  driftDir : Bool
  corrSkip : Bool
  cntFault : Bool
  tjHi : Bool
  cfgBad : Bool
  /-- Counting has stopped for good (R72). -/
  counterDead : Bool
  /-- CORR_LAST, CORR_CNT. -/
  corrLast : BitVec 16
  corrUp : BitVec 8
  corrDown : BitVec 8
  /-- Same-direction corrections in the run, and periods without a quiet sample in a row (R71). -/
  runLen : Nat
  runUp : Bool
  skipRun : Nat
  /-- Quiet STORE sample since the latest correction and the latest STORE sample, in 100 uV (R70, R72). -/
  quiet : Option (BitVec 16)
  lastSample : BitVec 16
  /-- Latest charge totals the Porter received (R505). -/
  qinSeen : BitVec 32
  qoutSeen : BitVec 32
  /-- PDENY_CNT, PDEFER_CNT, PLAST, PTO_CNT. -/
  denyCnt : BitVec 16
  deferCnt : BitVec 16
  lastClass : BitVec 3
  lastReason : BitVec 3
  lastReq : BitVec 3
  resShort : BitVec 8
  holdTo : BitVec 8
  cfg : PorterCfg
  deriving DecidableEq, Repr

def Porter.reset : Porter :=
  { ledger := 0, ledgHiCap := 0, ledgFracCap := 0, availHiCap := 0, holds := [], deferred := [],
    resv := Vector.replicate 8 0, answers := [], armed := false, lgActive := false, drift := false, driftDir := false,
    corrSkip := false, cntFault := false, tjHi := false, cfgBad := false, counterDead := false, corrLast := 0,
    corrUp := 0, corrDown := 0, runLen := 0, runUp := false, skipRun := 0, quiet := none, lastSample := 0,
    qinSeen := 0, qoutSeen := 0, denyCnt := 0, deferCnt := 0, lastClass := 0, lastReason := 0, lastReq := 0,
    resShort := 0, holdTo := 0, cfg := PorterCfg.startup }

/-- Sleep states (R96). -/
inductive Sleep where
  | latched | shuttered | barred | sealed
  deriving DecidableEq, Repr

/-- Which start is under way (R127). -/
inductive StartKind where
  | cold | brown | sealed
  deriving DecidableEq, Repr

/-- Where the part stands among its power states (R96, R98, R99, R114 to R124, R184). -/
inductive Phase where
  /-- The Derzor domain is unpowered (dead store, or after a brownout). -/
  | off
  /-- STORE reached 2.50 V; VKEY and VCORE rise. -/
  | starting
  /-- Power good: the boot ROM works. -/
  | boot
  /-- No slot passed (R184). -/
  | noImage
  /-- OPEN or AJAR (R98). -/
  | awake
  /-- Entry to a sleep state before its point of no return. -/
  | entering (t : Sleep)
  | asleep (t : Sleep)
  /-- A source fired in LATCHED, SHUTTERED or BARRED; `granted`: leave has come (always in LATCHED, R120). -/
  | waking (t : Sleep) (granted : Bool)
  deriving DecidableEq, Repr

/-- The power-state block in the Keystone (04_power_states.md). -/
structure Power where
  phase : Phase
  startKind : StartKind
  /-- PWR_STATE.LAST and ASH_RLD. -/
  last : BitVec 3
  ashRld : Bool
  /-- SLP_NEXT, SLP_BANKS. -/
  slpTarget : BitVec 3
  slpNoTick : Bool
  slpValid : Bool
  slpBanks : BitVec 12
  /-- The entry under way was begun with NO_TICK (R106). -/
  entryNoTick : Bool
  /-- Ticks since the entry's Vault drain began (R114 step 3). -/
  drainTicks : Nat
  /-- The drain bound of this entry has ended (R115). -/
  drainOver : Bool
  /-- WAKE_SRC, WAKE_LOST and the sources latched in the wake router (R103). -/
  wakeSrc : BitVec 12
  wakeLost : BitVec 12
  latched : BitVec 12
  /-- WAKE_EN as loaded. -/
  wakeEn : BitVec 12
  /-- The tick at which TICK fires (R106). -/
  wakeTick : Option (BitVec 48)
  /-- Tick at which the latest sleep state was reached, and SLP_TICKS with its capture. -/
  sleptAt : BitVec 48
  slpTicks : BitVec 32
  slpTicksHiCap : BitVec 16
  /-- SLP_STAT. -/
  refused : Bool
  why : BitVec 2
  abandon : Bool
  qlost : Bool
  mboxLost : Bool
  deriving DecidableEq, Repr

def Power.reset : Power :=
  { phase := .off, startKind := .cold, last := 1, ashRld := false, slpTarget := 1, slpNoTick := false, slpValid := false,
    slpBanks := 0, entryNoTick := false, drainTicks := 0, drainOver := false, wakeSrc := 0, wakeLost := 0, latched := 0,
    wakeEn := 0, wakeTick := none, sleptAt := 0, slpTicks := 0, slpTicksHiCap := 0, refused := false, why := 0,
    abandon := false, qlost := false, mboxLost := false }

/-- What the backup island holds besides the calendar (R66, R117, R124, R127, R128). -/
structure Island where
  /-- ENT_STAT.BROWN. -/
  brown : Bool
  /-- RST_CAUSE. -/
  rstCause : BitVec 3
  /-- SEAL_REC.REASON, PEND; the digest with its slot. -/
  sealReason : BitVec 2
  sealPend : Bool
  digest : Option (BitVec 32)
  sealSlot : Bool
  /-- Copies of the WAKE_EN bits and WAKE-land modes (R117 step 7). -/
  en : BitVec 12
  mode0 : BitVec 2
  mode1 : BitVec 2
  /-- Sources that fired in SEALED, held for WAKE_SRC (R124). -/
  fired : BitVec 12
  deriving DecidableEq, Repr

def Island.reset : Island :=
  { brown := false, rstCause := 0, sealReason := 0, sealPend := false, digest := none, sealSlot := false, en := 0,
    mode0 := 0, mode1 := 0, fired := 0 }

/-- One window of a course (R142, R151): absent, or open and close offsets in us (`none`: at the course end). -/
structure Window where
  never : Bool
  openUs : BitVec 16
  closeUs : Option (BitVec 16)
  deriving DecidableEq, Repr

/-- A course of the course table (R142). -/
structure CourseDef where
  event : Bool
  line : BitVec 6
  rising : Bool
  falling : Bool
  period : BitVec 16
  phase : BitVec 16
  bound : BitVec 16
  tail : BitVec 16
  tasksA : List (BitVec 16)
  tasksB : List (BitVec 16)
  sleep : BitVec 3
  noTick : Bool
  banks : BitVec 12
  ashShare : BitVec 16
  resv : Vector (BitVec 8) 8
  mortSet : BitVec 64
  mortClr : BitVec 64
  winVault : Window
  winTouch : Window
  winPane : Window
  deriving DecidableEq, Repr

/-- Kinds of contract record (R158). -/
inductive RecKind where
  | overrun | skip | stall
  deriving DecidableEq, Repr

/-- A contract record (R158); flags RC, TJHI, DEFER, TIMEUP, HALT, SHORT from bit 0. -/
structure ContractRec where
  course : BitVec 6
  kind : RecKind
  flags : BitVec 6
  stamp : BitVec 32
  meas : BitVec 16
  deriving DecidableEq, Repr

/-- A pending occurrence: course, tick and microseconds at which it fell due (R144). -/
structure Occurrence where
  course : BitVec 6
  tick : BitVec 48
  us : BitVec 10
  deriving DecidableEq, Repr

/-- The tick and the course engine (05_time_without_clock.md). -/
structure CourseEngine where
  /-- TICK_2:TICK_1:TICK_0 and the microseconds since the boundary (R140, R141). -/
  tick : BitVec 48
  subtick : BitVec 10
  tick1Cap : BitVec 16
  tick2Cap : BitVec 16
  subCap : BitVec 10
  /-- TICKSRC.SRC = RC, and a declared crystal that takes over at the next boundary (R137). -/
  onRc : Bool
  xtalReady : Bool
  /-- Latest trim of the RC (R139), in ticks since. -/
  trimAge : BitVec 6
  epoch : BitVec 48
  /-- The course to start before every pending one (R122, R143), and whether its start sets the epoch. -/
  forced : Option (BitVec 6)
  newEpoch : Bool
  pend : List Occurrence
  running : Bool
  now : BitVec 6
  timeUp : Bool
  startTick : BitVec 48
  startUs : BitVec 10
  lastDur : BitVec 16
  /-- Flags of the running course, as in a record. -/
  flags : BitVec 6
  stallDone : Bool
  tasksA : List (BitVec 16)
  tasksB : List (BitVec 16)
  endedA : Bool
  endedB : Bool
  winVault : Bool
  winTouch : Bool
  winPane : Bool
  /-- CRS_STAT OVERRUN, SKIP, STALL, REC_LOST, CFG_BAD from bit 0. -/
  stat : BitVec 5
  ovrCnt : BitVec 16
  skipCnt : BitVec 16
  lateCnt : BitVec 16
  sleptCnt : BitVec 16
  tuCnt : BitVec 16
  lateMax : BitVec 16
  recs : List ContractRec
  /-- CRS_CFG, stall doors, WAKE_MODE, the wake map and the course table. -/
  corner : BitVec 2
  stallTicks : BitVec 8
  doorA : BitVec 16
  doorB : BitVec 16
  wakeMode0 : BitVec 2
  wakeMode1 : BitVec 2
  wakeMap : List (BitVec 8)
  table : List CourseDef
  deriving DecidableEq, Repr

def CourseEngine.reset : CourseEngine :=
  { tick := 0, subtick := 0, tick1Cap := 0, tick2Cap := 0, subCap := 0, onRc := true, xtalReady := false, trimAge := 0,
    epoch := 0, forced := none, newEpoch := false, pend := [], running := false, now := 0, timeUp := false, startTick := 0,
    startUs := 0, lastDur := 0, flags := 0, stallDone := false, tasksA := [], tasksB := [], endedA := true, endedB := true,
    winVault := false, winTouch := false, winPane := false, stat := 0, ovrCnt := 0, skipCnt := 0, lateCnt := 0,
    sleptCnt := 0, tuCnt := 0, lateMax := 0, recs := [], corner := 1, stallTicks := 0, doorA := 0, doorB := 0,
    wakeMode0 := 0, wakeMode1 := 0, wakeMap := [], table := [] }

/-- STATE of a slot state record (R180). -/
inductive SlotSt where
  | empty | writing | staged | active | failed | standby
  deriving DecidableEq, Repr

/-- A slot of the structure store (R179, R180): code region and structure region (unlisted bytes read 0xFF), and the
fields of its slot state record (`writes = none`: unknown). -/
structure Slot where
  code : Bytes
  str : Bytes
  st : SlotSt
  fails : BitVec 8
  seq : BitVec 32
  writes : Option (BitVec 16)
  reason : BitVec 3
  deriving DecidableEq, Repr

def Slot.shipped : Slot := { code := [], str := [], st := .empty, fails := 0, seq := 0, writes := some 0, reason := 0 }

/-- An open session of the store service (R187, R189). -/
structure Session where
  port : PortId
  slot : Bool
  len : Nat
  next : Nat
  deriving DecidableEq, Repr

/-- A service message placed in an in half, waiting for the store service (R189). -/
structure SvcMsg where
  port : PortId
  opcode : BitVec 8
  tag : BitVec 8
  payload : List Byte
  deriving DecidableEq, Repr

/-- The structure store, its service and the boot ROM's progress (06_structure_image.md). -/
structure Store where
  slot0 : Slot
  slot1 : Slot
  /-- The slot the part runs from (R583). -/
  active : Option Bool
  sess : Option Session
  /-- Messages waiting for the service, oldest first; replies waiting for their out half (R189, R395). -/
  svc : List SvcMsg
  replies : List SvcMsg
  /-- The boot in progress: digest reload first (R124); slots still to try, in order (R181); a failure so far. -/
  reload : Bool
  order : List Bool
  tried : Bool
  /-- IMG_STAT fields (FALLBACK, SWAPPED, FAIL_REASON, FAIL_SLOT, SELF_SIGNED, ENC), IMG_BUILD, IMG_SECVER. -/
  fallback : Bool
  swapped : Bool
  failReason : BitVec 3
  failSlot : Bool
  selfSigned : Bool
  enc : Bool
  build : BitVec 64
  secVer : BitVec 32
  /-- The digest held for step 7 of R117 (R182 step 5, R186). -/
  digest : Option (BitVec 32)
  /-- UPD_CFG.PORTS. -/
  updPorts : BitVec 3
  deriving DecidableEq, Repr

def Store.reset : Store :=
  { slot0 := Slot.shipped, slot1 := Slot.shipped, active := none, sess := none, svc := [], replies := [], reload := false,
    order := [], tried := false, fallback := false, swapped := false, failReason := 0, failSlot := false,
    selfSigned := false, enc := false, build := 0, secVer := 0, digest := none, updPorts := 0 }

/-- The state a core was halted or frozen from (R213, R540). -/
inductive CoreFrom where
  | idle | running | waiting (mask : BitVec 13) | asking
  deriving DecidableEq, Repr

/-- States of a core (R213). -/
inductive CoreSt where
  | idle | running | waiting (mask : BitVec 13) | asking
  | halted (origin : CoreFrom)
  | frozen (halted : Bool)
  | off
  deriving DecidableEq, Repr

/-- Where an arithmetic result goes (R261). -/
inductive AuDst where
  | ml (v : BitVec 16) | mh (v : BitVec 16) | acc (v : BitVec 32) | qtrm (q r : BitVec 16) | fr (v : BitVec 16)
  | flags (z n c v : Bool)
  deriving DecidableEq, Repr

/-- A result in flight (R260): issue number, slots left, destination, binary16 flags, IDZ, IOV, and whether the
iterative stage makes it (R268). -/
structure AuRes where
  seq : Nat
  left : Nat
  dst : AuDst
  ff : BitVec 5
  idz : Bool
  iov : Bool
  iter : Bool
  deriving DecidableEq, Repr

/-- An FFMA whose accumulator hangs on an iterative operation that may still be abandoned (R248). -/
structure FmaLink where
  seq : Nat
  x : BitVec 16
  y : BitVec 16
  mode : BitVec 2
  deriving DecidableEq, Repr

/-- A core's arithmetic unit (09_arithmetic_unit.md). -/
structure Au where
  flight : List AuRes
  /-- Issue numbers of the instructions whose results the registers hold (R264). -/
  seqMh : Nat
  seqMl : Nat
  seqFr : Nat
  seqQr : Nat
  /-- The accumulator of MAC and MACU, in program order (R248). -/
  acc : BitVec 32
  /-- The accumulator of FFMA, in program order (R248); whether it hangs on the FDIV or FSQRT in flight; that operation with the
  accumulator before it; and the FFMAs since whose accumulator hangs on it, oldest first. -/
  frAcc : BitVec 16
  frHang : Bool
  frIter : Option (Nat × BitVec 16)
  frLinks : List FmaLink
  /-- AU_CFG.RM, FTZ; AU_STAT.IDZ, IOV, ABN; AU_ABN. -/
  rm : BitVec 2
  ftz : Bool
  idz : Bool
  iov : Bool
  abn : Bool
  abnCnt : BitVec 16
  deriving DecidableEq, Repr

def Au.reset : Au :=
  { flight := [], seqMh := 0, seqMl := 0, seqFr := 0, seqQr := 0, acc := 0, frAcc := 0, frHang := false, frIter := none, frLinks := [],
    rm := 0, ftz := false, idz := false, iov := false, abn := false, abnCnt := 0 }

/-- An access a core waits for: a Derzor-side read for Kd (R296), or a gather (R254). -/
inductive Busy where
  | read (d : Reg) (addr : BitVec 12) (ahead : Nat)
  | snap (d : Reg) (list : BitVec 16) (ahead : Nat)
  deriving DecidableEq, Repr

/-- A core (07_core_model.md, 08_instruction_set.md). -/
structure Core where
  k : Vector (BitVec 16) 16
  z : Bool
  n : Bool
  c : Bool
  v : Bool
  mh : BitVec 16
  ml : BitVec 16
  qt : BitVec 16
  rm : BitVec 16
  fr : BitVec 16
  ff : BitVec 5
  ev : BitVec 16
  /-- PG[7:0]; PG.PEND is live (R226). -/
  pg : BitVec 8
  pc : BitVec 16
  /-- A transfer whose delay slot comes next: `some (some t)` taken, `some none` not taken (R214). -/
  xfer : Option (Option (BitVec 16))
  /-- The pending transfer has pushed a return address, which grows by one with the slot's extension word (R216). -/
  call : Bool
  st : CoreSt
  busy : Option Busy
  /-- The return stack (R221). -/
  rs : Vector (BitVec 16) 8
  rsP : Fin 8
  rsD : Nat
  rsWrapped : Bool
  rsUnder : Bool
  /-- View and permit latches, bits 0 to 12 as EV, and the overflow latch (R223). -/
  lat : BitVec 13
  ovf : Bool
  /-- Listed and unlisted latches set while a WAITEV waits (R225). -/
  hit : BitVec 13
  /-- Trap records (R228). -/
  trapPc : BitVec 16
  trapNext : BitVec 16
  trapCause : BitVec 4
  trapDetail : BitVec 4
  trapSpace : BitVec 2
  trapAddr : BitVec 16
  trapActive : Bool
  trapNest : Bool
  trapDs : Bool
  trapCnt : BitVec 16
  /-- Fetch counter and its captured high word (R219, R543). -/
  fcnt : BitVec 32
  fcntHiCap : BitVec 16
  /-- Instructions issued: issue numbers of R264. -/
  issued : Nat
  /-- A HALT waits for its point (R540); one instruction is being stepped. -/
  haltReq : Bool
  stepping : Bool
  /-- Schedule-check mode (R280, R542). -/
  sched : Bool
  au : Au
  /-- OPTIONS: RSTACK = TRAP, IO_TRAP, trap door (R195). -/
  rsTrap : Bool
  ioTrap : Bool
  door : BitVec 16
  deriving DecidableEq, Repr

def Core.reset : Core :=
  { k := Vector.replicate 16 0, z := false, n := false, c := false, v := false, mh := 0, ml := 0, qt := 0, rm := 0,
    fr := 0, ff := 0, ev := 0, pg := 0, pc := 0, xfer := none, call := false, st := .idle, busy := none, rs := Vector.replicate 8 0,
    rsP := 0, rsD := 0, rsWrapped := false, rsUnder := false, lat := 0, ovf := false, hit := 0, trapPc := 0,
    trapNext := 0, trapCause := 0, trapDetail := 0, trapSpace := 3, trapAddr := 0, trapActive := false,
    trapNest := false, trapDs := false, trapCnt := 0, fcnt := 0, fcntHiCap := 0, issued := 0, haltReq := false,
    stepping := false, sched := false, au := Au.reset, rsTrap := false, ioTrap := false, door := 0 }

/-- Bit errors an SRAM word holds (R284): one, two, or more flipped bits. -/
inductive EccErr where
  | single | double | many
  deriving DecidableEq, Repr

/-- The record of the latest SNAP fault of a core (R304; SNAP_FLT). -/
structure SnapFlt where
  index : BitVec 4
  reason : BitVec 3
  set : Bool
  unit : BitVec 4
  kind : BitVec 2
  addr : BitVec 16
  deriving DecidableEq, Repr

def SnapFlt.none : SnapFlt := { index := 0, reason := 0, set := false, unit := 0, kind := 0, addr := 0 }

/-- SRAM and mailbox halves (R282) with the SRAM error registers (R284 to R286) and the windows' selectors (R293). -/
structure Memory where
  /-- Bytes of d:0x0000-0xCFFF and d:0xF000-0xFFFF, canonical; an unlisted byte reads 0x00. -/
  bytes : Bytes
  /-- Words that hold bit errors, by even address. -/
  errs : List (Nat × EccErr)
  ce : Bool
  ue : Bool
  ueSrc : BitVec 2
  eccAddr : BitVec 16
  ceCnt : BitVec 16
  snapA : SnapFlt
  snapB : SnapFlt
  ashWinA : BitVec 2
  ashWinB : BitVec 2
  vaultWinA : BitVec 10
  vaultWinB : BitVec 10
  deriving DecidableEq, Repr

def Memory.reset : Memory :=
  { bytes := [], errs := [], ce := false, ue := false, ueSrc := 0, eccAddr := 0, ceCnt := 0, snapA := SnapFlt.none,
    snapB := SnapFlt.none, ashWinA := 0, ashWinB := 0, vaultWinA := 0, vaultWinB := 0 }

/-- A posted write (R295): address, whole-word data, or one bit and its value. -/
inductive PostData where
  | word (v : BitVec 16) | bit (n : BitVec 4) (v : Bool)
  deriving DecidableEq, Repr

structure Posted where
  addr : BitVec 12
  data : PostData
  who : Who
  deriving DecidableEq, Repr

/-- A late-fault entry (R298). -/
structure LateFault where
  addr : BitVec 12
  outcome : BitVec 3
  bitw : Bool
  data : BitVec 16
  stamp : BitVec 14
  who : BitVec 2
  deriving DecidableEq, Repr

/-- A charge count on the keystone lane (R505). -/
structure CountMsg where
  qin : BitVec 32
  qout : BitVec 32
  mv : BitVec 16
  sat : Bool
  deriving DecidableEq, Repr

/-- A message on its way to the Porter (R77, R81, R82): a request with its cost, a withdrawal, an end notice. -/
inductive LaneMsg where
  | ask (cls : BitVec 3) (req : Requester) (cost : Nat)
  | withdraw (cls : BitVec 3) (req : Requester)
  | fin (cls : BitVec 3) (req : Requester)
  deriving DecidableEq, Repr

/-- The Tie (R294 to R299). -/
structure Tie where
  /-- Post buffer, oldest first, at most 8. -/
  post : List Posted
  /-- Late-fault queue, oldest first, at most 8, and TIE_STAT.LOST. -/
  lf : List LateFault
  lost : Bool
  kfail : BitVec 16
  /-- Messages on their way to the Porter, in order of arrival (R78), and the latest count on its way (R505). -/
  lane : List LaneMsg
  count : Option CountMsg
  deriving DecidableEq, Repr

def Tie.reset : Tie := { post := [], lf := [], lost := false, kfail := 0, lane := [], count := none }

/-- The Mortar (11_mortar.md). -/
structure Mortar where
  /-- Soft latches (R311), held pulse sources (R313), cell outputs, cell latches, latest lookups, line levels (R307). -/
  soft : BitVec 64
  pulses : List (BitVec 8)
  out : BitVec 32
  lat : BitVec 32
  look : BitVec 32
  line : BitVec 64
  /-- Running delays: cell and the lookup value it waits for (R317). -/
  wait : List (BitVec 5 × Bool)
  /-- MRT_OFF, MRT_STAT, MRT_CAL. -/
  off : BitVec 32
  calStale : Bool
  cfgBad : Bool
  /-- The loaded settings had a field fault (CFG_BAD is set again at wakes, R322). -/
  cfgFault : Bool
  wr0Abn : Bool
  wr1Abn : Bool
  cal : BitVec 12
  /-- Count of the latest good tick since the setpoint last changed, and whether it changed in this tick (R319). -/
  calMeas : Option (BitVec 12)
  calDirty : Bool
  cfg : MortarCfg
  deriving DecidableEq, Repr

def Mortar.reset : Mortar :=
  { soft := 0, pulses := [], out := 0, lat := 0, look := 0, line := 0, wait := [], off := 0, calStale := true, cfgBad := false,
    cfgFault := false, wr0Abn := false, wr1Abn := false, cal := Config.builtinCal, calMeas := none, calDirty := false,
    cfg := MortarCfg.absent }

/-- An Ashlar entry (R329); `parity` is false when the stored parity bit disagrees with the rest. -/
structure AshEntry where
  key : BitVec 48
  data : BitVec 16
  prio : BitVec 8
  tag : BitVec 4
  valid : Bool
  parity : Bool
  deriving DecidableEq, Repr

/-- An entry that no item names (R194). -/
def AshEntry.blank : AshEntry := { key := 0, data := 0, prio := 0, tag := 0, valid := false, parity := true }

/-- A channel-1 operation under way (R338, R339): a search with the key, masks and order it was given, or a step. -/
inductive AshOp where
  | search (key mask : BitVec 48) (pfv pfm : BitVec 4) (physical : Bool)
  | step
  deriving DecidableEq, Repr

/-- Standing of a request for leave of an engine (R77, R83). -/
inductive Leave where
  | none | asked | granted | denied
  deriving DecidableEq, Repr

/-- A core's search set, stage and commit (R331, R332, R337 to R339, R357). -/
structure AshSet where
  key : BitVec 48
  mask : BitVec 48
  pfv : BitVec 4
  pfm : BitVec 4
  order : Bool
  count : BitVec 4
  multi : Bool
  st : BitVec 3
  stale : Bool
  rep : Bool
  idx : BitVec 10
  noMatch : Bool
  data : BitVec 16
  prio : BitVec 8
  op : Option AshOp
  /-- Leave for that search (R341). -/
  leave : Leave
  /-- The latched set of matches still ahead, in the search's order (R338), and entries committed since. -/
  ahead : List (BitVec 10)
  committed : List (BitVec 10)
  stage : AshEntry
  staged : Bool
  target : BitVec 10
  cst : BitVec 3
  commit : Option (BitVec 10 × AshEntry)
  deriving DecidableEq, Repr

def AshSet.reset : AshSet :=
  { key := 0, mask := 0, pfv := 0, pfm := 0, order := false, count := 0, multi := false, st := 0, stale := false, rep := false,
    idx := 0, noMatch := true, data := 0, prio := 0, op := none, leave := .none, ahead := [], committed := [], stage := AshEntry.blank,
    staged := false, target := 0, cst := 0, commit := none }

/-- Where channel 0 stands with the frame in hand (R341, R345). -/
inductive Ch0 where
  | idle
  | waiting (f : CanFrame) (pass2 : Bool)
  | leave (f : CanFrame) (pass2 : Bool)
  deriving DecidableEq, Repr

/-- The Ashlar (12_ashlar.md). -/
structure Ashlar where
  /-- Entries that differ from a blank one, by index. -/
  entries : List (Nat × AshEntry)
  /-- Entries as the ASHLAR section gives them (R113). -/
  image : List (Nat × AshEntry)
  setA : AshSet
  setB : AshSet
  ch0 : Ch0
  /-- Banks whose self-test of the latest wake or start still runs; banks whose latest self-test failed (R353). -/
  testing : BitVec 16
  testFail : BitVec 16
  cfgBad : Bool
  fenced : Bool
  rep : Bool
  fence : BitVec 16
  fcnt : BitVec 16
  frecIndex : BitVec 10
  frecCause : BitVec 2
  frecBank : BitVec 4
  nolv : BitVec 16
  share : BitVec 16
  scrPtr : BitVec 10
  scrubLeft : BitVec 8
  /-- CH0_BANKS, CH1_BANKS, NOMATCH, SCRUB and channel 0's settings. -/
  ch0Banks : BitVec 16
  ch1Banks : BitVec 16
  nomat : BitVec 16
  scrub : BitVec 8
  c0m1 : BitVec 48
  c0m2 : BitVec 48
  c0sel : BitVec 2
  c0pass2 : Bool
  deriving DecidableEq, Repr

def Ashlar.reset : Ashlar :=
  { entries := [], image := [], setA := AshSet.reset, setB := AshSet.reset, ch0 := .idle, testing := 0, testFail := 0,
    cfgBad := false, fenced := false, rep := false, fence := 0, fcnt := 0, frecIndex := 0, frecCause := 0, frecBank := 0,
    nolv := 0, share := 0, scrPtr := 0, scrubLeft := 0, ch0Banks := 0, ch1Banks := 0, nomat := 0, scrub := 0, c0m1 := 0,
    c0m2 := 0, c0sel := 0, c0pass2 := false }

/-- A record in the Vault queue (R362, R365): sequence number, bytes, tick of acceptance, whether its body is still
being copied (R366) or its MAC still awaited (R527), and the program it has been given to. -/
structure VRec where
  seq : BitVec 32
  bytes : List Byte
  tick : BitVec 48
  copying : Bool
  unsealed : Bool
  prog : Option Nat
  deriving DecidableEq, Repr

/-- What a page program writes (R367, R369, R359). -/
inductive ProgKind where
  | page (p : BitVec 14)
  | replace (p : BitVec 14) (spare : Nat)
  | table (second : Bool)
  deriving DecidableEq, Repr

/-- A page program in flight. -/
structure Prog where
  id : Nat
  kind : ProgKind
  bytes : List Byte
  firstSeq : BitVec 32
  recs : Nat
  cls : BitVec 3
  deriving DecidableEq, Repr

/-- A failed program waiting for its re-placement (R369). -/
structure Replace where
  id : Nat
  page : BitVec 14
  spare : Nat
  bytes : List Byte
  firstSeq : BitVec 32
  recs : Nat
  deriving DecidableEq, Repr

/-- The retirement table (R359): moved pages with their spares, bad pages, failed spares, head. -/
structure Retire where
  moved : List (BitVec 14 × Nat)
  bad : List (BitVec 14)
  failed : List Nat
  head : BitVec 14
  version : Nat
  deriving DecidableEq, Repr

def Retire.shipped : Retire := { moved := [], bad := [], failed := [], head := 0, version := 0 }

/-- Causes of a gap (R361). -/
inductive GapCause where
  | shed | drain | entry | mount | full
  deriving DecidableEq, Repr

/-- A pending gap (R372). -/
structure Gap where
  cause : GapCause
  lost : Nat
  streams : BitVec 16
  seqRef : BitVec 32
  first : BitVec 32
  last : BitVec 32
  deriving DecidableEq, Repr

/-- A Vault late fault (R369). -/
structure VaultFault where
  page : BitVec 14
  hole : Bool
  spare : BitVec 16
  seq : BitVec 32
  count : BitVec 8
  deriving DecidableEq, Repr

/-- An append set (R366, R382). -/
structure AppendSet where
  src : BitVec 16
  type : BitVec 7
  stream : BitVec 4
  st : BitVec 3
  why : BitVec 4
  seq : BitVec 32
  seqHiCap : BitVec 16
  len : Nat
  deriving DecidableEq, Repr

def AppendSet.reset : AppendSet := { src := 0, type := 0, stream := 0, st := 0, why := 0, seq := 0, seqHiCap := 0, len := 0 }

/-- A chain value or MAC the engine has to compute (R376, R377): record, and the message after the chain value. -/
structure MacJob where
  seq : BitVec 32
  seg : List (BitVec 32 × List Byte)
  head : List Byte
  gasp : Bool
  deriving DecidableEq, Repr

/-- Steps of the last-gasp flush (R380). -/
inductive GaspStep where
  | idle | queue | chain | gasp | done
  deriving DecidableEq, Repr

/-- The Vault (13_vault.md). -/
structure Vault where
  /-- The store: byte b of user page p at 256 p + b, of spare s at 256 (16384 + s) + b; an unlisted byte reads 0xFF. -/
  store : Bytes
  /-- The working retirement table and its two copies in S0 and S1, and table-copy programs still to make. -/
  tbl : Retire
  tbl0 : Retire
  tbl1 : Retire
  tblTodo : List Bool
  queue : List VRec
  flight : List Prog
  replaces : List Replace
  nextId : Nat
  leave : Leave
  /-- Programs started in this tick (PPT). -/
  started : Nat
  tail : BitVec 14
  /-- Under STOP, the tail has reached the head: no page is free (R359). -/
  brim : Bool
  seq : BitVec 32
  seqHiCap : BitVec 16
  mounting : Bool
  /-- VAULT_STAT.WEAR, LF_LOST, CFG_BAD; the late-fault queue. -/
  wear : BitVec 2
  lf : List VaultFault
  lfLost : Bool
  cfgBad : Bool
  gaps : List Gap
  /-- Time of the latest GAP record, in 1/16 us (R372). -/
  gapAt : Option Nat
  /-- The chain (R375, R376): value of the latest CHAIN record, records since, pages verified since, MACs to compute. -/
  chainVal : List Byte
  seg : List (BitVec 32 × List Byte)
  chainPages : Nat
  macs : List MacJob
  setA : AppendSet
  setB : AppendSet
  acc : BitVec 16
  shed : BitVec 16
  thinned : BitVec 16
  gapCnt : BitVec 16
  retry0 : BitVec 16
  retry1 : BitVec 16
  retry2 : BitVec 16
  retry3 : BitVec 16
  retry4 : BitVec 16
  ovwr : BitVec 16
  pgCnt : BitVec 16
  /-- Offers per thinnable stream while the queue stood at the mark (R373). -/
  thinCtr : Vector Nat 16
  /-- The flush-age bound made the first page count as queued (R367). -/
  aged : Bool
  gasp : GaspStep
  /-- Ledger (nJ), and STORE sample at step 1 of R91 (R361). -/
  gaspLedger : BitVec 32
  gaspMv : BitVec 16
  present : Bool
  cfg : VaultCfg
  deriving DecidableEq, Repr

def Vault.reset : Vault :=
  { store := [], tbl := Retire.shipped, tbl0 := Retire.shipped, tbl1 := Retire.shipped, tblTodo := [], queue := [], flight := [],
    replaces := [], nextId := 0, leave := .none, started := 0, tail := 0, brim := false, seq := 0, seqHiCap := 0, mounting := true, wear := 0,
    lf := [], lfLost := false, cfgBad := false, gaps := [], gapAt := none, chainVal := List.replicate 16 0, seg := [],
    chainPages := 0, macs := [], setA := AppendSet.reset, setB := AppendSet.reset, acc := 0, shed := 0, thinned := 0,
    gapCnt := 0, retry0 := 0, retry1 := 0, retry2 := 0, retry3 := 0, retry4 := 0, ovwr := 0, pgCnt := 0,
    thinCtr := Vector.replicate 16 0, aged := false, gasp := .idle, gaspLedger := 0, gaspMv := 0,
    present := false, cfg := VaultCfg.absent }

/-- A partner port S, Q or U (14_partner_ports.md). -/
structure PortSt where
  /-- Px_IN.HELD; Px_OUT.POSTED, SVC and REFUSED (R394, R395). -/
  held : Bool
  posted : Bool
  svc : Bool
  refused : Bool
  /-- The status record (R393): CODE, OPCODE, TAG, MORE; ERR. -/
  errCode : BitVec 8
  errOp : BitVec 8
  errTag : BitVec 8
  errMore : BitVec 8
  errSet : Bool
  disc : BitVec 16
  rxcnt : BitVec 16
  txcnt : BitVec 16
  errcnt : BitVec 16
  /-- Port U: bytes still to discard after a LENGTH rejection (R391). -/
  discLeft : Nat
  /-- Px_CFG and Px_BAUD as loaded; a PORTS field turned the port off (R411). -/
  cfg : BitVec 16
  baud : BitVec 16
  off : Bool
  deriving DecidableEq, Repr

/-- A port with nothing in it, at some settings. -/
def PortSt.fresh (cfg baud : BitVec 16) : PortSt :=
  { held := false, posted := false, svc := false, refused := false, errCode := 0, errOp := 0, errTag := 0, errMore := 0,
    errSet := false, disc := 0, rxcnt := 0, txcnt := 0, errcnt := 0, discLeft := 0, cfg := cfg, baud := baud, off := false }

/-- Fault confinement of port C (R401; PC_STAT.FSM). -/
inductive CanFsm where
  | integrating | active | passive | busOff
  deriving DecidableEq, Repr

/-- A response slot of port C (R406). -/
structure RespSlot where
  off : BitVec 7
  armed : Bool
  keep : Bool
  deriving DecidableEq, Repr

/-- A pending reply (R407): slot, the frame copied from the out half, whether leave has come, whether it is being sent. -/
structure RespJob where
  slot : BitVec 4
  frame : CanFrame
  granted : Bool
  sending : Bool
  deriving DecidableEq, Repr

/-- Port C (14_partner_ports.md). -/
structure PortC where
  fsm : CanFsm
  refBad : Bool
  /-- Bus-off recovery has been started under BOFF_HOLD (R401). -/
  recovering : Bool
  listen : Bool
  tec : BitVec 8
  rxe : BitVec 8
  inWr : BitVec 9
  inRd : BitVec 9
  ulSlot : BitVec 4
  ulCause : BitVec 3
  rxcnt : BitVec 16
  rxlost : BitVec 16
  noroom : BitVec 16
  slpdrop : BitVec 16
  sent : BitVec 16
  unsent : BitVec 16
  fdign : BitVec 16
  boffcnt : BitVec 16
  rs : Vector RespSlot 16
  job : Option RespJob
  /-- Accepted frames that channel 0 has still to search, at most four (R404). -/
  rxq : List CanFrame
  /-- PC_CFG, PC_BTN0, PC_BTN1, PC_BTD0, PC_BTD1, PC_RWIN as loaded; a PORTS field turned the port off (R411). -/
  cfg : BitVec 16
  btn0 : BitVec 16
  btn1 : BitVec 16
  btd0 : BitVec 16
  btd1 : BitVec 16
  rwin : BitVec 16
  off : Bool
  deriving DecidableEq, Repr

def PortC.reset : PortC :=
  { fsm := .integrating, refBad := false, recovering := false, listen := false, tec := 0, rxe := 0, inWr := 0, inRd := 0,
    ulSlot := 0, ulCause := 0, rxcnt := 0, rxlost := 0, noroom := 0, slpdrop := 0, sent := 0, unsent := 0, fdign := 0, boffcnt := 0,
    rs := Vector.replicate 16 { off := 0, armed := false, keep := false }, job := none, rxq := [], cfg := 0, btn0 := 0, btn1 := 0,
    btd0 := 0, btd1 := 0, rwin := 0, off := false }

/-- The partner ports (R384) and PT_STAT.CFG_BAD. -/
structure Ports where
  s : PortSt
  q : PortSt
  u : PortSt
  cfgBad : Bool
  deriving DecidableEq, Repr

/-- The recovery settings of R185, which hold before an image is loaded. -/
def Ports.recovery : Ports :=
  { s := PortSt.fresh 0x0001 0, q := PortSt.fresh 0x04A1 0, u := PortSt.fresh 0x0001 1152, cfgBad := false }

/-- The general pins (15_pins.md). Bit 16 g + n of a word stands for pin n of group PA, PB, PC (g = 0, 1, 2). -/
structure Pins where
  out : BitVec 48
  oe : BitVec 48
  /-- Levels that stand at the pads (R420). -/
  pad : BitVec 48
  /-- VIOA, VIOB, VIOC above their power-good thresholds (R414). -/
  vioOk : BitVec 3
  mapConf : BitVec 9
  mapMiss : BitVec 9
  cfgBad : Bool
  /-- PA0 to PA7 carry the recovery functions (R428). -/
  rcv : Bool
  /-- PINS items as loaded after R424: BYTE0 in the lowest bits. -/
  items : Vector (BitVec 32) 48
  deriving DecidableEq, Repr

def Pins.reset : Pins :=
  { out := 0, oe := 0, pad := 0, vioOk := 7, mapConf := 0, mapMiss := 0, cfgBad := false, rcv := true,
    items := Vector.replicate 48 0 }

/-- One self or mutual reading of a group (R438 to R441): baseline at the current frequency, the other frequencies'
stored baselines, the sum of the acquisition's readings, its latest delta, and its runs. -/
structure Reading where
  base : Int
  stored : Vector Int 8
  sum : Int
  raw : Int
  delta : Int
  touched : Bool
  on : Nat
  off : Nat
  neg : Nat
  /-- Time of the touch, in 1/16 us (R441). -/
  since : Nat
  deriving DecidableEq, Repr, Inhabited

def Reading.zero : Reading :=
  { base := 0, stored := Vector.replicate 8 0, sum := 0, raw := 0, delta := 0, touched := false, on := 0, off := 0, neg := 0, since := 0 }

/-- A touch group: acquisition frames made (16 when done), readings, suppression and film (R438, R446, R447). -/
structure TouchGroup where
  acq : Nat
  self : List Reading
  crossed : List Reading
  supp : Bool
  suppSince : Nat
  film : Bool
  filmOff : Nat
  deriving DecidableEq, Repr, Inhabited

def TouchGroup.empty : TouchGroup :=
  { acq := 0, self := [], crossed := [], supp := false, suppSince := 0, film := false, filmOff := 0 }

/-- The results that land at a frame's end (R437). -/
structure TouchResult where
  touch : BitVec 32
  grp : BitVec 12
  freq : BitVec 3
  noise : BitVec 12
  pts : Vector (BitVec 16 × BitVec 16) 8
  deltas : Vector (BitVec 16) 32
  /-- Mutual deltas by group, TX index and RX index. -/
  nodes : List (BitVec 10 × BitVec 16)
  deriving DecidableEq, Repr

def TouchResult.zero : TouchResult :=
  { touch := 0, grp := 0, freq := 0, noise := 0, pts := Vector.replicate 8 (0, 0), deltas := Vector.replicate 32 0, nodes := [] }

/-- The main touch scanner (16_touch.md). -/
structure Touch where
  groups : Vector TouchGroup 4
  chgForce : Bool
  /-- TCH_CTL.REACQ was written and takes effect at the next frame. -/
  reacq : Bool
  chg : Bool
  /-- Frames of hop hold left (R443), and whether the next frame is the first at a new frequency. -/
  hold : Nat
  hopped : Bool
  freq : BitVec 3
  cand : BitVec 3
  noise : BitVec 12
  latest : Vector (BitVec 12) 8
  hopRun : Nat
  chgRun : Nat
  quietRun : Nat
  nsel : BitVec 10
  frm : BitVec 16
  res : TouchResult
  cap : TouchResult
  skip : BitVec 16
  skipWhy : BitVec 2
  step : BitVec 2
  hopCnt : BitVec 16
  stkCnt : BitVec 16
  drop : BitVec 16
  cfgBad : Bool
  stuck : Bool
  hdNoRail : Bool
  /-- A frame is due and has not started (R435); leave for it (R436); a frame runs. -/
  pending : Bool
  leave : Leave
  running : Bool
  /-- The running frame holds leave in P3. -/
  held : Bool
  /-- A release by R441 waits to be reported with the next results. -/
  relPend : Bool
  /-- Since when nothing has been touched, suppressed or under a film, in 1/16 us (R449). -/
  quietSince : Nat
  cfg : TouchCfg
  deriving DecidableEq, Repr

def Touch.reset : Touch :=
  { groups := Vector.replicate 4 TouchGroup.empty, chgForce := false, reacq := false, chg := false, hold := 0, hopped := false,
    freq := 0, cand := 0, noise := 0, latest := Vector.replicate 8 0, hopRun := 0, chgRun := 0, quietRun := 0, nsel := 0, frm := 0,
    res := TouchResult.zero, cap := TouchResult.zero, skip := 0, skipWhy := 0, step := 0, hopCnt := 0, stkCnt := 0, drop := 0,
    cfgBad := false, stuck := false, hdNoRail := false, pending := false, leave := .none, running := false, held := false, relPend := false, quietSince := 0,
    cfg := TouchCfg.absent }

/-- A sentinel sensor (R451, R452): baselines at SFREQ_A and SFREQ_B (`none` before the first scan at one), touch. -/
structure SentSensor where
  baseA : Option Int
  baseB : Option Int
  negA : Nat
  touched : Bool
  qualified : Bool
  deriving DecidableEq, Repr

/-- Progress of a double tap (R453): first touch down, or released; with time in burst periods. -/
inductive TapSt where
  | none | down (t : Nat) | up (t : Nat)
  deriving DecidableEq, Repr

/-- The touch sentinel (R451 to R454). -/
structure Sentinel where
  gest : BitVec 2
  new : Bool
  burst : Bool
  supp : Bool
  sensors : List SentSensor
  /-- The next scan uses SFREQ_B. -/
  useB : Bool
  miss : Nat
  snoise : BitVec 16
  sdrop : BitVec 16
  due : Bool
  running : Bool
  tap : TapSt
  /-- Swipe progress: positions so far, latest first, direction up, time since the latest (R453). -/
  swipe : List Nat
  swipeT : Nat
  deriving DecidableEq, Repr

def Sentinel.reset : Sentinel :=
  { gest := 0, new := false, burst := false, supp := false, sensors := [], useB := false, miss := 0, snoise := 0, sdrop := 0,
    due := false, running := false, tap := .none, swipe := [], swipeT := 0 }

/-- States of the Pane (R476). -/
inductive PaneSt where
  | off | rise | clear | lit | down | fall | fault | disch
  deriving DecidableEq, Repr

/-- A frame that runs (R464, R467): clear or of the store, its polarity, and lines begun. -/
structure PaneFrame where
  clear : Bool
  negative : Bool
  line : Nat
  deriving DecidableEq, Repr

/-- The Pane (17_pane_display.md). -/
structure Pane where
  st : PaneSt
  /-- In RISE: the latest completed step of R472 (1 to 5). In FALL: of R473 (3 to 6). -/
  stepDone : Nat
  orderFault : Bool
  frail : BitVec 3
  fcause : BitVec 2
  stale : Bool
  cfgBad : Bool
  clrDone : BitVec 2
  frame : Option PaneFrame
  /-- Polarity of the next matrix frame (R464). -/
  negNext : Bool
  /-- The words the running frame has read for its latest row and common (R461). -/
  rowWords : List (BitVec 16)
  comWords : List (BitVec 16)
  /-- A frame has fallen due (R466), and leave for it. -/
  due : Bool
  leave : Leave
  /-- Comparators (R471). -/
  good : BitVec 7
  offs : BitVec 7
  frm : BitVec 16
  skip : BitVec 16
  skipWhy : BitVec 2
  page : BitVec 2
  lsSet : Vector (BitVec 8) 4
  lsEff : Vector (BitVec 8) 4
  lsMin : Vector (BitVec 8) 4
  /-- LS_HR.HEADROOM, OOR, and sinks out of regulation at any time in the running frame (R482). -/
  headroom : BitVec 4
  oor : BitVec 4
  oorFrame : BitVec 4
  /-- PX0 and PX1 as they reach the Pane (R468). -/
  freeze : Bool
  dark : Bool
  /-- The frame store, by word; a word not listed reads 0 (R459, R462). -/
  store : List (Nat × BitVec 16)
  cfg : PaneCfg
  deriving DecidableEq, Repr

def Pane.reset : Pane :=
  { st := .off, stepDone := 0, orderFault := false, frail := 0, fcause := 0, stale := false, cfgBad := false, clrDone := 0,
    frame := none, negNext := false, rowWords := [], comWords := [], due := false, leave := .none, good := 0, offs := 0x7F,
    frm := 0, skip := 0, skipWhy := 0, page := 0, lsSet := Vector.replicate 4 0, lsEff := Vector.replicate 4 0,
    lsMin := Vector.replicate 4 0, headroom := 0, oor := 0, oorFrame := 0, freeze := false, dark := false, store := [],
    cfg := PaneCfg.absent }

/-- State of a threshold (R502). -/
structure Thr where
  on : Bool
  beyond : Nat
  back : Nat
  deriving DecidableEq, Repr

/-- A burst that has not landed (R488): range, sequence count and tags of its shunt sample, the auxiliary entry, TEMP. -/
structure SillBurst where
  range : BitVec 3
  seq : BitVec 32
  settle : Bool
  resume : Bool
  shunt : Bool
  aux : Option Nat
  temp : Bool
  deriving DecidableEq, Repr

/-- The Sill's main-domain channels and the STORE charge counter in the Keystone (18_sill_afe.md). -/
structure Sill where
  cfgBad : Bool
  ovf : Bool
  cm : Bool
  miss : Bool
  run : Bool
  auto : Bool
  rangeCtl : BitVec 3
  /-- Queue of codes with tags, oldest first, at most 64 (R495), and SILL_SH_TAG. -/
  queue : List (BitVec 16 × BitVec 16)
  tagCap : BitVec 16
  lost : BitVec 16
  swcnt : BitVec 16
  misscnt : BitVec 16
  /-- Sequence count of the next shunt instant (R494). -/
  seq : BitVec 32
  rseq : BitVec 32
  rtick : BitVec 32
  rsub : BitVec 10
  rseqHiCap : BitVec 16
  rtickHiCap : BitVec 16
  rsubCap : BitVec 10
  /-- Range of the next sample and of the latest one, run of low samples (R496). -/
  range : BitVec 3
  lastRange : BitVec 3
  low : Nat
  /-- Tags the next sample will carry: RESUME, SETTLE. -/
  resume : Bool
  settle : Bool
  burst : Option SillBurst
  aux : Vector (BitVec 16) 8
  auxCnt : Vector (BitVec 12) 8
  auxNext : Nat
  auxT : Vector (BitVec 16) 8
  temp : BitVec 16
  tempValid : Bool
  /-- TEMP is still to convert in this tick (R500). -/
  tempDue : Bool
  thr : Vector Thr 8
  /-- STORE counter: SILL_ST_STAT, latest voltage, totals and captures (R504 to R506). -/
  sat : Bool
  fault : Bool
  mv : BitVec 16
  qin : BitVec 32
  qout : BitVec 32
  qinHiCap : BitVec 16
  qoutHiCap : BitVec 16
  cfg : SillCfg
  deriving DecidableEq, Repr

def Sill.reset : Sill :=
  { cfgBad := false, ovf := false, cm := false, miss := false, run := false, auto := false, rangeCtl := 0, queue := [], tagCap := 7,
    lost := 0, swcnt := 0, misscnt := 0, seq := 0, rseq := 0, rtick := 0, rsub := 0, rseqHiCap := 0, rtickHiCap := 0, rsubCap := 0,
    range := 0, lastRange := 0, low := 0, resume := true, settle := false, burst := none, aux := Vector.replicate 8 0,
    auxCnt := Vector.replicate 8 0, auxNext := 0, auxT := Vector.replicate 8 0, temp := 0, tempValid := false, tempDue := false,
    thr := Vector.replicate 8 { on := false, beyond := 0, back := 0 }, sat := false, fault := false, mv := 0, qin := 0, qout := 0,
    qinHiCap := 0, qoutHiCap := 0, cfg := SillCfg.absent }

/-- A calendar value (R509): year − 2000; the day of the week follows from the date. -/
structure CalTime where
  sub : BitVec 10
  sec : BitVec 6
  min : BitVec 6
  hour : BitVec 5
  day : BitVec 5
  mon : BitVec 4
  year : BitVec 8
  deriving DecidableEq, Repr

/-- 2000-01-01 00:00:00 and 0/1024 s (R517). -/
def CalTime.epoch : CalTime := { sub := 0, sec := 0, min := 0, hour := 0, day := 1, mon := 1, year := 0 }

/-- The calendar clock, alarm and backup bytes in the backup island (19_rtc.md). -/
structure Rtc where
  now : CalTime
  /-- CAL_TIME0, CAL_TIME1, CAL_DATE and CAL_YEAR as captured (R512). -/
  cap : CalTime
  /-- Cycles in the 32-cycle divider, 32-cycle steps made in the trim window, and the N in force (R510). -/
  div : Nat
  win : Nat
  trim : BitVec 11
  trimWin : BitVec 11
  set0 : BitVec 16
  set1 : BitVec 16
  set2 : BitVec 16
  set3 : BitVec 16
  set4 : BitVec 16
  almEn : Bool
  alm0 : BitVec 16
  alm1 : BitVec 16
  alm2 : BitVec 16
  amsk : BitVec 6
  alm : Bool
  bkp : Vector (BitVec 16) 8
  deriving DecidableEq, Repr

def Rtc.reset : Rtc :=
  { now := CalTime.epoch, cap := CalTime.epoch, div := 0, win := 0, trim := 0, trimWin := 0, set0 := 0, set1 := 0, set2 := 0,
    set3 := 0, set4 := 0, almEn := false, alm0 := 0, alm1 := 0, alm2 := 0, amsk := 0, alm := false, bkp := Vector.replicate 8 0 }

/-- Lifecycle states (R522). -/
inductive Lifecycle where
  | factory | locked | retired
  deriving DecidableEq, Repr

/-- Users of the cryptographic engines (R527). -/
inductive EngUser where
  | boot | service | session | vault | coreA | coreB
  deriving DecidableEq, Repr

/-- A core's job set (R525, R526), with the job it has started. -/
structure JobSet where
  op : BitVec 3
  src : BitVec 16
  len : BitVec 16
  dst : BitVec 16
  key : BitVec 16
  st : BitVec 4
  /-- OP, SRC, LEN, DST, KEY as they stood at the start. -/
  job : Option (BitVec 3 × BitVec 16 × BitVec 16 × BitVec 16 × BitVec 16)
  deriving DecidableEq, Repr

def JobSet.reset : JobSet := { op := 0, src := 0, len := 0, dst := 0, key := 0, st := 0, job := none }

/-- OTP, engines and random source (20_security_hinge.md). -/
structure Sec where
  uid : BitVec 64
  lc : Lifecycle
  /-- Programmed OTP words from 0x020 on, by byte offset (R520). -/
  otp : List (Nat × BitVec 16)
  otpBusy : Option (Nat × BitVec 16)
  flr : BitVec 2
  /-- A FLOOR program in flight: entry and value (R524). -/
  flrBusy : Option (Nat × BitVec 32)
  floorHiCap : BitVec 16
  rngReady : Bool
  rngFault : Bool
  /-- A health test failed and no restart has completed: RNG_DATA reads 0x0000 (R528). -/
  rngHalt : Bool
  /-- 1024 fresh samples are being taken after a RESTART (R528). -/
  rngRestart : Bool
  rngHeld : BitVec 16
  jobA : JobSet
  jobB : JobSet
  /-- The user in possession of the engines, and those that wait, in order of arrival (R527). -/
  engine : Option EngUser
  waiters : List EngUser
  deriving DecidableEq, Repr

def Sec.reset : Sec :=
  { uid := 0, lc := .factory, otp := [], otpBusy := none, flr := 0, flrBusy := none, floorHiCap := 0, rngReady := false,
    rngFault := false, rngHalt := false, rngRestart := false, rngHeld := 0, jobA := JobSet.reset, jobB := JobSet.reset, engine := none, waiters := [] }

/-- The Hinge (20_security_hinge.md). -/
structure Hinge where
  session : Bool
  rights : BitVec 5
  norc : Bool
  hcore : Bool
  req : BitVec 16
  chal : List Byte
  chalv : Bool
  resp : Vector (BitVec 16) 64
  fails : BitVec 2
  lasterr : BitVec 4
  /-- A session check is in progress (R536). -/
  checking : Bool
  /-- A read that answered WAIT: its address and posted writes ahead of it, then its held result (R533). -/
  reading : Option (BitVec 16 × Nat)
  held : Option (BitVec 16 × BitVec 16)
  /-- Another transaction came while that read was under way: its result is not kept (R533). -/
  dropRead : Bool
  otpAddr : BitVec 16
  otpData : BitVec 16
  deriving DecidableEq, Repr

def Hinge.reset : Hinge :=
  { session := false, rights := 0, norc := false, hcore := false, req := 0, chal := List.replicate 32 0, chalv := false,
    resp := Vector.replicate 64 0, fails := 0, lasterr := 0, checking := false, reading := none, held := none, dropRead := false,
    otpAddr := 0, otpData := 0 }

/-- What the latest command answered to its sender (a word read, the bytes a port sent, a Hinge status with data). -/
inductive Reply where
  | none
  | word (v : BitVec 16)
  | bytes (l : List Byte)
  | hinge (status : BitVec 4) (data : Option (BitVec 16))
  deriving DecidableEq, Repr

/-- The whole state of the part. -/
structure State where
  en : Energy
  por : Porter
  pwr : Power
  isl : Island
  crs : CourseEngine
  img : Store
  coreA : Core
  coreB : Core
  mem : Memory
  tie : Tie
  mrt : Mortar
  ash : Ashlar
  vlt : Vault
  prt : Ports
  pc : PortC
  pin : Pins
  tch : Touch
  sent : Sentinel
  pane : Pane
  sill : Sill
  rtc : Rtc
  sec : Sec
  hng : Hinge
  /-- The model's own: counter of the free values taken so far, and what the latest command answered. -/
  free : Nat
  out : Reply
  /-- The commands that wait, first in, first out. -/
  pending : List Instr
  deriving DecidableEq, Repr

/-- The part as it stands before its first supply: the Derzor domain is unpowered, OTP and the stores are as shipped. -/
def State.reset : State :=
  { en := Energy.reset, por := Porter.reset, pwr := Power.reset, isl := Island.reset, crs := CourseEngine.reset, img := Store.reset,
    coreA := Core.reset, coreB := Core.reset, mem := Memory.reset, tie := Tie.reset, mrt := Mortar.reset, ash := Ashlar.reset,
    vlt := Vault.reset, prt := Ports.recovery, pc := PortC.reset, pin := Pins.reset, tch := Touch.reset, sent := Sentinel.reset,
    pane := Pane.reset, sill := Sill.reset, rtc := Rtc.reset, sec := Sec.reset, hng := Hinge.reset, free := 0, out := .none,
    pending := [] }

end Machine
end Sys2Proof
end

