-- ==== Sys2Proof/Machine/Ops.lean ====
section
/-!
DEFINITION. Named operations that the blocks share: bits and counters, byte stores, time, the cores by name, data memory
with its error code, free values, and messages to the Porter.
-/
namespace Sys2Proof

def CoreId.who : CoreId → Who
  | .a => .coreA
  | .b => .coreB

def CoreId.other : CoreId → CoreId
  | .a => .b
  | .b => .a

def CoreId.isB : CoreId → Bool
  | .a => false
  | .b => true

/-- WHO as late faults and error records code it (R298). -/
def Who.code : Who → BitVec 2
  | .coreA => 0
  | .coreB => 1
  | .hinge => 2

namespace Machine

/-! ### Bits and counters -/

/-- Bit n of a word set to b. -/
def setBit {w : Nat} (v : BitVec w) (n : Nat) (b : Bool) : BitVec w :=
  if b then v ||| (1#w <<< n) else v &&& ~~~(1#w <<< n)

/-- b in bit n of an otherwise clear word. -/
def bitAt (w n : Nat) (b : Bool) : BitVec w := if b then 1#w <<< n else 0#w

/-- A field of a word that is being put together. -/
def fieldAt {n : Nat} (w sh : Nat) (v : BitVec n) : BitVec w := (v.setWidth w) <<< sh

/-- A counter that stops at its largest value (R18). -/
def satInc {w : Nat} (v : BitVec w) : BitVec w := if v = BitVec.allOnes w then v else v + 1

/-- A counter that stops at its largest value, moved by n. -/
def satAdd {w : Nat} (v : BitVec w) (n : Nat) : BitVec w :=
  if v.toNat + n ≥ 2 ^ w then BitVec.allOnes w else v + BitVec.ofNat w n

/-- A number narrowed to the largest value of w bits. -/
def satOf (w n : Nat) : BitVec w := if n ≥ 2 ^ w then BitVec.allOnes w else BitVec.ofNat w n

/-- A quotient whose rounding the spec does not state: exact where it divides, else either neighbour (log entry 6). -/
def divOpen (n : Int) (d : Nat) : Int :=
  if n % d = 0 then n / d else if Config.roundsUp n.natAbs d then n / d + 1 else n / d

/-- The same for naturals. -/
def divOpenN (n d : Nat) : Nat :=
  if n % d = 0 then n / d else if Config.roundsUp n d then n / d + 1 else n / d

/-- Low and high byte of a word. -/
def loB (v : Word) : Byte := v.setWidth 8
def hiB (v : Word) : Byte := (v >>> 8).setWidth 8
/-- A word from its bytes, low first (R206). -/
def word2 (lo hi : Byte) : Word := hi ++ lo

/-- n bytes of a number, least significant first. -/
def leBytes : Nat → Nat → List Byte
  | 0, _ => []
  | n + 1, v => BitVec.ofNat 8 v :: leBytes n (v / 256)

/-- The number that bytes spell, least significant first. -/
def ofLe : List Byte → Nat
  | [] => 0
  | b :: r => b.toNat + 256 * ofLe r

/-- The number that bytes spell, most significant first. -/
def ofBe (l : List Byte) : Nat := l.foldl (fun a b => a * 256 + b.toNat) 0

/-- A list padded with zero bytes to n. -/
def padTo (n : Nat) (l : List Byte) : List Byte := l ++ List.replicate (n - l.length) 0

/-- A vector mapped, and a vector made from its indices. -/
def vmap {α β : Type} {n : Nat} (f : α → β) (v : Vector α n) : Vector β n := ⟨(v.toList.map f).toArray, by simp⟩

def vgen {α : Type} (n : Nat) (f : Nat → α) : Vector α n := ⟨((List.range n).map f).toArray, by simp⟩

/-- The entry of a vector at an index, or a default outside it. -/
def vat {α : Type} {n : Nat} (d : α) (v : Vector α n) (i : Nat) : α := v.toList.getD i d

/-! ### Byte stores -/

/-- The byte at an address; `d` is what an unlisted address reads as. -/
def Bytes.read (d : Byte) : Bytes → Nat → Byte
  | [], _ => d
  | (b, w) :: r, a => if b = a then w else Bytes.read d r a

/-- A byte written, in canonical form. -/
def Bytes.write (d : Byte) : Bytes → Nat → Byte → Bytes
  | [], a, v => if v = d then [] else [(a, v)]
  | (b, w) :: r, a, v =>
    if a < b then (if v = d then (b, w) :: r else (a, v) :: (b, w) :: r)
    else if a = b then (if v = d then r else (a, v) :: r)
    else (b, w) :: Bytes.write d r a v

/-- Bytes in a row. -/
def Bytes.readN (d : Byte) (m : Bytes) (a n : Nat) : List Byte := (List.range n).map fun k => Bytes.read d m (a + k)

/-- Bytes written in a row. -/
def Bytes.writeL (d : Byte) : Bytes → Nat → List Byte → Bytes
  | m, _, [] => m
  | m, a, v :: r => Bytes.writeL d (Bytes.write d m a v) (a + 1) r

/-- The canonical form: addresses strictly rising from `lo` on, no entry equal to `d`. -/
def Bytes.wfFrom (d : Byte) : Nat → Bytes → Bool
  | _, [] => true
  | lo, (b, w) :: r => decide (lo ≤ b) && decide (w ≠ d) && Bytes.wfFrom d (b + 1) r

def Bytes.wf (d : Byte) (m : Bytes) : Bool := Bytes.wfFrom d 0 m

/-- An entry of a sparse list of words, and the list with the entry replaced (kept in rising order). -/
def sparseGet {α : Type} (d : α) (l : List (Nat × α)) (k : Nat) : α :=
  match l.find? (fun e => e.1 == k) with
  | some e => e.2
  | none => d

def sparsePut {α : Type} [DecidableEq α] (d : α) : List (Nat × α) → Nat → α → List (Nat × α)
  | [], k, v => if v = d then [] else [(k, v)]
  | (b, w) :: r, k, v =>
    if k < b then (if v = d then (b, w) :: r else (k, v) :: (b, w) :: r)
    else if k = b then (if v = d then r else (k, v) :: r)
    else (b, w) :: sparsePut d r k v

/-! ### Power states and time -/

/-- OPEN or AJAR (R98). -/
def State.awake (s : State) : Bool := s.pwr.phase == .awake

/-- The Derzor and Keystone domains are powered: OPEN to BARRED, their entries and their wakes (R96). -/
def State.powered (s : State) : Bool :=
  match s.pwr.phase with
  | .awake => true
  | .entering _ => true
  | .asleep .sealed => false
  | .asleep _ => true
  | .waking _ _ => true
  | _ => false

/-- Main-domain handshakes run: OPEN, AJAR and an entry before its point of no return. -/
def State.mainOn (s : State) : Bool :=
  match s.pwr.phase with
  | .awake => true
  | .entering _ => true
  | _ => false

/-- Time of a moment in the running tick, in 1/16 us: a tick lasts 976.5625 us (R136). -/
def State.time16 (s : State) (sub : BitVec 10) : Nat := s.crs.tick.toNat * 15625 + sub.toNat * 16

/-- Time at the latest moment the machine has been told of. -/
def State.now16 (s : State) : Nat := s.time16 s.crs.subtick

/-- The clock is told how far into the tick a command comes. -/
def State.atSub (s : State) (sub : BitVec 10) : State := { s with crs.subtick := sub }

/-! ### The cores by name -/

def State.core (s : State) : CoreId → Core
  | .a => s.coreA
  | .b => s.coreB

def State.setCore (s : State) (c : CoreId) (k : Core) : State :=
  match c with
  | .a => { s with coreA := k }
  | .b => { s with coreB := k }

/-- The core as whom an access is checked (R535). -/
def State.actsAs (s : State) : Who → CoreId
  | .coreA => .a
  | .coreB => .b
  | .hinge => if s.hng.hcore then .b else .a

/-! ### SRAM with SECDED (R284 to R286) -/

/-- Who reads SRAM, as MEM_STAT.UE_SRC codes it. -/
inductive Reader where
  | core (c : CoreId) | port | hinge
  deriving DecidableEq, Repr

def Reader.code : Reader → BitVec 2
  | .core .a => 0
  | .core .b => 1
  | .port => 2
  | .hinge => 3

def readerOf : Who → Reader
  | .coreA => .core .a
  | .coreB => .core .b
  | .hinge => .hinge

/-- The word at an even address, as its data bits stand. -/
def sramWord (m : Memory) (a : Nat) : Word := word2 (Bytes.read 0 m.bytes a) (Bytes.read 0 m.bytes (a + 1))

/-- A single-bit error is corrected and counted (R285). -/
def eccSingle (m : Memory) (a : Nat) : Memory :=
  { m with errs := m.errs.filter (fun e => e.1 != a), ceCnt := satInc m.ceCnt, ce := true,
           eccAddr := if m.ue then m.eccAddr else BitVec.ofNat 16 a }

/-- A double-bit error is reported (R286). -/
def eccDouble (r : Reader) (m : Memory) (a : Nat) : Memory :=
  { m with ue := true, ueSrc := r.code, eccAddr := BitVec.ofNat 16 a }

/-- What an access that reads the word at an even address does to the error registers; more flipped bits have one of
three outcomes, which is left free (R284). -/
def eccTouch (r : Reader) (s : State) (a : Nat) : State :=
  match s.mem.errs.find? (fun e => e.1 == a) with
  | none => s
  | some (_, .single) => { s with mem := eccSingle s.mem a }
  | some (_, .double) => { s with mem := eccDouble r s.mem a }
  | some (_, .many) =>
    let s' := { s with free := s.free + 2 }
    if Config.freeBit s.free then { s' with mem := eccDouble r s.mem a }
    else if Config.freeBit (s.free + 1) then { s' with mem := eccSingle s.mem a }
    else s'

/-- A word read from SRAM at an even address. -/
def sramRead (r : Reader) (a : Nat) (s : State) : Word × State := (sramWord s.mem a, eccTouch r s a)

/-- A whole word stored: its check bits are valid again (R284). -/
def sramWrite (a : Nat) (v : Word) (s : State) : State :=
  { s with mem := { s.mem with
      bytes := Bytes.write 0 (Bytes.write 0 s.mem.bytes a (loB v)) (a + 1) (hiB v)
      errs := s.mem.errs.filter (fun e => e.1 != a) } }

/-- A byte read. -/
def sramReadB (r : Reader) (a : Nat) (s : State) : Byte × State :=
  (Bytes.read 0 s.mem.bytes a, eccTouch r s (a - a % 2))

/-- A byte stored: the word is read, and stored with valid check bits. -/
def sramWriteB (r : Reader) (a : Nat) (v : Byte) (s : State) : State :=
  let t := eccTouch r s (a - a % 2)
  { t with mem := { t.mem with bytes := Bytes.write 0 t.mem.bytes a v
                               errs := t.mem.errs.filter (fun e => e.1 != a - a % 2) } }

/-- Bytes stored in a row by hardware, in whole words where they come in pairs. -/
def sramWriteL : Reader → Nat → List Byte → State → State
  | _, _, [], s => s
  | r, a, [b], s => sramWriteB r a b s
  | r, a, b :: c :: l, s =>
    if a % 2 = 0 then sramWriteL r (a + 2) l (sramWrite a (word2 b c) s) else sramWriteL r (a + 1) (c :: l) (sramWriteB r a b s)

/-- Bytes read in a row. -/
def sramReadL : Reader → Nat → Nat → State → List Byte × State
  | _, _, 0, s => ([], s)
  | r, a, n + 1, s =>
    let (b, s1) := sramReadB r a s
    let (l, s2) := sramReadL r (a + 1) n s1
    (b :: l, s2)

/-- 0x00 loaded over a range: valid check bits, no errors (R112, R284). -/
def sramClear (a n : Nat) (s : State) : State :=
  { s with mem := { s.mem with
      bytes := s.mem.bytes.filter (fun e => !(decide (a ≤ e.1) && decide (e.1 < a + n)))
      errs := s.mem.errs.filter (fun e => !(decide (a ≤ e.1) && decide (e.1 < a + n))) } }

/-! ### Free values -/

/-- The next free word. -/
def takeFree (s : State) : Word × State := (Config.freeWord s.free, { s with free := s.free + 1 })

/-- n free bytes. -/
def freeBytes (n : Nat) (s : State) : List Byte × State :=
  ((List.range n).map fun k => loB (Config.freeWord (s.free + k)), { s with free := s.free + n })

/-! ### Messages to the Porter -/

/-- The cost that a class's code stands for, in 1/1024 nJ (R75). -/
def costOf (code : BitVec 16) : Nat := (code.toNat % 4096) * 4 ^ (code.toNat / 4096)

def State.classCost (s : State) (k : BitVec 3) : Nat := costOf (s.por.cfg.pcost.get k.toFin)

/-- A message set on its way to the Porter. -/
def State.send (s : State) (m : LaneMsg) : State := { s with tie.lane := s.tie.lane ++ [m] }

/-- A request at the class's cost (R77). -/
def State.ask (s : State) (k : BitVec 3) (r : Requester) : State := s.send (.ask k r (s.classCost k))

def State.withdraw (s : State) (k : BitVec 3) (r : Requester) : State := s.send (.withdraw k r)

def State.fin (s : State) (k : BitVec 3) (r : Requester) : State := s.send (.fin k r)

/-! ### Late faults of the Tie (R298) -/

/-- An entry added to the late-fault queue, or lost when it is full. -/
def State.lateFault (s : State) (f : LateFault) : State :=
  if s.tie.lf.length ≥ 8 then { s with tie.lost := true } else { s with tie.lf := s.tie.lf ++ [f] }

/-- The entry of a failed word write or read; outcomes as TIE_LF0 codes them. -/
def State.lateWord (s : State) (a : Nat) (outcome : BitVec 3) (v : Word) (who : Who) : State :=
  s.lateFault { addr := BitVec.ofNat 12 a, outcome := outcome, bitw := false, data := v, stamp := s.crs.tick.setWidth 14,
                who := who.code }

/-- What the command answers to its sender. -/
def State.reply (s : State) (r : Reply) : State := { s with out := r }

end Machine
end Sys2Proof
end

