-- ==== Sys2Proof/Machine/Cores.lean ====
section
/-!
DEFINITION. What blocks do to a core: event latches and snapshots, task starts, freezing and resets, trap entry
(07_core_model.md).
-/
namespace Sys2Proof
namespace Machine

/-! ### Event latches and snapshots (R223 to R225) -/

/-- The core waits in a WAITEV, or is halted in one (R225, R540). -/
def Core.waits (k : Core) : Bool :=
  match k.st with
  | .waiting _ => true
  | .halted (.waiting _) => true
  | _ => false

/-- A latch is set: bits 0 to 11 the view, 12 the permit answer (R223). -/
def Core.latch (k : Core) (n : Nat) : Core :=
  { k with lat := setBit k.lat n true, ovf := k.ovf || k.lat.getLsbD n, hit := if k.waits then setBit k.hit n true else k.hit }

/-- EV as a snapshot loads it (R224). -/
def Core.evWord (k : Core) (timeUp : Bool) : Word := fieldAt 16 0 k.lat ||| bitAt 16 13 timeUp ||| bitAt 16 14 k.ovf

/-- A snapshot: EV loaded, latches cleared (R224). -/
def Core.snapshot (k : Core) (timeUp : Bool) : Core := { k with ev := k.evWord timeUp, lat := 0, ovf := false, hit := 0 }

/-- A permit answer written into PG, which sets the PA latch (R226). -/
def answerCode : Answer → BitVec 8
  | .grant => 1
  | .defer => 2
  | .deny why => 3 ||| fieldAt 8 2 why

def Core.permit (k : Core) (cls : BitVec 3) (a : Answer) : Core := ({ k with pg := answerCode a ||| fieldAt 8 5 cls }).latch 12

/-! ### Tasks and states (R204, R212, R213) -/

/-- The return stack emptied (R221). -/
def Core.emptyStack (k : Core) : Core := { k with rs := Vector.replicate 8 0, rsP := 0, rsD := 0 }

/-- A task starts: registers carry over (R212). A halted core takes the task up at its resume, and a HALT that came while the core
was idle halts it before the task's first instruction (R540). -/
def Core.startTask (k : Core) (entry : Word) : Core :=
  { k.emptyStack with pc := entry, xfer := none, call := false,
                      haltReq := k.haltReq && k.st != .idle,
                      st := match k.st with
                        | .halted _ => .halted .running
                        | .idle => if k.haltReq then .halted .running else .running
                        | _ => .running }

/-- A step under the Hinge is over: the core halts again (R540). One that has ended its list or awaits an answer halts later. -/
def Core.stepEnd (k : Core) : Core :=
  if k.stepping && k.xfer.isNone && k.busy.isNone then
    match k.st with
    | .running => { k with stepping := false, st := .halted .running }
    | .waiting m => { k with stepping := false, st := .halted (.waiting m) }
    | _ => { k with stepping := false, haltReq := true }
  else k

/-- The core has ended its list. -/
def Core.idle (k : Core) : Core :=
  { k with xfer := none, call := false, st := match k.st with
                        | .halted _ => .halted .idle
                        | _ => .idle }

/-- Registers and return stack set to 0 (R204); trap records, TRAPCNT and RSTAT's flags stay. -/
def Core.restart (k : Core) : Core :=
  { Core.reset with trapPc := k.trapPc, trapNext := k.trapNext, trapCause := k.trapCause, trapDetail := k.trapDetail,
                    trapSpace := k.trapSpace, trapAddr := k.trapAddr, trapActive := k.trapActive, trapNest := k.trapNest,
                    trapDs := k.trapDs, trapCnt := k.trapCnt, rsWrapped := k.rsWrapped, rsUnder := k.rsUnder,
                    fcntHiCap := k.fcntHiCap, rsTrap := k.rsTrap, ioTrap := k.ioTrap, door := k.door,
                    au := { Au.reset with ftz := k.au.ftz } }

/-- A cold start or SEALED wake: nothing but the loaded options stays. -/
def Core.cold (k : Core) : Core := { Core.reset with rsTrap := k.rsTrap, ioTrap := k.ioTrap, door := k.door, au := { Au.reset with ftz := k.au.ftz } }

/-- Frozen with the main domain, and back (R213). -/
def Core.freeze (k : Core) : Core :=
  { k with st := match k.st with
      | .halted _ => .frozen true
      | _ => .frozen false }

def Core.thaw (k : Core) : Core :=
  { k with st := match k.st with
      | .frozen true => .halted .idle
      | _ => .idle }

/-! ### Traps (R228, R229) -/

/-- A trap to take: CAUSE, DETAIL, SPACE and address. -/
structure Trap where
  cause : BitVec 4
  detail : BitVec 4
  space : BitVec 2
  addr : Word
  deriving DecidableEq, Repr

def Trap.illegal (detail : BitVec 4) : Trap := { cause := 1, detail := detail, space := 3, addr := 0 }
def Trap.rsOver : Trap := { cause := 2, detail := 0, space := 3, addr := 0 }
def Trap.rsUnder : Trap := { cause := 3, detail := 0, space := 3, addr := 0 }
def Trap.misalign (a : Word) : Trap := { cause := 7, detail := 0, space := 1, addr := a }
def Trap.unmapped (a : Word) : Trap := { cause := 6, detail := 0, space := 1, addr := a }
def Trap.unmappedIo (write : Bool) (a : BitVec 12) : Trap :=
  { cause := 6, detail := if write then 2 else 1, space := 2, addr := a.setWidth 16 }
def Trap.ownerPin (a : BitVec 12) : Trap := { cause := 4, detail := 0, space := 2, addr := a.setWidth 16 }
def Trap.ownerMailbox (a : Word) : Trap := { cause := 4, detail := 1, space := 1, addr := a }
def Trap.ownerReg (a : BitVec 12) : Trap := { cause := 4, detail := 2, space := 2, addr := a.setWidth 16 }
def Trap.trust (detail : BitVec 4) (a : BitVec 12) : Trap := { cause := 5, detail := detail, space := 2, addr := a.setWidth 16 }
def Trap.sched (n : BitVec 4) : Trap := { cause := 9, detail := n, space := 3, addr := 0 }
def Trap.fetch (a : Word) : Trap := { cause := 8, detail := 0, space := 0, addr := a }

/-- TAKING A TRAP: the records are written and the trap door is entered (R228). `words`: words of the trapping instruction. -/
def Core.trap (k : Core) (t : Trap) (words : Nat) : Core :=
  { k with
    trapPc := k.pc
    trapNext := match k.xfer with
      | some (some target) => target
      | _ => k.pc + BitVec.ofNat 16 words
    trapCause := t.cause
    trapDetail := t.detail
    trapSpace := t.space
    trapAddr := t.addr
    trapDs := k.xfer.isSome
    trapNest := k.trapNest || k.trapActive
    trapActive := true
    trapCnt := satInc k.trapCnt
    xfer := none
    call := false
    pc := k.door }

/-! ### The core-local registers io:0x030 to 0x037 -/

def coreVal (c : CoreId) (k : Core) (a : Nat) : Option Word :=
  if a = 0x030 then some (if c.isB then 1 else 0)
  else if a = 0x031 then some k.trapPc
  else if a = 0x032 then some k.trapNext
  else if a = 0x033 then some (fieldAt 16 0 k.trapCause ||| fieldAt 16 4 k.trapDetail ||| fieldAt 16 8 k.trapSpace)
  else if a = 0x034 then some k.trapAddr
  else if a = 0x035 then some (bitAt 16 0 k.trapActive ||| bitAt 16 1 k.trapNest ||| bitAt 16 2 k.trapDs)
  else if a = 0x036 then some k.trapCnt
  else if a = 0x037 then some (BitVec.ofNat 16 k.rsD ||| bitAt 16 4 k.rsWrapped ||| bitAt 16 5 k.rsUnder ||| bitAt 16 6 k.rsTrap |||
    bitAt 16 7 k.ioTrap)
  else none

def coreSide (k : Core) (a : Nat) : Core := if a = 0x036 then { k with trapCnt := 0 } else k

def corePut (k : Core) (a : Nat) (v : Word) : Core :=
  if a = 0x035 then { k with trapActive := k.trapActive && !v.getLsbD 0, trapNest := k.trapNest && !v.getLsbD 1 }
  else if a = 0x037 then { k with rsWrapped := k.rsWrapped && !v.getLsbD 4, rsUnder := k.rsUnder && !v.getLsbD 5 }
  else k

end Machine
end Sys2Proof
end

