-- ==== Sys2Proof/Machine/Wake.lean ====
section
/-!
DEFINITION. The wake router: which sources are live, what firing one does in each state (04_power_states.md, R102 to R118).
-/
namespace Sys2Proof
namespace Machine

/-- Codes of the sleep states (R99; SEALED as SLP_NEXT.TARGET has it). -/
def Sleep.code : Sleep → BitVec 3
  | .latched => 2
  | .shuttered => 3
  | .barred => 4
  | .sealed => 5

/-- Whether a source, by its WAKE_SRC bit, is live and enabled in a sleep state (R102). -/
def sourceArmed (t : Sleep) (n : Nat) (s : State) : Bool :=
  match t with
  | .sealed => n == 10 || ([1, 2, 4, 5, 6, 8].contains n && s.isl.en.getLsbD n)
  | _ => n == 0 || (n != 10 && s.pwr.wakeEn.getLsbD n)

/-- The highest-ranked of some sources (R122). -/
def firstSource (v : BitVec 12) : Option Nat := (List.range 12).find? fun n => v.getLsbD n

/-- The course the wake map names for the highest-ranked source (R122, R192). -/
def mapCourse (v : BitVec 12) (c : CourseEngine) : Option (BitVec 6) :=
  match firstSource v with
  | some n =>
    let e := c.wakeMap.getD n 0
    if e.getLsbD 7 && decide ((e.setWidth 6 : BitVec 6).toNat < c.table.length) then some (e.setWidth 6) else none
  | none => none

/-- An entry abandoned before its point of no return (R116), with the sources to record: none leaves WAKE_SRC as it stands. -/
def abandonEntry (v : BitVec 12) (s : State) : State :=
  { s with pwr := { s.pwr with phase := .awake, wakeSrc := if v = 0 then s.pwr.wakeSrc else v, latched := 0, abandon := true, wakeTick := none, drainTicks := 0,
                               drainOver := false },
           crs.forced := mapCourse v s.crs }

/-- The request that a wake from SHUTTERED or BARRED needs: P0, or P7 of the last-gasp sequence (R76, R91, R121). -/
def wakeAsk (n : Nat) (s : State) : State :=
  if n = 0 then s.send (.ask 7 .gaspWake (s.classCost 0)) else s.ask 0 .wakeRouter

/-- A source wakes the part from LATCHED, SHUTTERED or BARRED: the sleep's ticks are taken, and leave is asked for (R120, R121). -/
def wakeFrom (t : Sleep) (n : Nat) (s : State) : State :=
  let s := { s with pwr := { s.pwr with phase := .waking t (t == .latched), latched := setBit s.pwr.latched n true,
                                        slpTicks := (s.crs.tick - s.pwr.sleptAt).setWidth 32 } }
  if t = .latched then s else wakeAsk n s

/-- A source fires while a wake from SEALED is under way: it is named with the others (R103, R124). -/
def fireStarting (n : Nat) (s : State) : State :=
  if s.pwr.startKind = .sealed && sourceArmed .sealed n s then { s with isl.fired := setBit s.isl.fired n true } else s

/-- A wake source fires (R102 to R104, R116, R120, R121, R124, R131). -/
def fire (n : Nat) (s : State) : State :=
  match s.pwr.phase with
  | .awake => if n = 1 || n = 2 then { s with pwr.wakeSrc := setBit s.pwr.wakeSrc n true } else s
  | .entering t => if sourceArmed t n s then abandonEntry (setBit 0 n true) s else s
  | .asleep .sealed => if sourceArmed .sealed n s then { s with isl.fired := setBit s.isl.fired n true } else s
  | .asleep t => if sourceArmed t n s then wakeFrom t n s else s
  | .waking t granted =>
    if sourceArmed t n s && !s.pwr.latched.getLsbD n then
      let s := { s with pwr.latched := setBit s.pwr.latched n true }
      if n = 0 && !granted then wakeAsk 0 s else s
    else s
  | .starting => fireStarting n s
  | .boot => fireStarting n s
  | _ => s

/-- WAKE_LAND_EDGE (R104). -/
def execWakeLandEdge (land : Bool) (s : State) : Host.Outcome State Fault Refusal := .next (fire (if land then 2 else 1) s)

/-- The WAKE_SRC bit of a port. -/
def portSource : PortId → Nat
  | .s => 4
  | .q => 5
  | .u => 6

/-- PORT_ACTIVITY_DETECT (R400): the detectors work in SEALED alone. -/
def execPortActivityDetect (p : PortId) (s : State) : Host.Outcome State Fault Refusal :=
  .next <| if s.pwr.phase = .asleep .sealed then fire (portSource p) s else s

/-! ### Registers io:0x074 to 0x07F -/

/-- A read of SLP_TICKS_LO captures SLP_TICKS_HI. -/
def slpCapture (s : State) : State := { s with pwr.slpTicksHiCap := (s.pwr.slpTicks >>> 16).setWidth 16 }

def powerVal (a : Nat) (s : State) : Option Word :=
  let p := s.pwr
  if a = 0x074 then some (fieldAt 16 0 p.last ||| bitAt 16 3 p.ashRld)
  else if a = 0x075 then some (fieldAt 16 0 p.slpTarget ||| bitAt 16 3 p.slpNoTick ||| bitAt 16 4 p.slpValid)
  else if a = 0x076 then some (p.slpBanks.setWidth 16)
  else if a = 0x077 then some (p.wakeSrc.setWidth 16)
  else if a = 0x078 then some (p.wakeLost.setWidth 16)
  else if a = 0x079 then some (p.wakeEn.setWidth 16)
  else if a = 0x07A then some (p.slpTicks.setWidth 16)
  else if a = 0x07B then some p.slpTicksHiCap
  else if a = 0x07C then some (bitAt 16 0 p.refused ||| fieldAt 16 1 p.why ||| bitAt 16 3 p.abandon ||| bitAt 16 4 p.qlost |||
    bitAt 16 5 p.mboxLost)
  else if a = 0x07D then some (s.isl.rstCause.setWidth 16)
  else if a = 0x07E then some 0
  else if a = 0x07F then some (fieldAt 16 0 s.isl.sealReason ||| bitAt 16 2 s.isl.sealPend ||| bitAt 16 3 s.isl.digest.isSome |||
    bitAt 16 4 s.isl.sealSlot)
  else none

def powerSide (a : Nat) (s : State) : State :=
  if a = 0x077 then { s with pwr.wakeSrc := 0 }
  else if a = 0x078 then { s with pwr.wakeLost := 0 }
  else if a = 0x07A then slpCapture s
  else s

/-- Writes but for RST_CTL, which restarts more than this block (R129). -/
def powerPut (a : Nat) (v : Word) (s : State) : State :=
  if a = 0x075 then { s with pwr := { s.pwr with slpTarget := v.setWidth 3, slpNoTick := v.getLsbD 3, slpValid := v.getLsbD 4 } }
  else if a = 0x076 then { s with pwr.slpBanks := v.setWidth 12 }
  else if a = 0x07C then
    { s with pwr := { s.pwr with refused := s.pwr.refused && !v.getLsbD 0, abandon := s.pwr.abandon && !v.getLsbD 3,
                                 qlost := s.pwr.qlost && !v.getLsbD 4, mboxLost := s.pwr.mboxLost && !v.getLsbD 5 } }
  else if a = 0x07F then { s with isl.sealPend := s.isl.sealPend && !v.getLsbD 2 }
  else s

end Machine
end Sys2Proof
end

