-- ==== Sys2Proof/Machine/Due.lean ====
section
/-!
DEFINITION. Occurrences of courses that fall due, skips, and contract records (05_time_without_clock.md, R142 to R146, R156,
R158, R165).
-/
namespace Sys2Proof
namespace Machine

/-- A contract record is queued, or lost when the queue is full (R158). -/
def addRecord (r : ContractRec) (c : CourseEngine) : CourseEngine :=
  if c.recs.length ≥ 8 then { c with stat := setBit c.stat 3 true } else { c with recs := c.recs ++ [r] }

/-- An occurrence is skipped because the next one of its course falls due (R144, R156, R585). -/
def skipOccurrence (o : Occurrence) (c : CourseEngine) : CourseEngine :=
  addRecord { course := o.course, kind := .skip, flags := if c.running then c.flags else 0, stamp := o.tick.setWidth 32,
              meas := satOf 16 (c.tick - o.tick).toNat }
    { c with skipCnt := satInc c.skipCnt, stat := setBit c.stat 1 true }

/-- An occurrence becomes pending (R144); in the last-gasp sequence nothing counts as a skip (R167). -/
def addDue (n : BitVec 6) (us : BitVec 10) (gasp : Bool) (c : CourseEngine) : CourseEngine :=
  let c' := match c.pend.find? (fun o => o.course == n) with
    | some o => if gasp then c else skipOccurrence o c
    | none => c
  { c' with pend := c'.pend.filter (fun o => o.course != n) ++ [{ course := n, tick := c.tick, us := us }] }

/-- An occurrence falls due in a sleep state (R165): it is counted, unless TICK fired for this tick. -/
def dueAsleep (n : BitVec 6) (us : BitVec 10) (s : State) : State :=
  if s.pwr.latched.getLsbD 9 && s.pwr.wakeTick = some s.crs.tick then { s with crs := addDue n us true s.crs }
  else { s with crs.sleptCnt := satInc s.crs.sleptCnt }

/-- An occurrence falls due (R144, R165). -/
def fallDue (n : BitVec 6) (us : BitVec 10) (s : State) : State :=
  match s.pwr.phase with
  | .awake => { s with crs := addDue n us s.por.lgActive s.crs }
  | .entering _ => { s with crs := addDue n us s.por.lgActive s.crs }
  | .asleep .sealed => s
  | .asleep _ => dueAsleep n us s
  | .waking _ _ => dueAsleep n us s
  | _ => s

/-- Whether a course is due by its tick count at tick t (R142). -/
def tickDue (epoch : BitVec 48) (t : Nat) (d : CourseDef) : Bool :=
  !d.event && d.period != 0 && decide (epoch.toNat + d.phase.toNat ≤ t) && (t - epoch.toNat - d.phase.toNat) % d.period.toNat == 0

/-- The courses due by tick count at the present tick, lowest number first. -/
def tickCourses (c : CourseEngine) : List (BitVec 6) :=
  ((List.range c.table.length).zip c.table).filterMap fun e => if tickDue c.epoch c.tick.toNat e.2 then some (BitVec.ofNat 6 e.1) else none

/-- The next tick after t at which a course is due by its tick count (R106). -/
def nextTickOf (epoch : BitVec 48) (t : Nat) (d : CourseDef) : Option Nat :=
  if d.event || d.period = 0 then none
  else
    let z := epoch.toNat + d.phase.toNat
    some (if t < z then z else z + ((t - z) / d.period.toNat + 1) * d.period.toNat)

def minOpt : Option Nat → Option Nat → Option Nat
  | some a, some b => some (if a ≤ b then a else b)
  | some a, none => some a
  | none, b => b

def nextTick (c : CourseEngine) : Option Nat := (c.table.map (nextTickOf c.epoch c.tick.toNat)).foldl minOpt none

/-- The courses that an event edge on a line makes due (R142, R146). -/
def lineCourses (c : CourseEngine) (line : Nat) (rise : Bool) : List (BitVec 6) :=
  ((List.range c.table.length).zip c.table).filterMap fun e =>
    if e.2.event && e.2.line.toNat == line && (if rise then e.2.rising else e.2.falling) then some (BitVec.ofNat 6 e.1) else none

/-- Edges on event lines make courses due. -/
def lineEdge (line : Nat) (rise : Bool) (s : State) : State :=
  (lineCourses s.crs line rise).foldl (fun t n => fallDue n s.crs.subtick t) s

end Machine
end Sys2Proof
end

