-- ==== Sys2Proof/Machine/Pads.lean ====
section
/-!
DEFINITION. The general pins: settings, drivers and pad levels (15_pins.md).
-/
namespace Sys2Proof
namespace Machine

/-- Owners of a pin (R191, R416); codes 5 to 7 stand for NONE (R424). -/
inductive PinOwner where
  | none | coreA | coreB | mortar | func
  deriving DecidableEq, Repr

/-- A pin's item as the part acts on it: PA0 to PA7 carry the recovery functions while RCV is 1, except for their taps (R428). -/
def pinItem (p : Pins) (n : Nat) : BitVec 32 :=
  let it := vat 0 p.items n
  if p.rcv && decide (n < 8) then (it &&& 0x7F000000) ||| BitVec.ofNat 32 (4 + 256 * (n + 1)) else it

def pinOwner (p : Pins) (n : Nat) : PinOwner :=
  let it := pinItem p n
  let o : BitVec 3 := it.setWidth 3
  let f : BitVec 8 := (it >>> 8).setWidth 8
  if o = 1 then .coreA else if o = 2 then .coreB else if o = 3 then .mortar
  else if o = 4 then (if 1 ≤ f.toNat ∧ f.toNat ≤ 9 then .func else .none)
  else .none

def pinTrust (p : Pins) (n : Nat) : Bool := (pinItem p n).getLsbD 3
def pinFunc (p : Pins) (n : Nat) : Nat := ((pinItem p n >>> 8).setWidth 8 : BitVec 8).toNat
def pinDir (p : Pins) (n : Nat) : BitVec 2 := (pinItem p n >>> 16).setWidth 2
def pinInit (p : Pins) (n : Nat) : Bool := (pinItem p n).getLsbD 23
/-- The line a pin's tap names, when it is enabled. -/
def pinTap (p : Pins) (n : Nat) : Option (BitVec 6) :=
  if (pinItem p n).getLsbD 30 then some ((pinItem p n >>> 24).setWidth 6) else none

/-- The pin's driver may drive: push-pull or open-drain (R415). -/
def pinDrives (p : Pins) (n : Nat) : Bool := pinDir p n = 1 || pinDir p n = 2

/-- The bank of a pin is powered (R414). -/
def pinBankOk (p : Pins) (n : Nat) : Bool := p.vioOk.getLsbD (n / 16)

/-- The level of the line a Mortar-owned pin follows (R323). -/
def mortarPin (m : Mortar) (n : Nat) : Bool :=
  let k := vat SinkCfg.off m.cfg.pins n
  let l := match k.line with
    | some e => m.line.getLsbD e.toNat
    | none => false
  l != k.inv

/-- The output level of a pin (R417). A function's own signal is not followed bit by bit; a port's output idles at 1 or released. -/
def pinOutLevel (s : State) (n : Nat) : Bool :=
  let w := s.pin.out.getLsbD n
  match pinOwner s.pin n with
  | .mortar => mortarPin s.mrt n || w
  | .func => true
  | _ => w

/-- A function pin drives by itself: U_TX and CLK32 push-pull (R421). -/
def funcDrives (f : Nat) : Bool := f == 8 || f == 9

/-- The pin block is between the image latch and a loss of power: OPEN to BARRED (R426). -/
def pinsLive (s : State) : Bool := s.powered

/-- What the part itself drives at a pad: `none` where it drives nothing there. -/
def pinDrive (s : State) (n : Nat) : Option Bool :=
  if !(pinsLive s && pinBankOk s.pin n) then none else
  match pinOwner s.pin n with
  | .func => if funcDrives (pinFunc s.pin n) then some (pinOutLevel s n) else none
  | o =>
    let en := match o with
      | .coreA => s.pin.oe.getLsbD n
      | .coreB => s.pin.oe.getLsbD n
      | _ => pinDrives s.pin n
    if !(en && pinDrives s.pin n) then none
    else if pinDir s.pin n = 2 then (if pinOutLevel s n then none else some false)
    else some (pinOutLevel s n)

/-- The level at a pad: what the part drives, else what stands there from outside. -/
def padLevel (s : State) (n : Nat) : Bool := (pinDrive s n).getD (s.pin.pad.getLsbD n)

/-- The level the input word and the tap see: 0 for an analog pin and on an unpowered bank (R414, R415, R420). -/
def pinInput (s : State) (n : Nat) : Bool :=
  pinBankOk s.pin n && !(pinDir s.pin n = 3 && pinOwner s.pin n != .func) && padLevel s n

/-- The level a line takes from taps (R307). -/
def tapLevels (s : State) : BitVec 64 :=
  if !pinsLive s then 0 else
  (List.range 48).foldl (fun w n =>
    match pinTap s.pin n with
    | some e => if pinInput s n then w ||| (1#64 <<< e.toNat) else w
    | none => w) 0

/-- Bits of a group's pins that a core owns (R227, R418). -/
def ownMask (p : Pins) (g : Nat) (c : CoreId) : Word :=
  (List.range 16).foldl (fun w k => w ||| bitAt 16 k (pinOwner p (16 * g + k) == (if c.isB then .coreB else .coreA))) 0

/-- Bits of a group whose enable the core may change (R419). -/
def oeMask (p : Pins) (g : Nat) (c : CoreId) : Word :=
  ownMask p g c &&& (List.range 16).foldl (fun w k => w ||| bitAt 16 k (pinDrives p (16 * g + k))) 0

/-- Trusted bits of a group's pins that a core owns (R529). -/
def trustMask (p : Pins) (g : Nat) : Word :=
  (List.range 16).foldl (fun w k => w ||| bitAt 16 k (pinTrust p (16 * g + k) &&
    (pinOwner p (16 * g + k) == .coreA || pinOwner p (16 * g + k) == .coreB))) 0

/-- A group's 16 bits of a 48-bit word, and the word with them replaced under a mask. -/
def groupGet (v : BitVec 48) (g : Nat) : Word := (v >>> (16 * g)).setWidth 16

def groupPut (v : BitVec 48) (g : Nat) (mask w : Word) : BitVec 48 :=
  let m : BitVec 48 := (mask.setWidth 48) <<< (16 * g)
  (v &&& ~~~m) ||| (((w.setWidth 48) <<< (16 * g)) &&& m)

/-- Pins that name a function (R422). -/
def funcPins (p : Pins) (f : Nat) : List Nat := (List.range 48).filter fun n => pinOwner p n == .func && pinFunc p n == f

/-- Input functions of a port (R421). -/
def portFuncs : PortId → List Nat
  | .s => [1, 2, 4]
  | .q => [5, 6]
  | .u => [7]

/-- A port hears its lines: each input function is fed by exactly one pin, on a powered bank (R414, R422). -/
def portWired (p : Pins) (q : PortId) : Bool :=
  (portFuncs q).all fun f =>
    match funcPins p f with
    | [n] => pinBankOk p n
    | _ => false

/-- A PINS item as it is loaded (R424): reserved bits ignored, a reserved OWNER or FUNC stands for NONE. -/
def pinLoadItem (it : BitVec 32) : BitVec 32 :=
  let o := it.toNat % 8
  let f := it.toNat / 256 % 256
  let bad := decide (o ≥ 5) || (o == 4 && (f == 0 || decide (f > 9)))
  let base := it &&& 0x7FFFFF0F
  if bad then base &&& 0xFFFFFFF8 else base

/-- An item that R424 changes. -/
def pinItemBad (it : BitVec 32) : Bool := pinLoadItem it != it

/-- The pins at image load (R417 to R428). `on`: which of ports S, Q, U run; `ports`: the image has a PORTS section. -/
def pinsLoad (items : List (BitVec 32)) (ports : Bool) (on : PortId → Bool) (p : Pins) : Pins :=
  let p1 := { p with items := vgen 48 fun n => pinLoadItem (items.getD n 0), rcv := !ports, cfgBad := items.any pinItemBad }
  let bits := fun (f : Nat → Bool) => (List.range 48).foldl (fun (w : BitVec 48) n => if f n then w ||| (1#48 <<< n) else w) 0
  let inputs := [1, 2, 4, 5, 6, 7]
  let fn := fun (f : Nat → Bool) => (inputs.filter f).foldl (fun (w : BitVec 9) k => w ||| (1#9 <<< (k - 1))) 0
  let runs := fun (k : Nat) => if k ≤ 4 then on .s else if k ≤ 6 then on .q else on .u
  { p1 with out := bits (fun n => pinInit p1 n), oe := bits (fun n => pinDrives p1 n),
            mapConf := fn fun k => decide ((funcPins p1 k).length ≥ 2),
            mapMiss := fn fun k => (funcPins p1 k).isEmpty && runs k }

end Machine
end Sys2Proof
end

