-- ==== Sys2Proof/Machine/Crypto.lean ====
section
/-!
DEFINITION. The algorithms the spec names: CRC-4, CRC-16, CRC-32, SHA-256, HMAC, AES-128, GCM and ECDSA over P-256.
-/
namespace Sys2Proof
namespace Machine

/-! ### CRCs -/

/-- One bit into a CRC register, most significant bit first. -/
def crcBit {w : Nat} (poly : BitVec w) (r : BitVec w) (b : Bool) : BitVec w :=
  let t := r.msb != b
  let r' := r <<< 1
  if t then r' ^^^ poly else r'

/-- The bits of a number's lowest n places, most significant first. -/
def msbBits : Nat → Nat → List Bool
  | 0, _ => []
  | n + 1, v => v.testBit n :: msbBits n v

/-- CRC-4 over a Hinge transaction's fields: x^4 + x + 1 from 0b1111 (R532). -/
def crc4 (bits : List Bool) : BitVec 4 := bits.foldl (crcBit 0x3#4) 0xF#4

/-- CRC-16 of a porch message: 0x1021 from 0xFFFF (R390). -/
def crc16 (l : List Byte) : Word := (l.flatMap fun b => msbBits 8 b.toNat).foldl (crcBit 0x1021#16) 0xFFFF#16

/-- One bit into a reflected CRC register. -/
def crcBitR (r : BitVec 32) (b : Bool) : BitVec 32 :=
  let t := r.getLsbD 0 != b
  let r' := r >>> 1
  if t then r' ^^^ 0xEDB88320#32 else r'

/-- The CRC-32 of R125: 0x04C11DB7 reflected, from 0xFFFF_FFFF, final XOR 0xFFFF_FFFF. -/
def crc32 (l : List Byte) : BitVec 32 :=
  ((l.flatMap fun b => (List.range 8).map fun k => b.getLsbD k).foldl crcBitR 0xFFFFFFFF#32) ^^^ 0xFFFFFFFF#32

/-! ### SHA-256 and HMAC -/

/-- The whole part of the square root of n, found bit by bit over k bits; and of the cube root. -/
def sqrtBits (n : Nat) : Nat → Nat → Nat
  | 0, acc => acc
  | k + 1, acc => if (acc + 2 ^ k) * (acc + 2 ^ k) ≤ n then sqrtBits n k (acc + 2 ^ k) else sqrtBits n k acc

def cbrtBits (n : Nat) : Nat → Nat → Nat
  | 0, acc => acc
  | k + 1, acc =>
    let t := acc + 2 ^ k
    if t * t * t ≤ n then cbrtBits n k t else cbrtBits n k acc

/-- The first 64 primes. -/
def shaPrimes : List Nat :=
  [2, 3, 5, 7, 11, 13, 17, 19, 23, 29, 31, 37, 41, 43, 47, 53] ++ [59, 61, 67, 71, 73, 79, 83, 89, 97, 101, 103, 107, 109, 113, 127, 131] ++
  [137, 139, 149, 151, 157, 163, 167, 173, 179, 181, 191, 193, 197, 199, 211, 223] ++
  [227, 229, 233, 239, 241, 251, 257, 263, 269, 271, 277, 281, 283, 293, 307, 311]

/-- The round constants: 32 fraction bits of the cube roots of the primes. -/
def shaK : List (BitVec 32) := shaPrimes.map fun p => BitVec.ofNat 32 (cbrtBits (p * 2 ^ 96) 36 0)

/-- The first hash value: 32 fraction bits of the square roots of the first eight primes. -/
def shaH0 : List (BitVec 32) := (shaPrimes.take 8).map fun p => BitVec.ofNat 32 (sqrtBits (p * 2 ^ 64) 36 0)

def rotr (x : BitVec 32) (n : Nat) : BitVec 32 := x.rotateRight n

/-- The message schedule: 48 more words after the 16 of a block; the list grows newest first. -/
def shaExpand : Nat → List (BitVec 32) → List (BitVec 32)
  | 0, w => w
  | n + 1, w =>
    let a := w.getD 1 0
    let b := w.getD 14 0
    let s1 := rotr a 17 ^^^ rotr a 19 ^^^ (a >>> 10)
    let s0 := rotr b 7 ^^^ rotr b 18 ^^^ (b >>> 3)
    shaExpand n ((w.getD 15 0 + s0 + w.getD 6 0 + s1) :: w)

/-- One round on (a, b, c, d, e, f, g, h). -/
def shaRound (v : List (BitVec 32)) (kw : BitVec 32 × BitVec 32) : List (BitVec 32) :=
  match v with
  | [a, b, c, d, e, f, g, h] =>
    let t1 := h + (rotr e 6 ^^^ rotr e 11 ^^^ rotr e 25) + ((e &&& f) ^^^ (~~~e &&& g)) + kw.1 + kw.2
    let t2 := (rotr a 2 ^^^ rotr a 13 ^^^ rotr a 22) + ((a &&& b) ^^^ (a &&& c) ^^^ (b &&& c))
    [t1 + t2, a, b, c, d + t1, e, f, g]
  | _ => v

/-- A list cut into pieces of n, the last one shorter. -/
def chunks {α : Type} (n : Nat) : Nat → List α → List (List α)
  | 0, _ => []
  | f + 1, l => if l.isEmpty then [] else l.take n :: chunks n f (l.drop n)

def beWord (l : List Byte) : BitVec 32 := BitVec.ofNat 32 (ofBe l)

/-- One block. -/
def shaBlock (h : List (BitVec 32)) (blk : List Byte) : List (BitVec 32) :=
  let w := (shaExpand 48 ((chunks 4 16 blk).map beWord).reverse).reverse
  let v := (shaK.zip w).foldl shaRound h
  h.zipWith (· + ·) v

/-- n bytes of a number, most significant first. -/
def beBytes (n v : Nat) : List Byte := (leBytes n v).reverse

/-- SHA-256. -/
def sha256 (m : List Byte) : List Byte :=
  let pad := m ++ [0x80#8] ++ List.replicate ((119 - m.length % 64) % 64) 0 ++ beBytes 8 (8 * m.length)
  ((chunks 64 (pad.length / 64) pad).foldl shaBlock shaH0).flatMap fun w => beBytes 4 w.toNat

/-- HMAC-SHA-256 with a key of at most 64 bytes. -/
def hmac (key m : List Byte) : List Byte :=
  let k := padTo 64 key
  sha256 (k.map (· ^^^ 0x5C) ++ sha256 (k.map (· ^^^ 0x36) ++ m))

/-! ### AES-128 -/

/-- Multiplication by x in GF(2^8). -/
def xtime (b : Byte) : Byte := if b.msb then (b <<< 1) ^^^ 0x1B else b <<< 1

/-- Multiplication in GF(2^8). -/
def gmul : Nat → Byte → Byte → Byte
  | 0, _, _ => 0
  | n + 1, a, b => (if b.getLsbD 0 then a else 0) ^^^ gmul n (xtime a) (b >>> 1)

def gf (a b : Byte) : Byte := gmul 8 a b

/-- a^254, the inverse of a (0 for 0). -/
def gfInv (a : Byte) : Byte :=
  let a2 := gf a a
  let a4 := gf a2 a2
  let a8 := gf a4 a4
  let a16 := gf a8 a8
  let a32 := gf a16 a16
  let a64 := gf a32 a32
  let a128 := gf a64 a64
  gf (gf (gf a2 a4) (gf a8 a16)) (gf (gf a32 a64) a128)

/-- The byte substitution and its inverse. -/
def sbox (a : Byte) : Byte :=
  let b := gfInv a
  b ^^^ b.rotateLeft 1 ^^^ b.rotateLeft 2 ^^^ b.rotateLeft 3 ^^^ b.rotateLeft 4 ^^^ 0x63

def sboxInv (a : Byte) : Byte := gfInv (a.rotateLeft 1 ^^^ a.rotateLeft 3 ^^^ a.rotateLeft 6 ^^^ 0x05)

def xorL (a b : List Byte) : List Byte := a.zipWith (· ^^^ ·) b

/-- The next round key. -/
def aesNextKey (k : List Byte) (rc : Byte) : List Byte :=
  let t := match k.drop 12 with
    | [a, b, c, d] => [sbox b ^^^ rc, sbox c, sbox d, sbox a]
    | l => l
  let w0 := xorL (k.take 4) t
  let w1 := xorL ((k.drop 4).take 4) w0
  let w2 := xorL ((k.drop 8).take 4) w1
  let w3 := xorL (k.drop 12) w2
  w0 ++ w1 ++ w2 ++ w3

/-- The eleven round keys. -/
def aesKeys (k : List Byte) : List (List Byte) :=
  ([0x01, 0x02, 0x04, 0x08, 0x10, 0x20, 0x40, 0x80, 0x1B, 0x36] : List Byte).foldl
    (fun l rc => l ++ [aesNextKey (l.getLastD k) rc]) [k]

def pick (l : List Byte) (is : List Nat) : List Byte := is.map fun i => l.getD i 0

def shiftRows (l : List Byte) : List Byte := pick l [0, 5, 10, 15, 4, 9, 14, 3, 8, 13, 2, 7, 12, 1, 6, 11]
def shiftRowsInv (l : List Byte) : List Byte := pick l [0, 13, 10, 7, 4, 1, 14, 11, 8, 5, 2, 15, 12, 9, 6, 3]

/-- A column times a circulant matrix given by its first row. -/
def mixCol (m : List Byte) (c : List Byte) : List Byte :=
  (List.range 4).map fun i => ((List.range 4).map fun j => gf (m.getD ((j + 4 - i) % 4) 0) (c.getD j 0)).foldl (· ^^^ ·) 0

def mixColumns (m : List Byte) (l : List Byte) : List Byte := (chunks 4 4 l).flatMap (mixCol m)

/-- One block encrypted. -/
def aesEnc (key blk : List Byte) : List Byte :=
  let ks := aesKeys key
  let s0 := xorL blk (ks.getD 0 [])
  let s9 := (List.range 9).foldl (fun s r => xorL (mixColumns [2, 3, 1, 1] (shiftRows (s.map sbox))) (ks.getD (r + 1) [])) s0
  xorL (shiftRows (s9.map sbox)) (ks.getD 10 [])

/-- One block decrypted. -/
def aesDec (key blk : List Byte) : List Byte :=
  let ks := aesKeys key
  let s0 := (shiftRowsInv (xorL blk (ks.getD 10 []))).map sboxInv
  let s9 := (List.range 9).foldl (fun s r =>
    (shiftRowsInv (mixColumns [0x0E, 0x0B, 0x0D, 0x09] (xorL s (ks.getD (9 - r) [])))).map sboxInv) s0
  xorL s9 (ks.getD 0 [])

/-- ECB over whole blocks. -/
def aesEcb (f : List Byte → List Byte → List Byte) (key m : List Byte) : List Byte :=
  (chunks 16 (m.length / 16) m).flatMap (f key)

/-! ### GCM with a 96-bit IV (R175) -/

/-- Multiplication in GF(2^128) as GCM orders its bits. -/
def ghMul : Nat → BitVec 128 → BitVec 128 → BitVec 128 → BitVec 128
  | 0, z, _, _ => z
  | n + 1, z, v, x =>
    ghMul n (if x.msb then z ^^^ v else z) (if v.getLsbD 0 then (v >>> 1) ^^^ (0xE1#8 ++ 0#120) else v >>> 1) (x <<< 1)

def ghBlock (h y : BitVec 128) (b : List Byte) : BitVec 128 := ghMul 128 0 h (y ^^^ BitVec.ofNat 128 (ofBe (padTo 16 b)))

/-- The counter block n for an IV. -/
def gcmCtr (iv : List Byte) (n : Nat) : List Byte := iv ++ beBytes 4 (n % 2 ^ 32)

/-- A body decrypted, or `none` where its tag fails. -/
def gcmOpen (key iv aad body tag : List Byte) : Option (List Byte) :=
  let h := BitVec.ofNat 128 (ofBe (aesEnc key (List.replicate 16 0)))
  let y1 := (chunks 16 (aad.length / 16 + 1) aad).foldl (ghBlock h) 0
  let y2 := (chunks 16 (body.length / 16 + 1) body).foldl (ghBlock h) y1
  let y3 := ghBlock h y2 (beBytes 8 (8 * aad.length) ++ beBytes 8 (8 * body.length))
  let t := xorL (aesEnc key (gcmCtr iv 1)) (beBytes 16 y3.toNat)
  if t = tag then
    some ((chunks 16 (body.length / 16 + 1) body).zipIdx.flatMap fun (b, i) => xorL b (aesEnc key (gcmCtr iv (i + 2))))
  else none

/-! ### ECDSA over P-256 -/

def p256P : Nat := 0xFFFFFFFF00000001000000000000000000000000FFFFFFFFFFFFFFFFFFFFFFFF
def p256N : Nat := 0xFFFFFFFF00000000FFFFFFFFFFFFFFFFBCE6FAADA7179E84F3B9CAC2FC632551
def p256B : Nat := 0x5AC635D8AA3A93E7B3EBBD55769886BC651D06B0CC53B0F63BCE3C3E27D2604B
def p256Gx : Nat := 0x6B17D1F2E12C4247F8BCE6E563A440F277037D812DEB33A0F4A13945D898C296
def p256Gy : Nat := 0x4FE342E2FE1A7F9B8EE7EB4A7C0F9E162BCE33576B315ECECBB6406837BF51F5

/-- b^e mod m over the lowest k bits of e. -/
def powMod (m : Nat) : Nat → Nat → Nat → Nat
  | 0, _, _ => 1 % m
  | k + 1, b, e => (if e % 2 = 1 then b else 1) * powMod m k (b * b % m) (e / 2) % m

def invMod (m a : Nat) : Nat := powMod m 256 (a % m) (m - 2)

def subMod (m a b : Nat) : Nat := (a + (m - b % m)) % m

/-- A point of the curve; `none` is the point at infinity. -/
abbrev Point := Option (Nat × Nat)

def ecAdd (p q : Point) : Point :=
  match p, q with
  | none, _ => q
  | _, none => p
  | some (x1, y1), some (x2, y2) =>
    let m := p256P
    if x1 = x2 ∧ (y1 + y2) % m = 0 then none
    else
      let l := if x1 = x2 then subMod m (3 * x1 * x1) 3 * invMod m (2 * y1) % m
        else subMod m y2 y1 * invMod m (subMod m x2 x1) % m
      let x3 := subMod m (subMod m (l * l) x1) x2
      some (x3, subMod m (l * subMod m x1 x3) y1)

/-- k times a point, over the lowest n bits of k. -/
def ecMul : Nat → Nat → Point → Point
  | 0, _, _ => none
  | n + 1, k, p => let r := ecMul n (k / 2) (ecAdd p p); if k % 2 = 1 then ecAdd p r else r

/-- A public key lies on the curve. -/
def onCurve (x y : Nat) : Bool :=
  decide (x < p256P) && decide (y < p256P) && (y * y % p256P == subMod p256P (x * x % p256P * x + p256B) (3 * x))

/-- ECDSA verification of a 32-byte digest. -/
def ecdsaVerify (qx qy r s : Nat) (digest : List Byte) : Bool :=
  if onCurve qx qy && decide (0 < r ∧ r < p256N) && decide (0 < s ∧ s < p256N) then
    let w := invMod p256N s
    let e := ofBe digest
    match ecAdd (ecMul 256 (e * w % p256N) (some (p256Gx, p256Gy))) (ecMul 256 (r * w % p256N) (some (qx, qy))) with
    | some (x, _) => x % p256N == r
    | none => false
  else false

end Machine
end Sys2Proof
end

