-- ==== Sys2Proof/Machine/Security.lean ====
section
/-!
DEFINITION. OTP, the version floor, the cryptographic engines and the random source (20_security_hinge.md).
-/
namespace Sys2Proof
namespace Machine

/-! ### OTP (R520, R524) -/

/-- A programmed word at a byte offset, and whether any word of a field is programmed. -/
def otpWord (x : Sec) (off : Nat) : Option Word := (x.otp.find? fun e => e.1 == off).map (·.2)

def otpAny (x : Sec) (off n : Nat) : Bool := x.otp.any fun e => decide (off ≤ e.1) && decide (e.1 < off + n)

/-- The bytes of a field; an unprogrammed word reads 0x0000. -/
def otpField (x : Sec) (off n : Nat) : List Byte :=
  (List.range (n / 2)).flatMap fun k =>
    let w := (otpWord x (off + 2 * k)).getD 0
    [loB w, hiB w]

def otpProgram (x : Sec) (off : Nat) (w : Word) : Sec :=
  if (otpWord x off).isSome then x else { x with otp := x.otp ++ [(off, w)] }

def keyHash (x : Sec) : List Byte := otpField x 0x020 32
def keyHashSet (x : Sec) : Bool := otpAny x 0x020 32
def dbgHash (x : Sec) : List Byte := otpField x 0x040 32
def dbgHashSet (x : Sec) : Bool := otpAny x 0x040 32
def imgKey (x : Sec) : List Byte := otpField x 0x060 16
def imgKeySet (x : Sec) : Bool := otpAny x 0x060 16
def logKey (x : Sec) : List Byte := otpField x 0x070 16

/-- A FLOOR entry, where it is programmed. -/
def floorEntry (x : Sec) (i : Nat) : Option (BitVec 32) :=
  if otpAny x (0x080 + 4 * i) 4 then some (BitVec.ofNat 32 (ofLe (otpField x (0x080 + 4 * i) 4))) else none

/-- The version floor: the highest-numbered programmed entry, or 0. -/
def verFloor (x : Sec) : BitVec 32 :=
  (List.range 16).foldl (fun f i => (floorEntry x i).getD f) 0

def floorFree (x : Sec) : Option Nat := (List.range 16).find? fun i => (floorEntry x i).isNone

/-- A write of SEC_FLRCMD (R524). -/
def floorCmd (v : Word) (s : State) : State :=
  if v ≠ 0xF1A3 ∨ s.sec.flrBusy.isSome then s
  else if s.img.secVer.toNat ≤ (verFloor s.sec).toNat then { s with sec.flr := 2 }
  else match floorFree s.sec with
    | some i => { s with sec.flrBusy := some (i, s.img.secVer) }
    | none => { s with sec.flr := 3 }

/-- FLOOR_RAISE. -/
def execFloorRaise (_who : Who) (v : BitVec 16) (s : State) : Host.Outcome State Fault Refusal := .next (floorCmd v s)

/-- FLOOR_PROGRAM_END (R524). -/
def execFloorProgramEnd (s : State) : Host.Outcome State Fault Refusal :=
  .next <|
    match s.sec.flrBusy with
    | some (i, v) =>
      let x := otpProgram (otpProgram s.sec (0x080 + 4 * i) (v.setWidth 16)) (0x082 + 4 * i) ((v >>> 16).setWidth 16)
      { s with sec := { x with flrBusy := none, flr := 1 } }
    | none => s

/-! ### Engines (R525 to R527) -/

def Sec.jobs (x : Sec) : CoreId → JobSet
  | .a => x.jobA
  | .b => x.jobB

def Sec.setJobs (x : Sec) (c : CoreId) (j : JobSet) : Sec :=
  match c with
  | .a => { x with jobA := j }
  | .b => { x with jobB := j }

def engUser : CoreId → EngUser
  | .a => .coreA
  | .b => .coreB

/-- A core's job set changes between WAIT and BUSY with the engines. -/
def Sec.setSt (x : Sec) (u : EngUser) (st : BitVec 4) : Sec :=
  match u with
  | .coreA => { x with jobA := { x.jobA with st := st } }
  | .coreB => { x with jobB := { x.jobB with st := st } }
  | _ => x

/-- A user asks for the engines: it takes them, or waits. -/
def engAsk (u : EngUser) (x : Sec) : Sec :=
  match x.engine with
  | none => { (x.setSt u 2) with engine := some u }
  | some _ => { (x.setSt u 1) with waiters := x.waiters ++ [u] }

/-- The next user: R527's order, where a store-service job or a session check that began to wait after the Vault comes after it. -/
def engNext (l : List EngUser) : Option EngUser :=
  let front := l.takeWhile fun u => u != .vault
  if l.contains .vault then
    if front.contains .service then some .service else if front.contains .session then some .session else some .vault
  else [EngUser.boot, .service, .session, .coreA, .coreB].find? fun u => l.contains u

/-- The engines are released and taken by the next user. -/
def engDone (x : Sec) : Sec :=
  match engNext x.waiters with
  | some u => { (x.setSt u 2) with engine := some u, waiters := x.waiters.erase u }
  | none => { x with engine := none }

/-- Buffers of a job: (address, length) of SRC, KEY and DST (R525). -/
def jobBuffers (op : Nat) (src len dst key : Nat) : List (Nat × Nat) :=
  if op = 0 then [(src, len), (dst, 32)]
  else if op = 1 then [(src, len), (key, 32), (dst, 32)]
  else if op ≤ 3 then [(src, len), (key, 16), (dst, len)]
  else [(src, 32), (key, 64), (dst, 64)]

/-- LEN rules (R525). -/
def jobLenOk (op len : Nat) : Bool :=
  if op ≤ 1 then decide (len ≤ 4096)
  else if op ≤ 3 then decide (16 ≤ len) && decide (len ≤ 4096) && len % 16 == 0
  else true

/-- A write of CRY_OP with GO = 1 (R525, R526). Where a job breaks both the buffer rule and the LEN rule the spec does not say
which of the two CRY_ST reads. -/
def jobStart (c : CoreId) (v : Word) (s : State) : State :=
  let j := s.sec.jobs c
  if j.st = 1 || j.st = 2 then { s with sec := s.sec.setJobs c { j with op := v.setWidth 3 } }
  else
    let j := { j with op := v.setWidth 3 }
    let op := j.op.toNat
    let addrBad := (jobBuffers op j.src.toNat j.len.toNat j.dst.toNat j.key.toNat).any fun b => decide (b.1 + b.2 > 0xD000)
    let lenBad := !jobLenOk op j.len.toNat
    if op > 4 then { s with sec := s.sec.setJobs c { j with st := 8 } }
    else if addrBad && lenBad then
      { s with free := s.free + 1, sec := s.sec.setJobs c { j with st := if Config.freeBit s.free then 6 else 7 } }
    else if addrBad then { s with sec := s.sec.setJobs c { j with st := 6 } }
    else if lenBad then { s with sec := s.sec.setJobs c { j with st := 7 } }
    else { s with sec := engAsk (engUser c) (s.sec.setJobs c { j with job := some (j.op, j.src, j.len, j.dst, j.key) }) }

/-- A write of CRY_OP. -/
def cryOpWrite (c : CoreId) (v : Word) (s : State) : State :=
  if v.getLsbD 15 then jobStart c v s else { s with sec := s.sec.setJobs c { s.sec.jobs c with op := v.setWidth 3 } }

/-- CRYPTO_JOB_START. -/
def execCryptoJobStart (c : CoreId) (v : BitVec 16) (s : State) : Host.Outcome State Fault Refusal := .next (cryOpWrite c v s)

/-- The result of a core's job: what DST receives, and CRY_ST. -/
def jobResult (op : Nat) (src key dst : List Byte) : Option (List Byte) × BitVec 4 :=
  if op = 0 then (some (sha256 src), 3)
  else if op = 1 then (some (hmac key src), 3)
  else if op = 2 then (some (aesEcb aesEnc key src), 3)
  else if op = 3 then (some (aesEcb aesDec key src), 3)
  else (none, if ecdsaVerify (ofLe (key.take 32)) (ofLe (key.drop 32)) (ofLe (dst.take 32)) (ofLe (dst.drop 32)) src then 4 else 5)

/-- A core's job ends: buffers are read as LDB would read them, DST is written (R526). -/
def coreJobEnd (c : CoreId) (s : State) : State :=
  match (s.sec.jobs c).job with
  | some (op, src, len, dst, key) =>
    let n := if op = 4 then 32 else len.toNat
    let kn := if op = 0 then 0 else if op = 1 then 32 else if op = 4 then 64 else 16
    let r := Reader.core c
    let (sb, s) := sramReadL r src.toNat n s
    let (kb, s) := sramReadL r key.toNat kn s
    let (db, s) := sramReadL r dst.toNat (if op = 4 then 64 else 0) s
    let (out, st) := jobResult op.toNat sb kb db
    let s := match out with
      | some l => sramWriteL r dst.toNat l s
      | none => s
    { s with sec := s.sec.setJobs c { s.sec.jobs c with st := st, job := none } }
  | none => s

/-! ### Random source (R528) -/

/-- What RNG_DATA returns, and the source after the read. -/
def rngTake (x : Sec) : Word × Sec :=
  if x.rngReady && !x.rngHalt then (x.rngHeld, { x with rngReady := false }) else (0, x)

/-- RNG_READ. -/
def execRngRead (s : State) : Host.Outcome State Fault Refusal :=
  .next <| ({ s with sec := (rngTake s.sec).2 }).reply (.word (rngTake s.sec).1)

/-- RNG_HEALTH_FAIL. -/
def execRngHealthFail (s : State) : Host.Outcome State Fault Refusal :=
  .next { s with sec.rngFault := true, sec.rngHalt := true, sec.rngReady := false, sec.rngRestart := false }

/-- A write of RNG_STAT. -/
def rngStatWrite (v : Word) (s : State) : State :=
  { s with sec.rngFault := s.sec.rngFault && !v.getLsbD 1, sec.rngRestart := s.sec.rngRestart || (v.getLsbD 2 && s.sec.rngHalt) }

/-- RNG_RESTART. -/
def execRngRestart (_who : Who) (s : State) : Host.Outcome State Fault Refusal := .next (rngStatWrite 4 s)

/-- RNG_REFILL_END: a fresh word stands ready; after a failed test only once a restart has taken its samples. -/
def execRngRefillEnd (w : BitVec 16) (s : State) : Host.Outcome State Fault Refusal :=
  .next <|
    if s.mainOn && !s.sec.rngReady && (!s.sec.rngHalt || s.sec.rngRestart) then
      { s with sec.rngReady := true, sec.rngHeld := w, sec.rngHalt := false, sec.rngRestart := false }
    else s

/-! ### Sleep (R526, R130) -/

/-- Entry to SHUTTERED, BARRED or SEALED: jobs are abandoned, job sets and RNG_STAT at reset values after the wake. -/
def Sec.deepSleep (x : Sec) : Sec :=
  { x with jobA := JobSet.reset, jobB := JobSet.reset, engine := none, waiters := [], rngReady := false, rngFault := false,
           rngHalt := false, rngRestart := false, rngHeld := 0 }

/-! ### Registers io:0x460 to 0x47F -/

def Lifecycle.code : Lifecycle → BitVec 2
  | .factory => 0
  | .locked => 1
  | .retired => 2

def isHalted (k : Core) : Bool :=
  match k.st with
  | .halted _ => true
  | _ => false

def jobVal (j : JobSet) (k : Nat) : Word :=
  if k = 0 then j.op.setWidth 16
  else if k = 1 then j.src
  else if k = 2 then j.len
  else if k = 3 then j.dst
  else if k = 4 then j.key
  else j.st.setWidth 16

def secVal (a : Nat) (s : State) : Option Word :=
  let x := s.sec
  if a = 0x460 then some ((Lifecycle.code x.lc).setWidth 16)
  else if a = 0x461 then some (bitAt 16 0 (keyHashSet x) ||| bitAt 16 1 (dbgHashSet x) ||| bitAt 16 2 (imgKeySet x) |||
    bitAt 16 3 (otpAny x 0x070 16) ||| bitAt 16 4 true ||| bitAt 16 5 (otpAny x 0x080 64))
  else if 0x462 ≤ a ∧ a < 0x466 then some ((x.uid >>> (16 * (a - 0x462))).setWidth 16)
  else if a = 0x466 then some ((verFloor x).setWidth 16)
  else if a = 0x467 then some x.floorHiCap
  else if a = 0x468 then some 0
  else if a = 0x469 then some (fieldAt 16 0 x.flr ||| bitAt 16 2 x.flrBusy.isSome)
  else if a = 0x46A then some (rngTake x).1
  else if a = 0x46B then some (bitAt 16 0 x.rngReady ||| bitAt 16 1 x.rngFault)
  else if 0x46C ≤ a ∧ a < 0x472 then some (jobVal x.jobA (a - 0x46C))
  else if 0x472 ≤ a ∧ a < 0x478 then some (jobVal x.jobB (a - 0x472))
  else if a = 0x478 then some (bitAt 16 0 s.hng.session ||| fieldAt 16 1 s.hng.rights ||| bitAt 16 6 (isHalted s.coreA) |||
    bitAt 16 7 (isHalted s.coreB) ||| bitAt 16 8 s.coreA.sched ||| bitAt 16 9 s.coreB.sched)
  else if a = 0x47A then some (s.coreA.fcnt.setWidth 16)
  else if a = 0x47B then some s.coreA.fcntHiCap
  else if a = 0x47C then some (s.coreB.fcnt.setWidth 16)
  else if a = 0x47D then some s.coreB.fcntHiCap
  else none

/-- A read of FCNT_LO captures the high word (R543). -/
def fcntCapture (c : CoreId) (s : State) : State :=
  s.setCore c { s.core c with fcntHiCap := ((s.core c).fcnt >>> 16).setWidth 16 }

/-- FETCH_COUNT_CAPTURE. -/
def execFetchCountCapture (c : CoreId) (s : State) : Host.Outcome State Fault Refusal :=
  .next <| (fcntCapture c s).reply (.word ((s.core c).fcnt.setWidth 16))

def secSide (a : Nat) (s : State) : State :=
  if a = 0x466 then { s with sec.floorHiCap := ((verFloor s.sec) >>> 16).setWidth 16 }
  else if a = 0x46A then { s with sec := (rngTake s.sec).2 }
  else if a = 0x47A then fcntCapture .a s
  else if a = 0x47C then fcntCapture .b s
  else s

def jobPut (c : CoreId) (k : Nat) (v : Word) (s : State) : State :=
  let j := s.sec.jobs c
  if k = 0 then cryOpWrite c v s
  else if k = 1 then { s with sec := s.sec.setJobs c { j with src := v } }
  else if k = 2 then { s with sec := s.sec.setJobs c { j with len := v } }
  else if k = 3 then { s with sec := s.sec.setJobs c { j with dst := v } }
  else if k = 4 then { s with sec := s.sec.setJobs c { j with key := v } }
  else s

def secPut (a : Nat) (v : Word) (s : State) : State :=
  if a = 0x468 then floorCmd v s
  else if a = 0x46B then rngStatWrite v s
  else if 0x46C ≤ a ∧ a < 0x472 then jobPut .a (a - 0x46C) v s
  else if 0x472 ≤ a ∧ a < 0x478 then jobPut .b (a - 0x472) v s
  else s

end Machine
end Sys2Proof
end

