-- ==== Sys2Proof/Machine/Vault.lean ====
section
/-!
DEFINITION. The Vault: records and offers, pages, programs, spares, wear, gaps, the chain, mount and last gasp (13_vault.md).
-/
namespace Sys2Proof
namespace Machine

/-! ### The store and the retirement table (R358, R359, R369) -/

/-- Byte address of a user page, of the spare it has moved to, of a spare. -/
def spareAt (n : Nat) : Nat := 256 * (16384 + n)

def pageAt (t : Retire) (p : BitVec 14) : Nat :=
  match t.moved.find? (fun e => e.1 == p) with
  | some e => spareAt e.2
  | none => 256 * p.toNat

/-- A byte of a user page as the window shows it: 0xFF on a bad page (R292, R369). -/
def pageByte (v : Vault) (p : BitVec 14) (b : Nat) : Byte :=
  if v.tbl.bad.contains p then 0xFF else Bytes.read 0xFF v.store (pageAt v.tbl p + b)

/-- The substitute pages still free: S2 to S511 without those in use and those that failed. -/
def spareFree (t : Retire) (n : Nat) : Bool := !t.failed.contains n && !(t.moved.any fun e => e.2 == n)

def freeSpares (t : Retire) : Nat := 510 - (t.failed.filter fun n => decide (2 ≤ n)).length - t.moved.length

def pickSpare (t : Retire) (used : List Nat) : Option Nat :=
  (List.range 510).findSome? fun k => if spareFree t (k + 2) && !used.contains (k + 2) then some (k + 2) else none

/-- The next user page after p that is not bad. -/
def nextGood (t : Retire) : Nat → BitVec 14 → BitVec 14
  | 0, p => p
  | n + 1, p => if t.bad.contains (p + 1) then nextGood t n (p + 1) else p + 1

/-- Free pages between tail and head (R359). -/
def freePages (v : Vault) : Nat :=
  if v.brim then 0 else if v.tail = v.tbl.head then 16384 else (v.tbl.head - v.tail).toNat

/-- The head and table changes are to be written into both copies. -/
def tableDirty (v : Vault) : Vault := if v.tblTodo.length ≥ 2 then v else { v with tblTodo := v.tblTodo ++ [false, true] }

/-! ### Records (R360 to R362) -/

/-- Bytes in the queue. -/
def vqFill (v : Vault) : Nat := (v.queue.map fun r => r.bytes.length).foldl (· + ·) 0

/-- The chain is written: CHAIN is 1 and a log key is programmed (R375). -/
def chainOn (s : State) : Bool := s.vlt.cfg.chain && otpAny s.sec 0x070 16 && s.sec.lc != .retired

def recordBytes (type : Byte) (stream : BitVec 4) (flags : Byte) (seq : BitVec 32) (body : List Byte) : List Byte :=
  [type, stream.setWidth 8, BitVec.ofNat 8 (8 + body.length), flags] ++ leBytes 4 seq.toNat ++ body

/-- A record is accepted: it takes the next number and its place in the queue and in the chain's segment (R362, R376). -/
def vAccept (type : Byte) (stream : BitVec 4) (flags : Byte) (body : List Byte) (copying unsealed : Bool) (s : State) : State :=
  let v := s.vlt
  let bytes := recordBytes type stream flags v.seq body
  let keep := chainOn s && type != 0x85
  { s with vlt := { v with
      queue := v.queue ++ [{ seq := v.seq, bytes := bytes, tick := s.crs.tick, copying := copying, unsealed := unsealed, prog := none }]
      seg := if keep then v.seg ++ [(v.seq, bytes)] else v.seg
      seq := v.seq + 1
      acc := satInc v.acc } }

/-- The bytes of an accepted record replaced from its body on: a copy has ended, or a value is computed. -/
def patchBytes (off : Nat) (l : List Byte) (old : List Byte) : List Byte := old.take off ++ l ++ old.drop (off + l.length)

def vPatch (seq : BitVec 32) (off : Nat) (l : List Byte) (v : Vault) : Vault :=
  let f := fun (e : BitVec 32 × List Byte) => if e.1 = seq then (e.1, patchBytes off l e.2) else e
  { v with queue := v.queue.map (fun r => if r.seq = seq then { r with bytes := patchBytes off l r.bytes, copying := false, unsealed := false } else r)
           seg := v.seg.map f
           macs := v.macs.map fun m => { m with seg := m.seg.map f } }

/-! ### Gaps (R361, R372) -/

def GapCause.code : GapCause → Byte
  | .shed => 0
  | .drain => 1
  | .entry => 2
  | .mount => 3
  | .full => 4

/-- A loss joins the pending gap of its cause, or opens one. -/
def addGap (cause : GapCause) (stream : BitVec 4) (s : State) : State :=
  let v := s.vlt
  let t : BitVec 32 := s.crs.tick.setWidth 32
  if v.gaps.any (fun g => g.cause == cause) then
    { s with vlt.gaps := v.gaps.map fun g =>
        if g.cause = cause then { g with lost := g.lost + 1, streams := setBit g.streams stream.toNat true, last := t } else g }
  else
    { s with vlt.gaps := v.gaps ++ [{ cause := cause, lost := 1, streams := bitAt 16 stream.toNat true, seqRef := v.seq - 1, first := t, last := t }] }

def gapBody (g : Gap) : List Byte :=
  [g.cause.code, 0] ++ leBytes 2 (satOf 16 g.lost).toNat ++ leBytes 2 g.streams.toNat ++ [0, 0] ++ leBytes 4 g.seqRef.toNat ++
    leBytes 4 g.first.toNat ++ leBytes 4 g.last.toNat

/-- A sleep entry that sheds offers: one to a state whose entry drains (R364). -/
def drains (s : State) : Bool :=
  match s.pwr.phase with
  | .entering .latched => false
  | .entering _ => true
  | _ => false

/-- The first pending gap is written when its conditions hold (R372). -/
def writeGap (s : State) : State :=
  match s.vlt.gaps with
  | g :: l =>
    let due := match s.vlt.gapAt with
      | some t => decide (t + 16000 ≤ s.now16)
      | none => true
    if due && s.vlt.present && !s.vlt.mounting && s.awake && decide (s.vlt.wear.toNat < 2) && (s.vlt.gasp == .idle || s.vlt.gasp == .queue) &&
        decide (vqFill s.vlt + 28 ≤ 8192) then
      let s := vAccept 0x80 0 0 (gapBody g) false false { s with vlt.gaps := l }
      { s with vlt.gapAt := some s.now16, vlt.gapCnt := satInc s.vlt.gapCnt }
    else s
  | [] => s

/-! ### Offers (R363 to R373) -/

/-- What becomes of an offer. -/
inductive Verdict where
  | accepted (seq : BitVec 32) | shed | thinned | refused (why : BitVec 4)
  deriving DecidableEq, Repr

/-- The first reason of R364 that holds; `bad` is reason 2 or 3 of an append, else 0. -/
def refusal (s : State) (stream : BitVec 4) (bad : BitVec 4) : BitVec 4 :=
  let v := s.vlt
  if !v.cfg.strm.getLsbD stream.toNat then 1
  else if bad != 0 then bad
  else if v.wear.toNat ≥ 2 then 4
  else if v.cfg.stop && freePages v ≤ 1 then 5
  else if v.mounting then 6
  else if s.por.lgActive then 7
  else if !v.present then 8
  else 0

/-- A record that does not fit is shed (R371). -/
def shedOffer (cause : GapCause) (stream : BitVec 4) (s : State) : State :=
  addGap cause stream { s with vlt.shed := satInc s.vlt.shed }

/-- The overload rules: thinning at the mark, then room (R365, R371, R373). `room` is what the whole record may take. -/
def overload (type : Byte) (stream : BitVec 4) (flags : Byte) (room : Nat) (body : List Byte) (copying : Bool) (s : State) :
    Verdict × State :=
  let v := s.vlt
  let thinnable := v.cfg.thin && v.cfg.thins.getLsbD stream.toNat && decide (7056 ≤ vqFill v)
  let n := if v.cfg.thinN.toNat < 2 then 2 else v.cfg.thinN.toNat
  let c := vat 0 v.thinCtr stream.toNat + 1
  let s := if thinnable then { s with vlt.thinCtr := v.thinCtr.set! stream.toNat c } else s
  if thinnable && c % n != 0 then (.thinned, { s with vlt.thinned := satInc s.vlt.thinned })
  else if vqFill v + room ≤ 8064 then
    (.accepted v.seq, vAccept type stream (if thinnable then flags ||| 1 else flags) body copying false s)
  else (.shed, shedOffer .shed stream s)

/-- An offer of sources 2 to 6 (R363, R364, R378). `core`: refusals are answered to a core, else a mount sheds it. -/
def offer (core : Bool) (type : Byte) (stream : BitVec 4) (flags : Byte) (bad : BitVec 4) (room : Nat) (body : List Byte) (copying : Bool)
    (s : State) : Verdict × State :=
  if drains s then (.shed, shedOffer .entry stream s)
  else
    let why := refusal s stream bad
    if why = 0 then overload type stream flags room body copying (writeGap s)
    else if why = 5 then (.refused 5, addGap .full stream s)
    else if why = 6 && !core then (.shed, shedOffer .mount stream s)
    else (.refused why, s)

/-- An offer of the engine itself (R361, R365): it takes the reserved room; one that does not fit is shed. -/
def offerEngine (type : Byte) (body : List Byte) (s : State) : State :=
  if s.vlt.wear = 3 || !s.vlt.present then s
  else if vqFill s.vlt + 8 + body.length ≤ 8192 then vAccept type 0 0 body false false s
  else shedOffer .shed 0 s

/-- A CAN record's body (R361). -/
def canBody (f : CanFrame) : List Byte :=
  leBytes 4 (f.id.toNat + (if f.ide then 2 ^ 29 else 0) + (if f.fdf then 2 ^ 30 else 0) + (if f.rtr then 2 ^ 31 else 0)) ++
    [f.dlc.setWidth 8 ||| bitAt 8 4 f.brs ||| bitAt 8 5 f.esi, BitVec.ofNat 8 f.data.length] ++ leBytes 2 f.us.toNat ++
    leBytes 4 (f.tick.toNat % 2 ^ 32) ++ f.data

/-- A LOG action of channel 0 offers the frame (R363). -/
def offerCan (f : CanFrame) (s : State) : State :=
  (offer false 0x83 s.vlt.cfg.srcCan 0 0 (8 + (canBody f).length) (canBody f) false s).2

/-- A trigger line asserts (R323, R363): VT0 or VT1. -/
def offerTrig (n : Nat) (s : State) : State :=
  let body := [BitVec.ofNat 8 n, 0] ++ leBytes 2 s.crs.subtick.toNat ++ leBytes 4 (s.crs.tick.toNat % 2 ^ 32) ++ leBytes 8 s.mrt.line.toNat
  (offer false 0x84 (if n = 0 then s.vlt.cfg.srcVt0 else s.vlt.cfg.srcVt1) 0 0 24 body false s).2

/-! ### The chain (R375 to R377) -/

/-- A CHAIN record is offered, its value still to be computed (R376). Where it covers no record, the first number is left open. -/
def offerChain (s : State) : State :=
  if chainOn s && s.vlt.wear != 3 && s.vlt.present && decide (vqFill s.vlt + 32 ≤ 8192) then
    let v := s.vlt
    let (first, s) : Nat × State := match v.seg with
      | e :: _ => (e.1.toNat, s)
      | [] => ((Config.freeWord s.free).toNat + 65536 * (Config.freeWord (s.free + 1)).toNat, { s with free := s.free + 2 })
    let head := leBytes 4 first ++ leBytes 2 (satOf 16 v.seg.length).toNat ++ [0, 0]
    let job : MacJob := { seq := v.seq, seg := v.seg, head := recordBytes 0x85 0 0 v.seq (head ++ List.replicate 16 0) |>.take 16, gasp := false }
    let s := vAccept 0x85 0 0 (head ++ List.replicate 16 0) false true s
    { s with vlt := { s.vlt with seg := [], chainPages := 0, macs := s.vlt.macs ++ [job] }, sec := engAsk .vault s.sec }
  else s

/-- The LASTGASP record (R361, R377). -/
def offerGasp (s : State) : State :=
  let v := s.vlt
  let res := if s.por.cfg.lgRes = 0 then 2000 else s.por.cfg.lgRes.toNat
  let head := leBytes 4 v.gaspLedger.toNat ++ leBytes 2 res ++ leBytes 2 (divOpenN v.gaspMv.toNat 10) ++ leBytes 4 (s.crs.tick.toNat % 2 ^ 32)
  let body := head ++ List.replicate 16 0
  if chainOn s then
    let job : MacJob := { seq := v.seq, seg := [], head := recordBytes 0x86 0 0 v.seq body |>.take 20, gasp := true }
    let s := vAccept 0x86 0 0 body false true s
    { s with vlt := { s.vlt with macs := s.vlt.macs ++ [job] }, sec := engAsk .vault s.sec }
  else vAccept 0x86 0 0 body false false s

/-- The engines finish the Vault's oldest value (R376, R377, R527); once the part is RETIRED the key is not used (R522), and the value
is open. -/
def vaultMacEnd (s : State) : State :=
  match s.vlt.macs with
  | m :: l =>
    let msg := s.vlt.chainVal ++ (m.seg.flatMap fun e => e.2) ++ m.head
    let (mac, s) := if s.sec.lc = .retired then freeBytes 16 s else ((hmac (logKey s.sec) msg).take 16, s)
    let v := vPatch m.seq m.head.length mac { s.vlt with macs := l }
    { s with vlt := if m.gasp then v else { v with chainVal := mac } }
  | [] => s

/-! ### Pages and programs (R367 to R370) -/

/-- The records the next page would take, and whether it would be complete (R367). -/
def fillPage : Nat → List VRec → List VRec × Bool
  | _, [] => ([], false)
  | room, r :: l =>
    if r.bytes.length ≤ room then
      let (p, full) := fillPage (room - r.bytes.length) l
      (r :: p, full || (l.isEmpty && decide (room - r.bytes.length < 8)))
    else ([], true)

def waitingRecs (v : Vault) : List VRec := v.queue.filter fun r => r.prog.isNone

/-- A record of sources 2 to 6. -/
def sourceRec (r : VRec) : Bool :=
  match r.bytes with
  | t :: _ => decide (t.toNat < 0x80) || t == 0x82 || t == 0x83 || t == 0x84
  | [] => false

/-- The last-gasp flush works: its course is over and the main domain is powered (R91). -/
def gaspOn (s : State) : Bool := s.por.lgActive && s.awake && !s.crs.running

/-- Conditions on window and rate do not apply in a drain or in the last-gasp sequence (R367). -/
def flushing (s : State) : Bool := drains s || gaspOn s

/-- The records of the next page once it is queued (R367). -/
def pageReady (s : State) : Option (List VRec) :=
  let v := s.vlt
  let (p, full) := fillPage 256 (waitingRecs v)
  let last := drains s || (gaspOn s && (v.gasp != .queue || v.wear.toNat ≥ 2 || !chainOn s))
  let room := !v.brim && !(v.cfg.stop && freePages v ≤ 1 && p.any sourceRec)
  if !p.isEmpty && room && !(p.any fun r => r.copying || r.unsealed) && (full || v.aged || last) then some p else none

/-- The steps of the last-gasp flush beyond page programs (R380). -/
def gaspAdvance (s : State) : State :=
  if gaspOn s && !s.vlt.mounting && s.vlt.present then
    match s.vlt.gasp with
    | .idle => { s with vlt.gasp := .queue }
    | .queue =>
      if s.vlt.wear.toNat ≥ 2 then s
      else if (fillPage 256 (waitingRecs s.vlt)).2 then s
      else if chainOn s then { (offerChain s) with vlt.gasp := .chain }
      else if (waitingRecs s.vlt).isEmpty then { (offerGasp s) with vlt.gasp := .gasp } else s
    | .chain => if (waitingRecs s.vlt).isEmpty then { (offerGasp s) with vlt.gasp := .gasp } else s
    | _ => s
  else s

/-- What the engine would program next: a re-placement, a table copy, or a page. -/
inductive NextProg where
  | replace (r : Replace) | table (second : Bool) | page (recs : List VRec)
  deriving DecidableEq, Repr

def nextProg (s : State) : Option NextProg :=
  match s.vlt.replaces, s.vlt.tblTodo with
  | r :: _, _ => some (.replace r)
  | [], b :: _ => some (.table b)
  | [], [] => (pageReady s).map .page

def gaspClass (s : State) : Bool := gaspOn s

/-- Whether a program may be started, leave apart (R367). -/
def mayProgram (s : State) : Bool :=
  s.mainOn && s.vlt.present && !s.vlt.mounting && decide (s.vlt.flight.length < 4) &&
  (flushing s || (s.crs.winVault && (s.vlt.cfg.ppt = 0 || decide (s.vlt.started < s.vlt.cfg.ppt.toNat)))) && !s.pwr.drainOver

/-- The tail moves past a page (R359). -/
def tailOn (v : Vault) : Vault :=
  let t := nextGood v.tbl 16384 v.tail
  if t = v.tbl.head then
    if v.cfg.stop then { v with tail := t, brim := true }
    else { v with tail := t, tbl := { v.tbl with head := nextGood v.tbl 16384 t }, ovwr := satInc v.ovwr }
  else { v with tail := t }

/-- A program starts under the leave that was granted. -/
def startProg (n : NextProg) (s : State) : State :=
  let v := s.vlt
  let cls : BitVec 3 := if gaspClass s && s.por.holds.any (fun h => h.req == .gaspPage) then 7 else 1
  let v := { v with leave := .none, started := v.started + 1, nextId := v.nextId + 1, aged := false }
  match n with
  | .replace r =>
    let g : Prog := { id := s.vlt.nextId, kind := .replace r.page r.spare, bytes := r.bytes, firstSeq := r.firstSeq, recs := r.recs, cls := cls }
    let q := v.queue.map fun x => if x.prog = some r.id then { x with prog := some s.vlt.nextId } else x
    { s with vlt := { v with flight := v.flight ++ [g], replaces := v.replaces.tail, queue := q } }
  | .table b =>
    let g : Prog := { id := s.vlt.nextId, kind := .table b, bytes := [], firstSeq := 0, recs := 0, cls := cls }
    { s with vlt := { v with flight := v.flight ++ [g], tblTodo := v.tblTodo.tail } }
  | .page p =>
    let bytes := p.flatMap fun r => r.bytes
    let bytes := bytes ++ List.replicate (256 - bytes.length) 0xFF
    let first := match p with
      | r :: _ => r.seq
      | [] => 0
    let page := if v.tbl.bad.contains v.tail then nextGood v.tbl 16384 v.tail else v.tail
    let g : Prog := { id := s.vlt.nextId, kind := .page page, bytes := bytes, firstSeq := first, recs := p.length, cls := cls }
    let q := v.queue.map fun x => if p.any (fun r => r.seq == x.seq) && x.prog.isNone then { x with prog := some s.vlt.nextId } else x
    { s with vlt := tailOn { v with tail := page, flight := v.flight ++ [g], queue := q } }

/-- VAULT_PAGE_PROGRAM_START (R367, R380): leave is asked for once the other conditions hold, and the program starts once it is
granted. -/
def execVaultPageProgramStart (s : State) : Host.Outcome State Fault Refusal :=
  .next <|
    let s := gaspAdvance s
    if mayProgram s then
      match nextProg s with
      | some n =>
        match s.vlt.leave with
        | .none => { (if gaspClass s then s.send (.ask 7 .gaspPage (s.classCost 7)) else s.ask 1 .vault) with vlt.leave := .asked }
        | .granted => startProg n s
        | _ => s
      | none => s
    else s

/-- The Porter's answer reaches the engine (R83): a denied page is asked for again at the next tick. -/
def vaultAnswer (k : BitVec 3) (r : Requester) (a : Answer) (s : State) : State :=
  match a, s.vlt.leave with
  | .grant, .asked => { s with vlt.leave := .granted }
  | .grant, _ => s.fin k r
  | .deny _, .asked => { s with vlt.leave := .denied }
  | _, _ => s

/-- Leave that no program has used is given back: the window closes, or an entry is over. -/
def vaultDropLeave (s : State) : State :=
  match s.vlt.leave with
  | .asked => { s.withdraw 1 .vault with vlt.leave := .none }
  | .granted => { s.fin 1 .vault with vlt.leave := .none }
  | _ => { s with vlt.leave := .none }

/-- The Vault window closes, or the last-gasp sequence takes over from an ordinary request. -/
def vaultWindowClose (s : State) : State := vaultDropLeave s

/-- VAULT_FLUSH_AGE_EXPIRY (R367). -/
def execVaultFlushAgeExpiry (s : State) : Host.Outcome State Fault Refusal :=
  .next <|
    match waitingRecs s.vlt with
    | r :: _ => if s.vlt.cfg.flush != 0 && decide (r.tick.toNat + s.vlt.cfg.flush.toNat ≤ s.crs.tick.toNat) then { s with vlt.aged := true } else s
    | [] => s

/-- A late fault is queued, or lost (R369). -/
def vaultFault (f : VaultFault) (v : Vault) : Vault := if v.lf.length ≥ 16 then { v with lfLost := true } else { v with lf := v.lf ++ [f] }

/-- The wear sequence moves to WORN (R370). -/
def wearCheck (s : State) : State :=
  if freeSpares s.vlt.tbl ≤ 4 && s.vlt.wear.toNat < 2 then
    let s := { s with vlt.wear := 2 }
    offerChain (offerEngine 0x88 (leBytes 2 (freeSpares s.vlt.tbl) ++ [0, 0] ++ leBytes 4 (s.crs.tick.toNat % 2 ^ 32)) s)
  else s

/-- The wear sequence moves to READ-ONLY once what was queued is gone (R370). -/
def readOnlyCheck (s : State) : State := if s.vlt.wear = 2 && s.vlt.queue.isEmpty then { s with vlt.wear := 3 } else s

/-- A page's records are lost (R369). -/
def losePage (g : Prog) (p : BitVec 14) (spare : Option Nat) (s : State) : State :=
  let v := s.vlt
  let sp : Word := match spare with
    | some n => BitVec.ofNat 16 n
    | none => 0xFFFF
  let t := { v.tbl with bad := v.tbl.bad ++ [p], moved := v.tbl.moved.filter fun e => e.1 != p
                        failed := v.tbl.failed ++ (v.tbl.moved.filter fun e => e.1 == p).map (·.2) }
  let v := tableDirty { v with tbl := t, queue := v.queue.filter fun r => r.prog != some g.id }
  let v := vaultFault { page := p, hole := true, spare := sp, seq := g.firstSeq, count := satOf 8 g.recs } v
  offerEngine 0x81 (leBytes 2 p.toNat ++ leBytes 2 sp.toNat ++ leBytes 4 g.firstSeq.toNat ++ leBytes 2 g.recs ++ [0, 0] ++
    leBytes 4 (s.crs.tick.toNat % 2 ^ 32)) { s with vlt := v }

/-- A user page's program ends FAILED (R369). -/
def progFailed (g : Prog) (s : State) : State :=
  let v := s.vlt
  match g.kind with
  | .page p =>
    match pickSpare v.tbl (v.replaces.map (·.spare) ++ v.flight.filterMap fun f => match f.kind with
        | .replace _ n => some n
        | _ => none) with
    | some n => { s with vlt.replaces := v.replaces ++ [{ id := g.id, page := p, spare := n, bytes := g.bytes, firstSeq := g.firstSeq, recs := g.recs }] }
    | none => wearCheck (losePage g p none s)
  | .replace p n => wearCheck (losePage g p (some n) { s with vlt.tbl := { v.tbl with failed := v.tbl.failed ++ [n] } })
  | .table _ => s

/-- The CHAIN record that 16 verified pages call for (R375). -/
def chainDue (s : State) : State := if s.vlt.chainPages ≥ 16 && s.vlt.wear.toNat < 2 && !s.por.lgActive then offerChain s else s

/-- A program ends VERIFIED (R368, R369). -/
def progVerified (g : Prog) (s : State) : State :=
  let v := s.vlt
  match g.kind with
  | .page p =>
    chainDue { s with vlt := { v with store := Bytes.writeL 0xFF v.store (pageAt v.tbl p) g.bytes
                                      queue := v.queue.filter fun r => r.prog != some g.id, chainPages := v.chainPages + 1 } }
  | .replace p n =>
    let t := { v.tbl with moved := (v.tbl.moved.filter fun e => e.1 != p) ++ [(p, n)]
                          failed := v.tbl.failed ++ (v.tbl.moved.filter fun e => e.1 == p).map (·.2) }
    let v := tableDirty { v with tbl := t, store := Bytes.writeL 0xFF v.store (spareAt n) g.bytes
                                 queue := v.queue.filter fun r => r.prog != some g.id, chainPages := v.chainPages + 1
                                 wear := if v.wear = 0 then 1 else v.wear }
    chainDue (wearCheck { s with vlt := vaultFault { page := p, hole := false, spare := BitVec.ofNat 16 n, seq := g.firstSeq,
                                                     count := satOf 8 g.recs } v })
  | .table second =>
    let t := { v.tbl with version := v.tbl.version + 1 }
    { s with vlt := if second then { v with tbl := t, tbl1 := t } else { v with tbl := t, tbl0 := t } }

/-- The VAULT_RETRY counter of a program's attempts: 1; 2; 3 or 4; 5 to 9; failed (R368). -/
def retryCount (attempts : BitVec 2) (ok : Bool) (v : Vault) : Vault :=
  if !ok then { v with retry4 := satInc v.retry4 }
  else if attempts = 0 then { v with retry0 := satInc v.retry0 }
  else if attempts = 1 then { v with retry1 := satInc v.retry1 }
  else if attempts = 2 then { v with retry2 := satInc v.retry2 }
  else { v with retry3 := satInc v.retry3 }

/-- VAULT_PROGRAM_END (R368, R369). `attempts`: 0 one, 1 two, 2 three or four, 3 five to nine. -/
def execVaultProgramEnd (id : Nat) (attempts : BitVec 2) (ok : Bool) (s : State) : Host.Outcome State Fault Refusal :=
  .next <|
    match s.vlt.flight.find? (fun g => g.id == id) with
    | some g =>
      if s.mainOn then
        let v := retryCount attempts ok { s.vlt with flight := s.vlt.flight.filter fun x => x.id != id, pgCnt := satInc s.vlt.pgCnt }
        let s := { s with vlt := v }.fin g.cls (if g.cls = 7 then .gaspPage else .vault)
        readOnlyCheck (if ok then progVerified g s else progFailed g s)
      else s
    | none => s

/-- VAULT_GAP_RECORD (R372). -/
def execVaultGapRecord (s : State) : Host.Outcome State Fault Refusal := .next (writeGap s)

/-- A write of n to VAULT_REL (R359). -/
def vaultRelease (n : BitVec 14) (s : State) : State :=
  let v := s.vlt
  let ahead : Nat := if v.brim then 16384 else (v.tail - v.tbl.head).toNat
  let k := if n.toNat ≤ ahead then n.toNat else ahead
  { s with vlt := tableDirty { v with tbl := { v.tbl with head := v.tbl.head + BitVec.ofNat 14 k }, brim := v.brim && k == 0 } }

/-- VAULT_RELEASE (R359). -/
def execVaultRelease (_who : Who) (v : BitVec 16) (s : State) : Host.Outcome State Fault Refusal :=
  .next <| if s.awake then vaultRelease (v.setWidth 14) s else s

/-! ### Appends (R366, R382) -/

def Vault.set (v : Vault) : CoreId → AppendSet
  | .a => v.setA
  | .b => v.setB

def Vault.putSet (v : Vault) (c : CoreId) (x : AppendSet) : Vault :=
  match c with
  | .a => { v with setA := x }
  | .b => { v with setB := x }

/-- A write of VAULT_ALEN: the offer is decided at once. -/
def append (c : CoreId) (len : Nat) (s : State) : State :=
  let x := s.vlt.set c
  if x.st = 2 then s
  else
    let bad : BitVec 4 := if len > 240 || x.type = 0 then 2 else if x.src.toNat + len > 0xD000 then 3 else 0
    let (r, s) := offer true (x.type.setWidth 8) x.stream (bitAt 8 2 c.isB) bad (8 + len) (List.replicate len 0) true s
    let x := { (s.vlt.set c) with len := len, why := 0 }
    { s with vlt := s.vlt.putSet c (match r with
        | .accepted n => { x with st := 2, seq := n }
        | .shed => { x with st := 3 }
        | .thinned => { x with st := 4 }
        | .refused w => { x with st := 5, why := w }) }

/-- VAULT_APPEND (R366). -/
def execVaultAppend (c : CoreId) (len : BitVec 16) (s : State) : Host.Outcome State Fault Refusal :=
  .next <| if s.awake then append c (len.toNat % 256) s else s

/-- VAULT_APPEND_COPY_DONE (R366): the body as data space holds it. -/
def execVaultAppendCopyDone (c : CoreId) (s : State) : Host.Outcome State Fault Refusal :=
  .next <|
    let x := s.vlt.set c
    if x.st = 2 && s.mainOn then
      let (l, s) := sramReadL (.core c) x.src.toNat x.len s
      { s with vlt := (vPatch x.seq 8 l s.vlt).putSet c { x with st := 1 } }
    else s

/-! ### Mount, drain and wakes (R115, R378, R379) -/

/-- The records of a page's bytes: number and bytes. -/
def pageRecs : Nat → List Byte → List (BitVec 32 × List Byte)
  | 0, _ => []
  | n + 1, l =>
    match l with
    | t :: _ =>
      let len := (l.getD 2 0).toNat
      if t = 0xFF || len < 8 then [] else (BitVec.ofNat 32 (ofLe ((l.drop 4).take 4)), l.take len) :: pageRecs n (l.drop len)
    | [] => []

/-- The user page whose content lies at a byte address of the store, if it is a user page's. -/
def pageOf (t : Retire) (a : Nat) : Option (BitVec 14) :=
  if a % 256 != 0 then none
  else if a < 256 * 16384 then
    let p := BitVec.ofNat 14 (a / 256)
    if t.bad.contains p || t.moved.any (fun e => e.1 == p) then none else some p
  else (t.moved.find? fun e => spareAt e.2 == a).map (·.1)

/-- a comes after b in the order of the numbers, which wrap. -/
def seqAfter (a b : BitVec 32) : Bool := a != b && decide ((a - b).toNat < 2 ^ 31)

/-- The pages that hold records, in the order of their first numbers. -/
def insertPage (p : BitVec 14 × List (BitVec 32 × List Byte)) :
    List (BitVec 14 × List (BitVec 32 × List Byte)) → List (BitVec 14 × List (BitVec 32 × List Byte))
  | [] => [p]
  | q :: l =>
    let f := fun (x : BitVec 14 × List (BitVec 32 × List Byte)) => match x.2 with
      | r :: _ => r.1
      | [] => 0
    if seqAfter (f q) (f p) then p :: q :: l else q :: insertPage p l

def logPages (v : Vault) : List (BitVec 14 × List (BitVec 32 × List Byte)) :=
  (v.store.filterMap fun e =>
    match pageOf v.tbl e.1 with
    | some p =>
      let rs := pageRecs 32 (Bytes.readN 0xFF v.store e.1 256)
      if rs.isEmpty then none else some (p, rs)
    | none => none).foldl (fun l p => insertPage p l) []

/-- The mount (R378). -/
def vaultMount (s : State) : State :=
  let v := s.vlt
  let t := if v.tbl0.version ≥ v.tbl1.version then v.tbl0 else v.tbl1
  let v := { v with tbl := t }
  let pages := logPages v
  let recs := pages.flatMap (·.2)
  let tail := match pages.getLast? with
    | some p => nextGood t 16384 p.1
    | none => if t.bad.contains 0 then nextGood t 16384 0 else 0
  let last := (recs.getLast?).map (·.1)
  let after := (recs.reverse.takeWhile fun r => r.2.head? != some 0x85).reverse
  let chain := (recs.filter fun r => r.2.head? == some 0x85).getLast?
  let wear : BitVec 2 := if freeSpares t ≤ 4 then 3 else if t.moved.isEmpty then 0 else 1
  let v := { v with tail := tail, mounting := false, wear := wear, brim := false
                    seq := match last with
                      | some n => n + 1
                      | none => 0
                    chainVal := match chain with
                      | some r => (r.2.drop 16).take 16
                      | none => List.replicate 16 0
                    seg := if chainOn s then after else []
                    chainPages := (pages.filter fun p => !(p.2.any fun r => r.2.head? == some 0x85) && p.2.all fun r => after.contains r).length }
  let lastNo : Nat := match last with
    | some n => n.toNat
    | none => 0xFFFFFFFF
  offerEngine 0x87 ([s.isl.rstCause.setWidth 8, 0] ++ leBytes 2 tail.toNat ++ leBytes 4 lastNo ++ leBytes 4 (s.crs.tick.toNat % 2 ^ 32) ++
    [0, 0, 0, 0]) { s with vlt := v }

/-- VAULT_MOUNT_END (R378). -/
def execVaultMountEnd (s : State) : Host.Outcome State Fault Refusal :=
  .next <| if s.vlt.mounting && s.mainOn then vaultMount s else s

/-- The records that no program holds are discarded, and become a gap of cause DRAIN (R115, R379). -/
def discardQueue (s : State) : State :=
  let v := s.vlt
  let gone := v.queue.filter fun r => !(v.flight.any fun g => r.prog == some g.id)
  match gone with
  | [] => { s with vlt.replaces := [] }
  | r :: _ =>
    let t : BitVec 32 := s.crs.tick.setWidth 32
    let streams := gone.foldl (fun w x => setBit w ((x.bytes.getD 1 0).toNat % 16) true) 0#16
    let old := v.gaps.find? fun g => g.cause == .drain
    let g : Gap := match old with
      | some g => { g with lost := g.lost + gone.length, streams := g.streams ||| streams, last := t }
      | none => { cause := .drain, lost := gone.length, streams := streams, seqRef := r.seq, first := t, last := t }
    { s with vlt := { v with queue := v.queue.filter fun x => !gone.contains x, replaces := [], aged := false,
                             gaps := g :: v.gaps.filter fun x => x.cause != .drain },
             pwr.qlost := true }

/-- DRAIN_BOUND_EXPIRY (R115): 32 ticks after the drain began. -/
def execDrainBoundExpiry (s : State) : Host.Outcome State Fault Refusal :=
  .next <|
    if drains s && decide (32 ≤ s.pwr.drainTicks) && !s.pwr.drainOver then
      { (discardQueue (vaultDropLeave s)) with pwr.drainOver := true }
    else s

/-- The drain has ended: nothing is queued, or its bound has run out, and every program has ended (R114 step 3, R109). -/
def drainDone (s : State) : Bool := s.vlt.flight.isEmpty && ((s.vlt.queue.isEmpty && s.vlt.tblTodo.isEmpty) || s.pwr.drainOver || !s.vlt.present)

/-- A tick for the engine: PPT counts again, and a denied page may be asked for again (R83, R367). -/
def Vault.tick (v : Vault) : Vault := { v with started := 0, leave := if v.leave = .denied then .none else v.leave }

/-- A start of the Derzor domain: the engine's registers take their reset values, the store and its tables stay (R130, R378). -/
def Vault.cold (v : Vault) : Vault := { Vault.reset with store := v.store, tbl0 := v.tbl0, tbl1 := v.tbl1 }

/-- The last-gasp flush is over, or no page can take the rest (R380). -/
def gaspDone (s : State) : Bool :=
  let v := s.vlt
  v.flight.isEmpty && (!v.present || (v.queue.isEmpty && (v.gasp == .gasp || v.wear.toNat ≥ 2)) || (v.brim || (v.cfg.stop && freePages v ≤ 1)))

/-! ### Late faults, captures and registers io:0x202 to 0x22F -/

def vaultLfPop (s : State) : State := { s with vlt.lf := s.vlt.lf.drop 1 }

/-- VAULT_LATE_FAULT_POP (R369). -/
def execVaultLateFaultPop (s : State) : Host.Outcome State Fault Refusal :=
  .next <|
    let w : Word := match s.vlt.lf with
      | f :: _ => f.count.setWidth 16
      | [] => 0
    (vaultLfPop s).reply (.word w)

def aseqCapture (c : CoreId) (s : State) : State :=
  let x := s.vlt.set c
  { s with vlt := s.vlt.putSet c { x with seqHiCap := (x.seq >>> 16).setWidth 16 } }

/-- VAULT_ASEQ_CAPTURE (R382). -/
def execVaultAseqCapture (c : CoreId) (s : State) : Host.Outcome State Fault Refusal :=
  .next ((aseqCapture c s).reply (.word ((s.vlt.set c).seq.setWidth 16)))

def appendVal (x : AppendSet) (k : Nat) : Option Word :=
  if k = 0 then some x.src
  else if k = 1 then some (fieldAt 16 0 x.type ||| fieldAt 16 8 x.stream)
  else if k = 2 then some 0
  else if k = 3 then some (fieldAt 16 0 x.st ||| fieldAt 16 3 x.why)
  else if k = 4 then some (x.seq.setWidth 16)
  else if k = 5 then some x.seqHiCap
  else none

def lfVal (f : VaultFault) (k : Nat) : Word :=
  if k = 0 then fieldAt 16 0 f.page ||| bitAt 16 14 f.hole
  else if k = 1 then f.spare
  else if k = 2 then f.seq.setWidth 16
  else if k = 3 then (f.seq >>> 16).setWidth 16
  else f.count.setWidth 16

def vaultVal (a : Nat) (s : State) : Option Word :=
  let v := s.vlt
  if a < 0x202 then none
  else if a = 0x202 then some (bitAt 16 0 v.mounting ||| fieldAt 16 1 v.wear ||| bitAt 16 3 (!v.lf.isEmpty) ||| bitAt 16 4 v.lfLost |||
    bitAt 16 5 v.cfgBad ||| bitAt 16 6 (!v.gaps.isEmpty))
  else if a = 0x203 then some (bitAt 16 0 v.cfg.thin ||| bitAt 16 1 v.cfg.stop ||| fieldAt 16 2 v.cfg.thinN ||| fieldAt 16 6 v.cfg.ppt |||
    bitAt 16 10 v.cfg.chain)
  else if a = 0x204 then some v.cfg.strm
  else if a = 0x205 then some v.cfg.thins
  else if a = 0x206 then some (fieldAt 16 0 v.cfg.srcCan ||| fieldAt 16 4 v.cfg.srcVt0 ||| fieldAt 16 8 v.cfg.srcVt1)
  else if a = 0x207 then some (v.cfg.flush.setWidth 16)
  else if a < 0x20E then appendVal v.setA (a - 0x208)
  else if a < 0x210 then none
  else if a < 0x216 then appendVal v.setB (a - 0x210)
  else if a < 0x218 then none
  else if a = 0x218 then some v.acc
  else if a = 0x219 then some v.shed
  else if a = 0x21A then some v.thinned
  else if a = 0x21B then some v.gapCnt
  else if a = 0x21C then some (BitVec.ofNat 16 (vqFill v))
  else if a = 0x21D then some (v.tail.setWidth 16)
  else if a = 0x21E then some (v.tbl.head.setWidth 16)
  else if a = 0x21F then some 0
  else if a = 0x220 then some (v.seq.setWidth 16)
  else if a = 0x221 then some v.seqHiCap
  else if a = 0x222 then some (if v.mounting then 0 else BitVec.ofNat 16 (freeSpares v.tbl))
  else if a = 0x223 then some v.retry0
  else if a = 0x224 then some v.retry1
  else if a = 0x225 then some v.retry2
  else if a = 0x226 then some v.retry3
  else if a = 0x227 then some v.retry4
  else if a = 0x228 then some v.ovwr
  else if a < 0x22E then some (match v.lf with
    | f :: _ => lfVal f (a - 0x229)
    | [] => 0)
  else if a = 0x22E then some (BitVec.ofNat 16 v.lf.length)
  else if a = 0x22F then some v.pgCnt
  else none

def vaultSide (a : Nat) (s : State) : State :=
  if a = 0x20C then aseqCapture .a s
  else if a = 0x214 then aseqCapture .b s
  else if a = 0x218 then { s with vlt.acc := 0 }
  else if a = 0x219 then { s with vlt.shed := 0 }
  else if a = 0x21A then { s with vlt.thinned := 0 }
  else if a = 0x21B then { s with vlt.gapCnt := 0 }
  else if a = 0x220 then { s with vlt.seqHiCap := (s.vlt.seq >>> 16).setWidth 16 }
  else if a = 0x223 then { s with vlt.retry0 := 0 }
  else if a = 0x224 then { s with vlt.retry1 := 0 }
  else if a = 0x225 then { s with vlt.retry2 := 0 }
  else if a = 0x226 then { s with vlt.retry3 := 0 }
  else if a = 0x227 then { s with vlt.retry4 := 0 }
  else if a = 0x228 then { s with vlt.ovwr := 0 }
  else if a = 0x22D then vaultLfPop s
  else if a = 0x22F then { s with vlt.pgCnt := 0 }
  else s

/-- The core that owns an append register (R382). -/
def appendOwner (a : Nat) : Option CoreId :=
  if 0x208 ≤ a ∧ a < 0x20E then some .a else if 0x210 ≤ a ∧ a < 0x216 then some .b else none

def appendPut (c : CoreId) (k : Nat) (v : Word) (s : State) : State :=
  let x := s.vlt.set c
  if k = 0 then { s with vlt := s.vlt.putSet c { x with src := v } }
  else if k = 1 then { s with vlt := s.vlt.putSet c { x with type := v.setWidth 7, stream := (v >>> 8).setWidth 4 } }
  else if k = 2 then append c (v.toNat % 256) s
  else s

def vaultPut (a : Nat) (v : Word) (s : State) : State :=
  if a = 0x202 then { s with vlt.lfLost := s.vlt.lfLost && !v.getLsbD 4, vlt.cfgBad := s.vlt.cfgBad && !v.getLsbD 5 }
  else if a = 0x21F then vaultRelease (v.setWidth 14) s
  else match appendOwner a with
    | some c => appendPut c (a - (if c.isB then 0x210 else 0x208)) v s
    | none => s

end Machine
end Sys2Proof
end

