-- ==== Sys2Proof/Machine/Fabric.lean ====
section
/-!
DEFINITION. The Mortar: line levels, reflex cells, sinks, and how every change of a driver settles (11_mortar.md).
-/
namespace Sys2Proof
namespace Machine

/-! ### Drivers (R307, R312, R313) -/

/-- The level of a block source (R312); a pulse source is 1 while its pulse lasts. -/
def sourceLevel (s : State) (src : BitVec 8) : Bool :=
  if src = 0x08 then s.pc.cfg.getLsbD 0 && !s.pc.off && s.pc.fsm != .active
  else if 0x20 ≤ src.toNat ∧ src.toNat ≤ 0x27 then (vat { on := false, beyond := 0, back := 0 } s.sill.thr (src.toNat - 0x20)).on
  else if 0x28 ≤ src.toNat ∧ src.toNat ≤ 0x2B then s.tch.res.grp.getLsbD (src.toNat - 0x28)
  else if src = 0x2E then (s.tch.res.grp >>> 8).setWidth 4 != (0 : BitVec 4)
  else if src = 0x2F then (s.tch.res.grp >>> 4).setWidth 4 != (0 : BitVec 4)
  else if src = 0x30 then s.rtc.alm
  else if src = 0x34 then s.por.lgActive
  else if src = 0x35 then !s.por.deferred.isEmpty
  else if src = 0x36 then s.en.sel == .none
  else if src = 0x37 then s.en.vehQ
  else s.mrt.pulses.contains src

/-- Lines driven by sources, taps and soft latches. -/
def outerDrive (s : State) : BitVec 64 :=
  (List.range 64).foldl (fun w n =>
    let c := vat 0 s.mrt.cfg.src n
    if c != 0 && sourceLevel s c then w ||| (1#64 <<< n) else w) (s.mrt.soft ||| tapLevels s)

/-- Lines driven by cell outputs. -/
def cellDrive (m : Mortar) : BitVec 64 :=
  (List.range 32).foldl (fun w n =>
    if m.out.getLsbD n then w ||| (1#64 <<< (vat CellCfg.idle m.cfg.cells n).out.toNat) else w) 0

/-! ### Cells (R315 to R317) -/

def lineIn (line : BitVec 64) : Option (BitVec 6) → Bool
  | some e => line.getLsbD e.toNat
  | none => false

/-- The lookup value of a cell (R316). -/
def CellCfg.lookup (c : CellCfg) (line : BitVec 64) : Bool :=
  c.lut.getLsbD ((if lineIn line c.in0 then 1 else 0) + (if lineIn line c.in1 then 2 else 0) + (if lineIn line c.in2 then 4 else 0) +
    (if lineIn line c.in3 then 8 else 0))

/-- Changing from the lines `old` to `line`, the inputs can pass through a combination with another value than L has before and
after (R318). Bit j of a mask says that input j has changed already. -/
def CellCfg.between (c : CellCfg) (old line : BitVec 64) : Bool :=
  let at1 := fun (m j : Nat) (e : Option (BitVec 6)) => if (if m.testBit j then lineIn line e else lineIn old e) then 2 ^ j else 0
  (List.range 16).any fun m => c.lut.getLsbD (at1 m 0 c.in0 + at1 m 1 c.in1 + at1 m 2 c.in2 + at1 m 3 c.in3) != c.lookup line

/-- The mode in force: OFF where the load made the cell OFF (R322). -/
def cellMode (m : Mortar) (n : Nat) : CellMode := if m.off.getLsbD n then .off else (vat CellCfg.idle m.cfg.cells n).mode

def dropWait (n : Nat) (m : Mortar) : Mortar := { m with wait := m.wait.filter fun e => e.1 != BitVec.ofNat 5 n }

def addWait (n : Nat) (v : Bool) (m : Mortar) : Mortar := { (dropWait n m) with wait := (dropWait n m).wait ++ [(BitVec.ofNat 5 n, v)] }

/-- A LATCH cell set, or cleared. -/
def setLatch (n : Nat) (v : Bool) (m : Mortar) : Mortar := { m with lat := setBit m.lat n v, out := setBit m.out n v }

/-- A cell meets new line levels (R317). `old`: the levels before; `rise`: the lines that assert in this handshake; `spike n`: cell n
shows a combination between, where there is one: a pulse of one round at a DIRECT cell without delay, a setting of a LATCH cell, a
start of a PULSE cell (R318). -/
def cellStep (old line rise : BitVec 64) (spike : Nat → Bool) (m : Mortar) (n : Nat) : Mortar :=
  let c := vat CellCfg.idle m.cfg.cells n
  let l := c.lookup line
  let was := m.look.getLsbD n
  let shows := fun (_ : Unit) => l == was && c.between old line && spike n
  let m := { m with look := setBit m.look n l }
  match cellMode m n with
  | .direct =>
    if c.delay = 0 then { m with out := setBit m.out n (l != shows ()) }
    else if l = m.out.getLsbD n then dropWait n m
    else if l = was then m
    else addWait n l m
  | .latch =>
    let m := if lineIn rise c.clr then setLatch n false m else m
    if shows () then setLatch n true m
    else if l && !was then (if c.delay = 0 then setLatch n true m else addWait n true m)
    else if !l then dropWait n m
    else m
  | .pulse => if (l && !was || shows ()) && !m.out.getLsbD n then { m with out := setBit m.out n true } else m
  | _ => m

/-! ### Sinks (R323, R324) -/

/-- The view slots that assert: with the invert bit, those whose line deasserts. -/
def viewStep (v : Vector SinkCfg 12) (rise fall : BitVec 64) (k : Core) : Core :=
  (List.range 12).foldl (fun k n =>
    let c := vat SinkCfg.off v n
    if lineIn (if c.inv then fall else rise) c.line then k.latch n else k) k

def sinkLevel (c : SinkCfg) (line : BitVec 64) : Bool := c.en && lineIn line c.line

/-- Edges reach the cores, the course engine and the Vault; levels reach the Pane. -/
def sinkStep (rise fall line : BitVec 64) (s : State) : State :=
  let s := { s with coreA := viewStep s.mrt.cfg.viewA rise fall s.coreA, coreB := viewStep s.mrt.cfg.viewB rise fall s.coreB }
  let s := (List.range 64).foldl (fun s n =>
    if rise.getLsbD n then lineEdge n true s else if fall.getLsbD n then lineEdge n false s else s) s
  let s := if sinkLevel s.mrt.cfg.vt0 rise then offerTrig 0 s else s
  let s := if sinkLevel s.mrt.cfg.vt1 rise then offerTrig 1 s else s
  { s with pane.freeze := sinkLevel s.mrt.cfg.px0 line, pane.dark := sinkLevel s.mrt.cfg.px1 line }

/-- An enabled WR line at 1 abandons a sleep entry (R324). -/
def wrCheck (s : State) : State :=
  match s.pwr.phase with
  | .entering _ =>
    let a := sinkLevel s.mrt.cfg.wr0 s.mrt.line
    let b := sinkLevel s.mrt.cfg.wr1 s.mrt.line
    if a || b then
      let s := abandonEntry 0 s
      { s with mrt.wr0Abn := s.mrt.wr0Abn || a, mrt.wr1Abn := s.mrt.wr1Abn || b }
    else s
  | _ => s

/-! ### Settling -/

/-- One round: every line takes the level of its drivers, sinks see the edges, and cells follow. Inputs that change in one round
change together (R318). -/
def settleRound (s : State) : State × Bool :=
  let line := outerDrive s ||| cellDrive s.mrt
  let rise := line &&& ~~~s.mrt.line
  let fall := s.mrt.line &&& ~~~line
  let s' := sinkStep rise fall line { s with mrt.line := line }
  let m := (List.range 32).foldl (cellStep s.mrt.line line rise (Config.spike s.free s.crs.tick.toNat s.mrt.line line)) s'.mrt
  ({ s' with mrt := m }, line == s.mrt.line && m.out == s.mrt.out && m.look == s.mrt.look)

/-- Rounds until nothing changes; a loop through pins that never comes to rest is left after the last round. -/
def settle : Nat → State → State
  | 0, s => s
  | n + 1, s =>
    let (s', done) := settleRound s
    if done then s' else settle n s'

/-- More rounds than the longest chain of cells takes. -/
def settleRounds : Nat := 80

/-- A pulse begins where a line is routed to its source and none runs (R313). -/
def addPulse (m : Mortar) (src : BitVec 8) : Mortar :=
  if m.cfg.src.toList.contains src && !m.pulses.contains src then { m with pulses := m.pulses ++ [src] } else m

/-- Block sources may have changed, and some pulse: the fabric settles. Frozen or unpowered it takes nothing in (R310). -/
def emit (ps : List (BitVec 8)) (s : State) : State :=
  if s.mainOn then wrCheck (settle settleRounds { s with mrt := ps.foldl addPulse s.mrt }) else s

/-! ### Starts (R309, R321) -/

/-- Cells and lines settled with no sink looking: DIRECT cells follow at once. -/
def quietRound (outer : BitVec 64) (m : Mortar) : Mortar :=
  let line := outer ||| cellDrive m
  (List.range 32).foldl (fun m n =>
    let l := (vat CellCfg.idle m.cfg.cells n).lookup line
    let m := { m with look := setBit m.look n l }
    if cellMode m n = .direct then { m with out := setBit m.out n l } else m) { m with line := line }

def quietSettle : Nat → State → State
  | 0, s => s
  | n + 1, s =>
    let m := quietRound (outerDrive s) s.mrt
    if m = s.mrt then s else quietSettle n { s with mrt := m }

/-- The Mortar starts after a power-up (R309, R321, R322). -/
def mortarStart (s : State) : State :=
  let m := s.mrt
  let s := { s with mrt := { Mortar.reset with cfg := m.cfg, off := m.off, cfgFault := m.cfgFault, cfgBad := m.cfgFault, calDirty := true } }
  let s := quietSettle settleRounds s
  { s with pane.freeze := sinkLevel s.mrt.cfg.px0 s.mrt.line, pane.dark := sinkLevel s.mrt.cfg.px1 s.mrt.line }

/-- Whether a SRC code is one of R312. -/
def srcKnown (c : BitVec 8) : Bool :=
  let n := c.toNat
  n ≤ 8 || (0x10 ≤ n && n ≤ 0x32) || (0x34 ≤ n && n ≤ 0x37)

/-- Cells reached in one step from a set of cells, among the DIRECT cells without delay (R586). -/
def cellSucc (cfg : MortarCfg) (n k : Nat) : Bool :=
  let c := vat CellCfg.idle cfg.cells n
  let d := vat CellCfg.idle cfg.cells k
  let zero := fun (x : CellCfg) => x.mode == .direct && x.delay == 0
  zero c && zero d && [d.in0, d.in1, d.in2, d.in3].contains (some c.out)

def reachStep (cfg : MortarCfg) (w : BitVec 32) : BitVec 32 :=
  (List.range 32).foldl (fun w k =>
    if (List.range 32).any fun n => w.getLsbD n && cellSucc cfg n k then setBit w k true else w) w

def reach : Nat → MortarCfg → BitVec 32 → BitVec 32
  | 0, _, w => w
  | n + 1, cfg, w => reach n cfg (reachStep cfg w)

/-- The cells on a cycle of DIRECT cells without delay (R322, R586). -/
def onCycle (cfg : MortarCfg) (n : Nat) : Bool :=
  (List.range 32).any fun k => cellSucc cfg n k && (reach 32 cfg (setBit 0#32 k true)).getLsbD n

/-- Faults of a sink that must name a line. -/
def sinkBad (c : SinkCfg) : Bool := c.en && c.line.isNone

/-- A MORTAR section loaded, with its routing faults (R322). `owned n`: pin n is the Mortar's. -/
def mortarLoad (cfg : MortarCfg) (s : State) : State :=
  let off := (List.range 32).foldl (fun (w : BitVec 32) n =>
    if (vat CellCfg.idle cfg.cells n).mode == .reserved || onCycle cfg n then setBit w n true else w) 0
  let pinBad := (List.range 48).any fun n => pinOwner s.pin n == .mortar && (vat SinkCfg.off cfg.pins n).line.isNone
  let bad := off != 0 || pinBad || (cfg.src.toList.any fun c => !srcKnown c) ||
    ([cfg.wr0, cfg.wr1, cfg.vt0, cfg.vt1, cfg.px0, cfg.px1].any sinkBad) ||
    ((cfg.viewA.toList ++ cfg.viewB.toList).any fun v => v.line.isNone)
  let cfg := { cfg with src := vmap (fun c => if srcKnown c then c else 0) cfg.src }
  { s with mrt := { Mortar.reset with cfg := cfg, off := off, cfgFault := bad, cfgBad := bad } }

end Machine
end Sys2Proof
end

