-- ==== Sys2Proof/Machine/Mortar.lean ====
section
/-!
DEFINITION. What happens at the Mortar: ends of delays and pulses, soft latches, calibration, registers (11_mortar.md).
-/
namespace Sys2Proof
namespace Machine

/-- SOURCE_PULSE_END (R313). -/
def execSourcePulseEnd (src : BitVec 8) (s : State) : Host.Outcome State Fault Refusal :=
  .next <| if s.mainOn && s.mrt.pulses.contains src then emit [] { s with mrt.pulses := s.mrt.pulses.filter (· != src) } else s

/-- The lookup of a cell has held its new value for d (R317). -/
def delayOver (n : Nat) (v : Bool) (m : Mortar) : Mortar :=
  let m := dropWait n m
  match cellMode m n with
  | .direct => { m with out := setBit m.out n v }
  | .latch => setLatch n true m
  | _ => m

/-- CELL_DELAY_EXPIRY (R317). -/
def execCellDelayExpiry (n : BitVec 5) (s : State) : Host.Outcome State Fault Refusal :=
  .next <|
    match s.mrt.wait.find? (fun e => e.1 == n) with
    | some e => if s.mainOn then emit [] { s with mrt := delayOver n.toNat e.2 s.mrt } else s
    | none => s

/-- CELL_PULSE_END (R317). -/
def execCellPulseEnd (n : BitVec 5) (s : State) : Host.Outcome State Fault Refusal :=
  .next <|
    if s.mainOn && cellMode s.mrt n.toNat == .pulse && s.mrt.out.getLsbD n.toNat then
      emit [] { s with mrt.out := setBit s.mrt.out n.toNat false }
    else s

/-- Latches of cells 16k to 16k + 15 cleared where v has a 1 (R317). -/
def latchClear (k : Nat) (v : Word) (s : State) : State :=
  { s with mrt := (List.range 16).foldl (fun m n =>
      if v.getLsbD n && cellMode m (16 * k + n) == .latch then setLatch (16 * k + n) false m else m) s.mrt }

/-- A soft-latch word written (R311). -/
def softPut (k : Nat) (v : Word) (s : State) : State :=
  let keep : BitVec 64 := ~~~((0xFFFF#64) <<< (16 * k))
  { s with mrt.soft := (s.mrt.soft &&& keep) ||| ((v.setWidth 64) <<< (16 * k)) }

/-- CELL_LATCH_CLEAR (R317): a write to MRT_LAT0 or MRT_LAT1. -/
def execCellLatchClear (_who : Who) (a : BitVec 12) (v : BitVec 16) (s : State) : Host.Outcome State Fault Refusal :=
  .next <| if s.awake && (a == 0x10A || a == 0x10B) then emit [] (latchClear (a.toNat - 0x10A) v s) else s

/-- MORTAR_SOFT_WRITE (R311): a write to MRT_SOFT0 to MRT_SOFT3. -/
def execMortarSoftWrite (_who : Who) (a : BitVec 12) (v : BitVec 16) (s : State) : Host.Outcome State Fault Refusal :=
  .next <| if s.awake && 0x104 ≤ a.toNat && a.toNat ≤ 0x107 then emit [] (softPut (a.toNat - 0x104) v s) else s

/-- Step 3 of a course start: Mortar actions, and the latest good count loaded (R311, R319). -/
def mortarCourseStart (set clr : BitVec 64) (m : Mortar) : Mortar :=
  let m := { m with soft := (m.soft ||| set) &&& ~~~clr }
  match m.calMeas with
  | some c => { m with cal := c, calStale := false }
  | none => { m with calStale := true }

/-- A tick measured: `cal` is its count where VCORE stayed within its band (R319). -/
def mortarTick (cal : Option (BitVec 12)) (m : Mortar) : Mortar :=
  if m.calDirty then { m with calDirty := false }
  else match cal with
    | some c => { m with calMeas := some c }
    | none => m

/-! ### Registers io:0x100 to 0x10F -/

def word64 (v : BitVec 64) (k : Nat) : Word := (v >>> (16 * k)).setWidth 16
def word32 (v : BitVec 32) (k : Nat) : Word := (v >>> (16 * k)).setWidth 16

def mortarVal (a : Nat) (s : State) : Option Word :=
  let m := s.mrt
  if a < 0x100 then none
  else if a < 0x104 then some (word64 m.line (a - 0x100))
  else if a < 0x108 then some (word64 m.soft (a - 0x104))
  else if a < 0x10A then some (word32 m.out (a - 0x108))
  else if a < 0x10C then some (word32 m.lat (a - 0x10A))
  else if a < 0x10E then some (word32 m.off (a - 0x10C))
  else if a = 0x10E then some (bitAt 16 0 m.calStale ||| bitAt 16 1 m.cfgBad ||| bitAt 16 2 m.wr0Abn ||| bitAt 16 3 m.wr1Abn)
  else if a = 0x10F then some (m.cal.setWidth 16)
  else none

def mortarPut (a : Nat) (v : Word) (s : State) : State :=
  if 0x104 ≤ a ∧ a < 0x108 then softPut (a - 0x104) v s
  else if a = 0x10A ∨ a = 0x10B then latchClear (a - 0x10A) v s
  else if a = 0x10E then
    { s with mrt := { s.mrt with cfgBad := s.mrt.cfgBad && !v.getLsbD 1, wr0Abn := s.mrt.wr0Abn && !v.getLsbD 2,
                                 wr1Abn := s.mrt.wr1Abn && !v.getLsbD 3 } }
  else s

end Machine
end Sys2Proof
end

