-- ==== Sys2Proof/Machine/Ashlar.lean ====
section
/-!
DEFINITION. The Ashlar: entries, searches, steps, commits, fences, self-test and scrub (12_ashlar.md).
-/
namespace Sys2Proof
namespace Machine

/-! ### Entries and fences (R329, R349, R350) -/

def ashEntry (x : Ashlar) (n : Nat) : AshEntry := sparseGet AshEntry.blank x.entries n

def ashFenced (x : Ashlar) (bank : Nat) : Bool := x.fence.getLsbD bank

/-- A bank is fenced: cause 1 TEST, 2 SCRUB, 3 READ (R349). A fence of bank 0 in a sleep state fires C (R352). -/
def fenceBank (n : Nat) (cause : BitVec 2) (s : State) : State :=
  let x := s.ash
  let b := n / 64
  if ashFenced x b then s
  else
    let s := { s with ash := { x with fence := setBit x.fence b true, fcnt := satInc x.fcnt, fenced := true, frecIndex := BitVec.ofNat 10 n,
                                      frecCause := cause, frecBank := BitVec.ofNat 4 b } }
    if b = 0 && !s.mainOn then fire 3 s else s

/-! ### Searching (R335 to R337, R351) -/

/-- What a search supplies. -/
structure AshQuery where
  key : BitVec 48
  mask : BitVec 48
  f : BitVec 4
  g : BitVec 4
  physical : Bool
  deriving DecidableEq, Repr

def AshQuery.hits (q : AshQuery) (banks : BitVec 16) (n : Nat) (e : AshEntry) : Bool :=
  e.valid && banks.getLsbD (n / 64) && ((e.tag ^^^ q.f) &&& q.g) == 0 && ((e.key ^^^ q.key) &&& q.mask) == 0

/-- Which of two matches comes first: higher priority, or the lower index among equals and in physical order (R337). -/
def ashBefore (physical : Bool) (a b : Nat × BitVec 8) : Bool :=
  if physical then decide (a.1 ≤ b.1) else decide (b.2.toNat < a.2.toNat) || (a.2 == b.2 && decide (a.1 ≤ b.1))

/-- A match put in its place. -/
def insertMatch (physical : Bool) (m : Nat × BitVec 8) : List (Nat × BitVec 8) → List (Nat × BitVec 8)
  | [] => [m]
  | x :: l => if ashBefore physical m x then m :: x :: l else x :: insertMatch physical m l

/-- The matching entries in the search's order. -/
def ashMatches (q : AshQuery) (banks : BitVec 16) (x : Ashlar) : List (Nat × BitVec 8) :=
  ((x.entries.filter fun e => q.hits banks e.1 e.2).map fun e => (e.1, e.2.prio)).foldl (fun r m => insertMatch q.physical m r) []

/-- The bank sets (R336): `wide` for a channel 0 in sleep or during the reload. -/
def bankSet1 (x : Ashlar) : BitVec 16 := x.ch1Banks &&& ~~~x.fence

def bankSet0 (s : State) : BitVec 16 :=
  (if s.mainOn && !s.pwr.ashRld then s.ash.ch0Banks else s.ash.ch0Banks &&& 1) &&& ~~~s.ash.fence

/-- Two or more banks. -/
def manyBanks (b : BitVec 16) : Bool := decide (2 ≤ ((List.range 16).filter fun n => b.getLsbD n).length)

/-- A search, repeated once where its first match fails parity (R351): matches, whether repeated, whether that failed too. -/
def ashSearch (q : AshQuery) (banks : State → BitVec 16) (s : State) : List (Nat × BitVec 8) × Bool × Bool × State :=
  match ashMatches q (banks s) s.ash with
  | [] => ([], false, false, s)
  | m :: l =>
    if (ashEntry s.ash m.1).parity then (m :: l, false, false, s)
    else
      let s := fenceBank m.1 3 s
      match ashMatches q (banks s) s.ash with
      | [] => ([], true, false, s)
      | m :: l => if (ashEntry s.ash m.1).parity then (m :: l, true, false, s) else ([], true, true, fenceBank m.1 3 s)

/-! ### The search sets (R339 to R341) -/

def Ashlar.set (x : Ashlar) : CoreId → AshSet
  | .a => x.setA
  | .b => x.setB

def State.putAsh (s : State) (c : CoreId) (k : AshSet) : State :=
  match c with
  | .a => { s with ash.setA := k }
  | .b => { s with ash.setB := k }

def ashReq : CoreId → Requester
  | .a => .ashA
  | .b => .ashB

/-- One unit of the course's share, where any is left (R340). -/
def takeShare (x : Ashlar) : Option Ashlar :=
  if x.share = 0 then none else if x.share = 0xFFFF then some x else some { x with share := x.share - 1 }

/-- What the previous search or step still has at the Porter is given back (R339). -/
def ashAbandon (c : CoreId) (s : State) : State :=
  let k := s.ash.set c
  let s := match k.leave with
    | .asked => s.withdraw 4 (ashReq c)
    | .granted => s.fin 4 (ashReq c)
    | _ => s
  s.putAsh c { k with op := none, leave := .none }

/-- A write of 1 to ASH_GO.GO (R339 to R341). -/
def ashGo (c : CoreId) (s : State) : State :=
  let s := ashAbandon c s
  match takeShare s.ash with
  | none => s.putAsh c { (s.ash.set c) with st := 5 }
  | some x =>
    let s := { s with ash := x }
    let k := s.ash.set c
    let ask := decide (k.pfm = 0#4) && manyBanks (bankSet1 s.ash)
    let k := { k with op := some (.search k.key k.mask k.pfv k.pfm k.order), st := if ask || s.pwr.ashRld then 3 else 2
                      leave := if ask then .asked else .none }
    if ask then (s.ask 4 (ashReq c)).putAsh c k else s.putAsh c k

/-- A write of 1 to ASH_NEXT.STEP (R338). -/
def ashStep (c : CoreId) (s : State) : State :=
  let s := ashAbandon c s
  match takeShare s.ash with
  | none => s.putAsh c { (s.ash.set c) with st := 5 }
  | some x =>
    let s := { s with ash := x }
    s.putAsh c { (s.ash.set c) with op := some .step, st := if s.pwr.ashRld then 3 else 2 }

/-- A write of 1 to ASH_CMT.COMMIT (R332, R334). -/
def ashCommit (c : CoreId) (s : State) : State :=
  let k := s.ash.set c
  if k.commit.isSome then s.putAsh c { k with cst := 5 }
  else match takeShare s.ash with
    | none => s.putAsh c { k with cst := 4 }
    | some x => { s with ash := x }.putAsh c { k with cst := 2, commit := some (k.target, k.stage) }

/-- ASHLAR_GO (R339). -/
def execAshlarGo (c : CoreId) (s : State) : Host.Outcome State Fault Refusal := .next <| if s.awake then ashGo c s else s

/-- ASHLAR_STEP_WRITE (R338). -/
def execAshlarStepWrite (c : CoreId) (s : State) : Host.Outcome State Fault Refusal := .next <| if s.awake then ashStep c s else s

/-- ASHLAR_COMMIT_WRITE (R332). -/
def execAshlarCommitWrite (c : CoreId) (s : State) : Host.Outcome State Fault Refusal := .next <| if s.awake then ashCommit c s else s

/-- ASHLAR_COMMIT_PERFORM (R332 to R334). -/
def execAshlarCommitPerform (c : CoreId) (s : State) : Host.Outcome State Fault Refusal :=
  .next <|
    match (s.ash.set c).commit with
    | some (n, e) =>
      if s.mainOn && !s.pwr.ashRld then
        if ashFenced s.ash (n.toNat / 64) then s.putAsh c { (s.ash.set c) with commit := none, cst := 3 }
        else
          let x := s.ash
          let x := { x with entries := sparsePut AshEntry.blank x.entries n.toNat { e with parity := true }
                            setA := { x.setA with committed := x.setA.committed ++ [n] }, setB := { x.setB with committed := x.setB.committed ++ [n] } }
          let s := { s with ash := x }
          s.putAsh c { (s.ash.set c) with commit := none, cst := 1 }
      else s
    | none => s

/-- The current match of a set where there is one; INDEX, DATA and PRIO are left open where nothing matches. -/
def ashFirst (m : Option (Nat × BitVec 8)) (k : AshSet) (s : State) : AshSet × State :=
  match m with
  | some (n, p) => ({ k with idx := BitVec.ofNat 10 n, noMatch := false, data := (ashEntry s.ash n).data, prio := p }, s)
  | none =>
    ({ k with idx := (Config.freeWord s.free).setWidth 10, noMatch := true, data := Config.freeWord (s.free + 1),
              prio := (Config.freeWord (s.free + 2)).setWidth 8 }, { s with free := s.free + 3 })

/-- A search lands (R337, R338, R351). -/
def ashLand (c : CoreId) (q : AshQuery) (s : State) : State :=
  let (l, rep, bad, s) := ashSearch q (fun t => bankSet1 t.ash) s
  let s := if (s.ash.set c).leave = .granted then s.fin 4 (ashReq c) else s
  let k := { (s.ash.set c) with op := none, leave := .none, count := satOf 4 l.length, multi := decide (2 ≤ l.length), stale := false
                                rep := rep, st := if bad then 7 else 1, ahead := (l.drop 1).map fun m => BitVec.ofNat 10 m.1, committed := [] }
  let (k, s) := ashFirst l.head? k s
  s.putAsh c k

/-- ASHLAR_SEARCH_LAND (R337, R339). -/
def execAshlarSearchLand (c : CoreId) (s : State) : Host.Outcome State Fault Refusal :=
  .next <|
    let k := s.ash.set c
    match k.op with
    | some (.search key mask f g ph) =>
      if s.mainOn && !s.pwr.ashRld && k.leave != .asked then ashLand c { key := key, mask := mask, f := f, g := g, physical := ph } s else s
    | _ => s

/-- The next latched match that is not in a fenced bank and whose read passes parity; `skip`: one was passed over (R338, R349). -/
def stepTo : List (BitVec 10) → Bool → State → Option (BitVec 10 × List (BitVec 10)) × Bool × State
  | [], skip, s => (none, skip, s)
  | n :: l, skip, s =>
    if ashFenced s.ash (n.toNat / 64) then stepTo l true s
    else if (ashEntry s.ash n.toNat).parity then (some (n, l), skip, s)
    else stepTo l true (fenceBank n.toNat 3 s)

/-- ASHLAR_STEP_LAND (R338). -/
def execAshlarStepLand (c : CoreId) (s : State) : Host.Outcome State Fault Refusal :=
  .next <|
    let k := s.ash.set c
    if k.op = some .step && s.mainOn && !s.pwr.ashRld then
      match stepTo k.ahead false s with
      | (some (n, l), skip, s) =>
        let e := ashEntry s.ash n.toNat
        s.putAsh c { k with op := none, st := 1, idx := n, noMatch := false, data := e.data, prio := e.prio, ahead := l
                            stale := skip || k.committed.contains n }
      | (none, skip, s) => s.putAsh c { k with op := none, st := 6, ahead := [], stale := k.stale || skip }
    else s

/-- The Porter's answer reaches a search set (R341). -/
def ashAnswer (c : CoreId) (a : Answer) (s : State) : State :=
  let k := s.ash.set c
  match a, k.leave with
  | .grant, .asked => s.putAsh c { k with leave := .granted, st := if s.pwr.ashRld then 3 else 2 }
  | .grant, _ => s.fin 4 (ashReq c)
  | .deny _, .asked =>
    { s.putAsh c { k with leave := .none, op := none, st := 4, count := 0, multi := false, noMatch := true, ahead := [] } with
      ash.nolv := satInc s.ash.nolv }
  | _, _ => s

/-! ### The window (R330, R331) -/

/-- A byte of a window slot as it reads; the read checks parity (R349 to R351). -/
def slotByte (e : AshEntry) (fenced : Bool) (o : Nat) : Byte :=
  if o < 6 then (e.key >>> (8 * o)).setWidth 8
  else if o < 8 then (e.data >>> (8 * (o - 6))).setWidth 8
  else if o = 8 then e.prio
  else fieldAt 8 0 e.tag ||| bitAt 8 4 (e.valid && !fenced) ||| bitAt 8 5 fenced

/-- A window read of entry n. -/
def slotRead (n o : Nat) (s : State) : Byte × State :=
  let e := ashEntry s.ash n
  let s := if e.parity then s else fenceBank n 3 s
  (slotByte e (ashFenced s.ash (n / 64)) o, s)

/-- A byte of a stage written. -/
def stageByte (e : AshEntry) (o : Nat) (v : Byte) : AshEntry :=
  if o < 6 then { e with key := (e.key &&& ~~~((0xFF#48) <<< (8 * o))) ||| ((v.setWidth 48) <<< (8 * o)) }
  else if o < 8 then { e with data := (e.data &&& ~~~((0xFF#16) <<< (8 * (o - 6)))) ||| ((v.setWidth 16) <<< (8 * (o - 6))) }
  else if o = 8 then { e with prio := v }
  else { e with tag := v.setWidth 4, valid := v.getLsbD 4 }

/-- Bytes of entry n staged by a core (R331). -/
def stageWrite (c : CoreId) (n o : Nat) (l : List Byte) (s : State) : State :=
  let k := s.ash.set c
  let base := if k.staged && k.target.toNat = n then k.stage else { (ashEntry s.ash n) with parity := true }
  let e := ((List.range l.length).zip l).foldl (fun e b => if o + b.1 < 10 then stageByte e (o + b.1) b.2 else e) base
  s.putAsh c { k with stage := e, staged := true, target := BitVec.ofNat 10 n }

/-- The entry that a data address shows to a core (R291, R293). -/
def winEntry (s : State) (c : CoreId) (a : Nat) : Nat :=
  256 * (if c.isB then s.mem.ashWinB else s.mem.ashWinA).toNat + (a - 0xD000) / 16

/-- ASHLAR_WINDOW_WRITE (R331). -/
def execAshlarWindowWrite (c : CoreId) (a : BitVec 16) (bytes : List Byte) (s : State) : Host.Outcome State Fault Refusal :=
  .next <|
    if s.awake && 0xD000 ≤ a.toNat && a.toNat < 0xE000 && a.toNat % 16 < 10 && decide (a.toNat % 16 + bytes.length ≤ 10) && !bytes.isEmpty then
      stageWrite c (winEntry s c a.toNat) (a.toNat % 16) bytes s
    else s

/-! ### Channel 0's key (R344, R345) -/

def ch0Key (f : CanFrame) (pass2 : Bool) : BitVec 48 :=
  let id : BitVec 29 := if f.ide then f.id else f.id &&& 0x7FF
  let d0 : Byte := match f.data with
    | b :: _ => b
    | [] => 0
  fieldAt 48 0 id ||| fieldAt 48 29 d0 ||| fieldAt 48 37 f.dlc ||| bitAt 48 41 f.ide ||| bitAt 48 42 f.fdf ||| bitAt 48 43 f.rtr |||
    bitAt 48 44 f.brs ||| bitAt 48 47 pass2

def ch0Query (x : Ashlar) (f : CanFrame) (pass2 : Bool) : AshQuery :=
  let d0 : Byte := match f.data with
    | b :: _ => b
    | [] => 0
  let fv : BitVec 4 := if x.c0sel = 1 then (if f.ide then (f.id >>> 25).setWidth 4 else (f.id >>> 7).setWidth 4)
    else if x.c0sel = 2 then (d0 >>> 4).setWidth 4 else 0
  { key := ch0Key f pass2, mask := if pass2 then x.c0m2 else x.c0m1, f := fv, g := if x.c0sel = 1 || x.c0sel = 2 then 0xF else 0,
    physical := false }

/-! ### Self-test, scrub, reload (R113, R353 to R355) -/

/-- A bank's self-test: its entries' parity, and its match lines as `fail` reports them. -/
def testBank (fail : BitVec 16) (s : State) (b : Nat) : State :=
  if !s.ash.testing.getLsbD b then s
  else match s.ash.entries.find? (fun e => e.1 / 64 == b && !e.2.parity) with
    | some e => fenceBank e.1 1 s
    | none =>
      if fail.getLsbD b then
        let s' := fenceBank (64 * b) 1 s
        if ashFenced s.ash b then s' else { s' with ash.frecIndex := 0 }
      else s

/-- ASHLAR_SELF_TEST_END (R353). -/
def execAshlarSelfTestEnd (fail : BitVec 16) (s : State) : Host.Outcome State Fault Refusal :=
  .next <|
    if s.mainOn && s.ash.testing != 0 then
      let t := (List.range 16).foldl (testBank fail) s
      { t with ash.testFail := (t.ash.testFail &&& ~~~s.ash.testing) ||| (t.ash.fence &&& s.ash.testing), ash.testing := 0 }
    else s

/-- Banks 1 to 15 loaded from the image; a bank that failed its self-test stays fenced and is not reloaded (R113, R355). -/
def ashReload (x : Ashlar) : Ashlar :=
  let bad : BitVec 16 := x.testFail &&& 0xFFFE
  { x with entries := x.entries.filter (fun e => e.1 < 64 || bad.getLsbD (e.1 / 64)) ++
             x.image.filter (fun e => 64 ≤ e.1 && !bad.getLsbD (e.1 / 64)),
           fence := (x.fence &&& 1) ||| bad }

/-- Entries kept in rising order after a reload. -/
def sortEntries (l : List (Nat × AshEntry)) : List (Nat × AshEntry) := l.foldl (fun r e => sparsePut AshEntry.blank r e.1 e.2) []

def endWaitOf (k : AshSet) : AshSet := if k.op.isSome && k.leave != .asked then { k with st := 2 } else k

/-- ASHLAR_RELOAD_END (R113). -/
def execAshlarReloadEnd (s : State) : Host.Outcome State Fault Refusal :=
  .next <|
    if s.mainOn && s.pwr.ashRld then
      let x := ashReload s.ash
      { s with ash := { x with entries := sortEntries x.entries, setA := endWaitOf x.setA, setB := endWaitOf x.setB }, pwr.ashRld := false }
    else s

/-- What a wake from SHUTTERED or BARRED starts at the array (R113, R353, R354). -/
def Ashlar.deepWake (x : Ashlar) : Ashlar := { x with testing := 0xFFFF, testFail := x.testFail &&& 1, scrPtr := 0, scrubLeft := 0 }

/-- The next entry in an unfenced bank from n on (R354). -/
def scrubNext (x : Ashlar) : Nat → Nat → Option Nat
  | 0, _ => none
  | k + 1, n => if ashFenced x (n / 64) then scrubNext x k ((n + 1) % 1024) else some n

/-- ASHLAR_SCRUB_READ (R354). -/
def execAshlarScrubRead (s : State) : Host.Outcome State Fault Refusal :=
  .next <|
    if s.mainOn && s.ash.scrubLeft != 0 then
      match scrubNext s.ash 1024 s.ash.scrPtr.toNat with
      | some n =>
        let t := { s with ash.scrPtr := BitVec.ofNat 10 (n + 1), ash.scrubLeft := s.ash.scrubLeft - 1 }
        if (ashEntry s.ash n).parity then t else fenceBank n 2 t
      | none => s
    else s

/-! ### Registers io:0x182 to 0x1B3 -/

def word48 (v : BitVec 48) (k : Nat) : Word := (v >>> (16 * k)).setWidth 16
def put48 (v : BitVec 48) (k : Nat) (w : Word) : BitVec 48 := (v &&& ~~~((0xFFFF#48) <<< (16 * k))) ||| ((w.setWidth 48) <<< (16 * k))

def ashSetVal (k : AshSet) (o : Nat) : Word :=
  if o < 3 then word48 k.key o
  else if o < 6 then word48 k.mask (o - 3)
  else if o = 6 then fieldAt 16 0 k.pfv ||| fieldAt 16 4 k.pfm ||| bitAt 16 8 k.order
  else if o < 0xA then 0
  else if o = 0xA then fieldAt 16 0 k.count ||| bitAt 16 4 k.multi ||| fieldAt 16 5 k.st ||| bitAt 16 8 k.stale ||| bitAt 16 9 k.rep
  else if o = 0xB then fieldAt 16 0 k.idx ||| bitAt 16 15 k.noMatch
  else if o = 0xC then k.data
  else if o = 0xD then k.prio.setWidth 16
  else fieldAt 16 0 k.target ||| fieldAt 16 10 k.cst

def ashWaits0 (x : Ashlar) : Bool :=
  match x.ch0 with
  | .leave _ _ => true
  | _ => false

def ashVal (a : Nat) (s : State) : Option Word :=
  let x := s.ash
  if a < 0x182 then none
  else if a < 0x191 then some (ashSetVal x.setA (a - 0x182))
  else if a = 0x191 then none
  else if a < 0x1A1 then some (ashSetVal x.setB (a - 0x192))
  else if a = 0x1A1 then none
  else if a = 0x1A2 then some (bitAt 16 0 (x.testing != 0) ||| bitAt 16 1 x.cfgBad ||| bitAt 16 2 x.fenced ||| bitAt 16 3 x.rep |||
    bitAt 16 4 (ashWaits0 x))
  else if a = 0x1A3 then some x.fence
  else if a = 0x1A4 then some x.fcnt
  else if a = 0x1A5 then some (fieldAt 16 0 x.frecIndex ||| fieldAt 16 10 x.frecCause ||| fieldAt 16 12 x.frecBank)
  else if a = 0x1A6 then some x.nolv
  else if a = 0x1A7 then some x.share
  else if a = 0x1A8 then some x.ch0Banks
  else if a = 0x1A9 then some x.ch1Banks
  else if a = 0x1AA then some x.nomat
  else if a = 0x1AB then some (x.scrub.setWidth 16)
  else if a = 0x1AC then some (x.scrPtr.setWidth 16)
  else if a < 0x1B0 then some (word48 x.c0m1 (a - 0x1AD))
  else if a < 0x1B3 then some (word48 x.c0m2 (a - 0x1B0))
  else if a = 0x1B3 then some (fieldAt 16 0 x.c0sel ||| bitAt 16 2 x.c0pass2)
  else none

def ashSide (a : Nat) (s : State) : State :=
  if a = 0x1A4 then { s with ash.fcnt := 0 } else if a = 0x1A6 then { s with ash.nolv := 0 } else s

/-- The core that owns a search-set register (R357). -/
def ashOwner (a : Nat) : Option CoreId :=
  if 0x182 ≤ a ∧ a < 0x191 then some .a else if 0x192 ≤ a ∧ a < 0x1A1 then some .b else none

def ashSetPut (c : CoreId) (o : Nat) (v : Word) (s : State) : State :=
  let k := s.ash.set c
  if o < 3 then s.putAsh c { k with key := put48 k.key o v }
  else if o < 6 then s.putAsh c { k with mask := put48 k.mask (o - 3) v }
  else if o = 6 then s.putAsh c { k with pfv := v.setWidth 4, pfm := (v >>> 4).setWidth 4, order := v.getLsbD 8 }
  else if o = 7 then (if v.getLsbD 0 then ashGo c s else s)
  else if o = 8 then (if v.getLsbD 0 then ashStep c s else s)
  else if o = 9 then (if v.getLsbD 0 then ashCommit c s else s)
  else s

def ashPut (a : Nat) (v : Word) (s : State) : State :=
  if a = 0x1A2 then
    { s with ash := { s.ash with cfgBad := s.ash.cfgBad && !v.getLsbD 1, fenced := s.ash.fenced && !v.getLsbD 2, rep := s.ash.rep && !v.getLsbD 3 } }
  else match ashOwner a with
    | some c => ashSetPut c (a - (if c.isB then 0x192 else 0x182)) v s
    | none => s

end Machine
end Sys2Proof
end

