-- ==== Sys2Proof/Machine/Ports.lean ====
section
/-!
DEFINITION. Ports S, Q and U: the porch word, messages, status records, mailboxes and their registers
(14_partner_ports.md, R383 to R400, R412).
-/
namespace Sys2Proof
namespace Machine

/-! ### Ports by name -/

def Ports.get (p : Ports) : PortId → PortSt
  | .s => p.s
  | .q => p.q
  | .u => p.u

def State.putPort (s : State) (p : PortId) (k : PortSt) : State :=
  match p with
  | .s => { s with prt.s := k }
  | .q => { s with prt.q := k }
  | .u => { s with prt.u := k }

def portIdx : PortId → Nat
  | .s => 0
  | .q => 1
  | .u => 2

/-- The halves of a mailbox (R282): 0 to 2 for ports S, Q, U, 3 for port C. -/
def inHalf (k : Nat) : Nat := 0xF000 + 0x400 * k
def outHalf (k : Nat) : Nat := 0xF200 + 0x400 * k

/-- The core that owns a mailbox, by the OWNER field of its configuration word (R383, R412). -/
def ownerOf (cfg : BitVec 16) : Option CoreId :=
  let o : BitVec 2 := (cfg >>> 1).setWidth 2
  if o = 1 then some .a else if o = 2 then some .b else none

/-- A port runs: its ON bit is set and no PORTS field has turned it off (R411). -/
def PortSt.runs (k : PortSt) : Bool := k.cfg.getLsbD 0 && !k.off

/-- The owner of mailbox 0 to 3. -/
def mailboxOwner (s : State) (k : Nat) : Option CoreId :=
  if k = 0 then ownerOf s.prt.s.cfg else if k = 1 then ownerOf s.prt.q.cfg else if k = 2 then ownerOf s.prt.u.cfg
  else ownerOf s.pc.cfg

/-! ### The porch word (R385, R386) -/

/-- The state code of R99. -/
def stateCode (s : State) : BitVec 3 :=
  match s.pwr.phase with
  | .awake => if s.crs.running then 0 else 1
  | .entering _ => 5
  | .asleep t => t.code
  | .waking _ _ => 6
  | _ => 7

/-- A port answers at all: it runs, hears its lines, and its responder is powered and not barred by R397, R400. -/
def portUp (p : PortId) (s : State) : Bool :=
  (s.prt.get p).runs && portWired s.pin p &&
    (s.powered || s.pwr.phase == .noImage || (s.pwr.phase == .boot && s.pwr.startKind != .sealed))

def portReady (s : State) : Bool := s.awake || s.pwr.phase == .noImage

/-- The store service has this port's in half: its message waits or its reply is not placed (R395). -/
def svcBusy (p : PortId) (s : State) : Bool := (s.img.svc ++ s.img.replies).any fun m => m.port == p

def inSpace (p : PortId) (s : State) : Bool := portReady s && !(s.prt.get p).held && !svcBusy p s

def outMsg (p : PortId) (s : State) : Bool := portReady s && ((s.prt.get p).posted || (s.prt.get p).svc)

def porchWord (p : PortId) (s : State) : Word :=
  fieldAt 16 13 (stateCode s) ||| bitAt 16 12 (portReady s) ||| bitAt 16 11 (inSpace p s) ||| bitAt 16 10 (outMsg p s) |||
    bitAt 16 9 (s.prt.get p).errSet ||| 2

/-- A word as it is sent: most significant byte first. -/
def wireWord (v : Word) : List Byte := [hiB v, loB v]

/-! ### CRC (R390) -/

def porchCrcBit (c : Word) : Word := if c.getLsbD 15 then (c <<< 1) ^^^ 0x1021 else c <<< 1

def porchCrcByte (c : Word) (b : Byte) : Word :=
  porchCrcBit (porchCrcBit (porchCrcBit (porchCrcBit (porchCrcBit (porchCrcBit (porchCrcBit (porchCrcBit (c ^^^ ((b.setWidth 16) <<< 8)))))))))

def porchCrc (l : List Byte) : Word := l.foldl porchCrcByte 0xFFFF

/-- A message as it goes over the wire, its CRC at the end (R388). -/
def wireMessage (opcode tag : Byte) (payload : List Byte) : List Byte :=
  let m := [opcode, tag] ++ wireWord (BitVec.ofNat 16 payload.length) ++ payload
  m ++ wireWord (porchCrc m)

/-! ### Status records (R393) -/

def PortSt.status (k : PortSt) (code op tag : Byte) : PortSt :=
  if k.errSet then { k with errMore := satInc k.errMore, errcnt := satInc k.errcnt }
  else { k with errCode := code, errOp := op, errTag := tag, errMore := 0, errSet := true, errcnt := satInc k.errcnt }

def State.status (s : State) (p : PortId) (code op tag : Byte) : State := s.putPort p ((s.prt.get p).status code op tag)

/-- Bytes discarded are counted (R391, R392). -/
def State.discard (s : State) (p : PortId) (n : Nat) : State :=
  s.putPort p { (s.prt.get p) with disc := satAdd (s.prt.get p).disc n }

/-- Port U takes bytes as discarded ones (R391): n bytes of a command that comes while it discards. -/
def swallow (n : Nat) (s : State) : State :=
  let k := s.prt.u
  { s with prt.u := { k with disc := satAdd k.disc (min n k.discLeft), discLeft := k.discLeft - n } }

/-- A command of n bytes on a port: not heard, swallowed by a discard on port U, or served. -/
def onPort (p : PortId) (n : Nat) (f : State → State) (s : State) : State :=
  let s := s.reply .none
  if !portUp p s then s
  else if p == .u && s.prt.u.discLeft != 0 then swallow n s
  else f s

/-! ### Commands (R387, R396 to R398) -/

/-- PORT_POLL (R385). -/
def execPortPoll (p : PortId) (s : State) : Host.Outcome State Fault Refusal :=
  .next <| onPort p 1 (fun s => s.reply (.bytes (wireWord (porchWord p s)))) s

/-- The status record as it is sent. -/
def PortSt.record (k : PortSt) : List Byte := [k.errCode, k.errOp, k.errTag, k.errMore]

/-- Port S sends the porch word before anything else (R396). -/
def porchFirst (p : PortId) (s : State) : List Byte := if p == .s then wireWord (porchWord p s) else []

/-- PORT_STATUS (R393). -/
def execPortStatus (p : PortId) (s : State) : Host.Outcome State Fault Refusal :=
  .next <| onPort p 1 (fun s =>
    let k := s.prt.get p
    (s.putPort p { k with errCode := 0, errOp := 0, errTag := 0, errMore := 0, errSet := false }).reply
      (.bytes (porchFirst p s ++ k.record))) s

/-- The bytes of the message in the out half, as port hardware reads them. -/
def outMessage (p : PortId) (s : State) : List Byte × State :=
  let o := outHalf (portIdx p)
  let (h, s) := sramReadL .port o 4 s
  let len := min 508 (ofLe (h.drop 2))
  let (l, s) := sramReadL .port (o + 4) len s
  (wireMessage (h.getD 0 0) (h.getD 1 0) l, s)

/-- A message has been taken whole: the out half is free again (R394). -/
def outTaken (p : PortId) (s : State) : State :=
  let k := s.prt.get p
  emit [BitVec.ofNat 8 (2 * (portIdx p) + 2)] (s.putPort p { k with posted := false, svc := false, txcnt := satInc k.txcnt })

def readNow (p : PortId) (whole : Bool) (s : State) : State :=
  let first := porchFirst p s
  if portReady s then
    if outMsg p s then
      let (l, s) := outMessage p s
      let s := s.reply (.bytes (first ++ l))
      if whole then outTaken p s else s
    else s.reply (.bytes (first ++ wireMessage 0 0 []))
  else match p with
    | .s => s.reply (.bytes (first ++ List.replicate 6 0xFF))
    | .u => s.reply (.bytes (wireWord (porchWord p s)))
    | .q => s

/-- PORT_READ (R394, R396 to R398); `whole`: the host takes the last byte of the CRC. -/
def execPortRead (p : PortId) (whole : Bool) (s : State) : Host.Outcome State Fault Refusal :=
  .next <| onPort p 1 (readNow p whole) s

/-- A good firmware message is placed in the in half (R394). -/
def placeMessage (p : PortId) (opcode tag : Byte) (payload : List Byte) (s : State) : State :=
  let s := sramWriteL .port (inHalf (portIdx p)) ([opcode, tag] ++ leBytes 2 payload.length ++ payload) s
  let k := s.prt.get p
  s.putPort p { k with held := true, rxcnt := satInc k.rxcnt }

/-- A store-service message is placed and goes to the service (R395). -/
def placeService (p : PortId) (opcode tag : Byte) (payload : List Byte) (s : State) : State :=
  let s := placeMessage p opcode tag payload s
  let s := s.putPort p { (s.prt.get p) with held := false }
  { s with img.svc := s.img.svc ++ [{ port := p, opcode := opcode, tag := tag, payload := payload }] }

/-- The service answers NOIMAGE at once (R184, R188). -/
def placeNoImage (p : PortId) (opcode tag : Byte) (payload : List Byte) (s : State) : State :=
  let s := placeMessage p opcode tag payload s
  let s := s.putPort p { (s.prt.get p) with held := false }
  { s with img.replies := s.img.replies ++ [{ port := p, opcode := opcode, tag := tag, payload := [0x08] }] }

def opcodeReserved (op : Byte) : Bool := op == 0x00 || op == 0xF0 || decide (0xF8 ≤ op.toNat)

def opcodeService (op : Byte) : Bool := decide (0xF1 ≤ op.toNat ∧ op.toNat ≤ 0xF7)

/-- A message whose length is allowed (R392, from the third outcome on). -/
def judgeMessage (p : PortId) (opcode tag : Byte) (len : Nat) (rest : List Byte) (fmtOk : Bool) (s : State) : State :=
  let payload := rest.take len
  let crc := (rest.drop len).take 2
  let s := if p == .u then s else s.discard p (rest.length - (len + 2))
  if rest.length < len + 2 then s.status p 0x03 opcode tag
  else if p == .u && !fmtOk then s.status p 0x09 opcode tag
  else if crc != wireWord (porchCrc ([opcode, tag] ++ wireWord (BitVec.ofNat 16 len) ++ payload)) then s.status p 0x02 opcode tag
  else if opcodeReserved opcode then s.status p 0x06 opcode tag
  else if opcodeService opcode then placeService p opcode tag payload s
  else if s.pwr.phase == .noImage then placeNoImage p opcode tag payload s
  else if (ownerOf (s.prt.get p).cfg).isNone then s.status p 0x07 opcode tag
  else emit [BitVec.ofNat 8 (2 * (portIdx p) + 1)] (placeMessage p opcode tag payload s)

/-- LEN is above 508 (R391): what follows is discarded, on port U until LEN + 2 bytes or an idle gap. -/
def refuseLength (p : PortId) (opcode tag : Byte) (len : Nat) (rest : List Byte) (s : State) : State :=
  let s := s.status p 0x01 opcode tag
  if p == .u then swallow rest.length { s with prt.u.discLeft := len + 2 }
  else s.discard p rest.length

def writeNow (p : PortId) (opcode tag : Byte) (len : Nat) (rest : List Byte) (fmtOk : Bool) (s : State) : State :=
  let op := if p == .q then 0 else opcode
  let tg := if p == .q then 0 else tag
  let long := decide (508 < len) && p != .q
  if !portReady s then
    fire (portSource p) (if long then refuseLength p opcode tag len rest s else s.status p 0x05 op tg)
  else if long then refuseLength p opcode tag len rest s
  else if !inSpace p s then s.status p 0x04 op tg
  else if 508 < len then refuseLength p opcode tag len rest s
  else judgeMessage p opcode tag len rest fmtOk s

/-- PORT_WRITE (R391, R392): `rest` is every byte of the transaction after the length field. A port Q that has to turn the command
byte away does so before the message comes (R397). -/
def execPortWrite (p : PortId) (opcode : Byte) (tag : Byte) (len : BitVec 16) (rest : List Byte) (fmtOk : Bool) (s : State) :
    Host.Outcome State Fault Refusal :=
  .next <| onPort p (5 + rest.length) (fun s =>
    let first := porchFirst p s
    let t := writeNow p opcode tag len.toNat rest fmtOk s
    if p == .s then t.reply (.bytes first) else t) s

/-- PORT_UNKNOWN_COMMAND (R387); on port U also any byte that comes while a reply runs (R398). -/
def execPortUnknownCommand (p : PortId) (b : Byte) (s : State) : Host.Outcome State Fault Refusal :=
  .next <| onPort p 1 (fun s =>
    if p == .u || !(decide (0xA0 ≤ b.toNat ∧ b.toNat ≤ 0xA3)) then
      let t := s.status p 0x08 b 0
      if p == .s then t.reply (.bytes (porchFirst p s)) else t
    else s) s

/-- PORT_U_IDLE_GAP (R391). -/
def execPortUIdleGap (s : State) : Host.Outcome State Fault Refusal :=
  .next <| if portUp .u s then { s with prt.u.discLeft := 0 } else s

/-- PORT_U_FRAMING_ERROR (R398). -/
def execPortUFramingError (s : State) : Host.Outcome State Fault Refusal :=
  .next <| onPort .u 1 (fun s => s.status .u 0x09 0 0) s

/-! ### The core's side (R394) -/

/-- A write of 1 to Px_IN.DONE. -/
def inDone (p : PortId) (s : State) : State := s.putPort p { (s.prt.get p) with held := false }

/-- A write of 1 to Px_OUT.POST. -/
def outPost (p : PortId) (s : State) : State :=
  let (h, s) := sramReadL .port (outHalf (portIdx p)) 4 s
  let k := s.prt.get p
  if !k.posted && !k.svc && decide (ofLe (h.drop 2) ≤ 508) then s.putPort p { k with posted := true }
  else s.putPort p { k with refused := true }

/-- MAILBOX_IN_RELEASE. -/
def execMailboxInRelease (p : PortId) (s : State) : Host.Outcome State Fault Refusal := .next <| if s.awake then inDone p s else s

/-- MAILBOX_OUT_POST. -/
def execMailboxOutPost (p : PortId) (s : State) : Host.Outcome State Fault Refusal := .next <| if s.awake then outPost p s else s

/-- STORE_SERVICE_REPLY (R395). -/
def execStoreServiceReply (p : PortId) (s : State) : Host.Outcome State Fault Refusal :=
  .next <|
    let k := s.prt.get p
    match s.img.replies.find? (fun m => m.port == p) with
    | some m =>
      if portReady s && !k.posted && !k.svc then
        let s := sramWriteL .port (outHalf (portIdx p)) ([m.opcode, m.tag] ++ leBytes 2 m.payload.length ++ m.payload) s
        { s.putPort p { k with svc := true } with img.replies := s.img.replies.filter fun m => m.port != p }
      else s
    | none => s

/-- The halves of S, Q and U emptied (R130). -/
def PortSt.emptied (k : PortSt) : PortSt := { k with held := false, posted := false, svc := false }

def Ports.emptied (p : Ports) : Ports := { p with s := p.s.emptied, q := p.q.emptied, u := p.u.emptied }

/-! ### Registers io:0x280 to 0x2AF -/

def portVal1 (p : PortId) (s : State) (o : Nat) : Option Word :=
  let k := s.prt.get p
  if o = 0 then some k.cfg
  else if o = 1 then some k.baud
  else if o = 2 then some (porchWord p s)
  else if o = 3 then some (bitAt 16 1 (k.held || svcBusy p s))
  else if o = 4 then some (bitAt 16 1 k.posted ||| bitAt 16 2 k.svc ||| bitAt 16 3 k.refused)
  else if o = 5 then some (word2 k.errCode k.errOp)
  else if o = 6 then some (word2 k.errTag k.errMore)
  else if o = 7 then some k.disc
  else if o = 8 then some k.rxcnt
  else if o = 9 then some k.txcnt
  else if o = 10 then some k.errcnt
  else none

def portOfAddr (a : Nat) : Option PortId :=
  if 0x280 ≤ a ∧ a < 0x290 then some .s else if 0x290 ≤ a ∧ a < 0x2A0 then some .q else if 0x2A0 ≤ a ∧ a < 0x2AF then some .u else none

def portVal (a : Nat) (s : State) : Option Word :=
  if a = 0x2AF then some (bitAt 16 0 s.prt.cfgBad)
  else match portOfAddr a with
    | some p => portVal1 p s (a % 16)
    | none => none

def portSide (a : Nat) (s : State) : State :=
  match portOfAddr a with
  | some p =>
    let k := s.prt.get p
    let o := a % 16
    s.putPort p { k with disc := if o = 7 then 0 else k.disc, rxcnt := if o = 8 then 0 else k.rxcnt,
                         txcnt := if o = 9 then 0 else k.txcnt, errcnt := if o = 10 then 0 else k.errcnt }
  | none => s

def portPut (a : Nat) (v : Word) (s : State) : State :=
  if a = 0x2AF then { s with prt.cfgBad := s.prt.cfgBad && !v.getLsbD 0 }
  else match portOfAddr a with
    | some p =>
      if a % 16 = 3 then (if v.getLsbD 0 then inDone p s else s)
      else if a % 16 = 4 then
        let s := if v.getLsbD 3 then s.putPort p { (s.prt.get p) with refused := false } else s
        if v.getLsbD 0 then outPost p s else s
      else s
    | none => s

/-- Owned registers of S, Q and U (R227): `some o` with the owning core, if any. -/
def portOwned (a : Nat) (s : State) : Option (Option CoreId) :=
  match portOfAddr a with
  | some p => if a % 16 = 3 ∨ a % 16 = 4 then some (ownerOf (s.prt.get p).cfg) else none
  | none => none

end Machine
end Sys2Proof
end

