-- ==== Sys2Proof/Machine/PortC.lean ====
section
/-!
DEFINITION. Port C: fault confinement, received frames, channel 0's actions, replies, and registers
(14_partner_ports.md, R401 to R409; 12_ashlar.md, R344 to R347).
-/
namespace Sys2Proof
namespace Machine

/-! ### Conditions (R402, R403, R408, R409) -/

/-- REF = EXT. -/
def pcExt (s : State) : Bool := s.pc.cfg.getLsbD 3

/-- CAN FD frames are in use: with the internal reference port C is classical whatever FD says (R402). -/
def pcFd (s : State) : Bool := s.pc.cfg.getLsbD 4 && pcExt s

/-- Port C's engine works: powered from OPEN to BARRED, on, its lands powered (R409, R550). -/
def pcUp (s : State) : Bool := s.powered && s.pc.cfg.getLsbD 0 && !s.pc.off && s.pin.vioOk.getLsbD 0

/-- It takes part in the bus. -/
def pcOnBus (s : State) : Bool := pcUp s && !s.pc.refBad && (s.pc.fsm == .active || s.pc.fsm == .passive)

/-- PC_STAT.REFLOW: listen-only forced while the RC drives the tick (R403). -/
def pcRefLow (s : State) : Bool := s.pc.cfg.getLsbD 0 && !s.pc.off && !pcExt s && s.crs.onRc

/-- Listen-only is in force (R408). -/
def pcListens (s : State) : Bool := s.pc.listen || pcRefLow s

/-- The error state that the counters stand for. -/
def canState (tec rxe : BitVec 8) : CanFsm := if tec.getLsbD 7 || rxe.getLsbD 7 then .passive else .active

/-- A reply under way has not been sent: it starts again while its window lasts (R407). -/
def PortC.loseBus (p : PortC) : PortC := { p with job := p.job.map (fun j => { j with sending := false }) }

/-- Port C leaves the bus and comes back by bus integration; a bus-off stays one (R402, R403, R550). -/
def PortC.leaveBus (p : PortC) : PortC :=
  { p.loseBus with fsm := if p.fsm == .busOff then .busOff else .integrating }

/-! ### Unsent replies (R407) -/

/-- Causes: 1 SLEEP, 2 LISTEN, 3 UNARMED, 4 BUSY, 5 NOLEAVE, 6 WINDOW, 7 BADSLOT. -/
def PortC.unsentFor (p : PortC) (k : BitVec 4) (cause : BitVec 3) : PortC :=
  { p with unsent := satInc p.unsent, ulSlot := k, ulCause := cause }

def State.pcUnsent (s : State) (k : BitVec 4) (cause : BitVec 3) : State := { s with pc := s.pc.unsentFor k cause }

/-- The bytes that a data length code stands for. -/
def dlcBytes (fd : Bool) (d : BitVec 4) : Nat :=
  let n := d.toNat
  if n ≤ 8 then n
  else if !fd then 8
  else if n = 9 then 12 else if n = 10 then 16 else if n = 11 then 20 else if n = 12 then 24 else if n = 13 then 32
  else if n = 14 then 48 else 64

/-- The frame a slot names, as it is written in the out half (R406): `none` where it is malformed. -/
def slotFrame (off : BitVec 7) (s : State) : Option CanFrame × State :=
  let o := 4 * off.toNat
  if 512 < o + 8 then (none, s)
  else
    let (h, s) := sramReadL .port (outHalf 3 + o) 8 s
    let id := ofLe (h.take 4)
    let fdf := id.testBit 30
    let dlc : BitVec 4 := (h.getD 4 0).setWidth 4
    let n := (h.getD 5 0).toNat
    if (fdf && !pcFd s) || n != dlcBytes fdf dlc || decide (512 < o + 8 + n) then (none, s)
    else
      let (l, s) := sramReadL .port (outHalf 3 + o + 8) n s
      (some { id := BitVec.ofNat 29 id, ide := id.testBit 29, rtr := false, fdf := fdf, brs := (h.getD 4 0).getLsbD 4, esi := false,
              dlc := dlc, data := l, tick := 0, us := 0 }, s)

/-- Channel 0 acts on a REPLY for slot k (R407). -/
def pcReply (k : BitVec 4) (s : State) : State :=
  let r := s.pc.rs.get k.toFin
  if !s.awake then s.pcUnsent k 1
  else if pcListens s then s.pcUnsent k 2
  else if !r.armed then s.pcUnsent k 3
  else if s.pc.job.isSome then s.pcUnsent k 4
  else match slotFrame r.off s with
    | (none, s) => s.pcUnsent k 7
    | (some f, s) => { s with pc.job := some { slot := k, frame := f, granted := false, sending := false } }.ask 5 .portC

/-! ### Frames kept (R405) -/

/-- The record of a kept frame. -/
def pcRecord (f : CanFrame) : List Byte :=
  let b := canBody f
  padTo ((b.length + 3) / 4 * 4) b

/-- Free bytes of the in half before PC_IN_RD. -/
def pcFree (p : PortC) : Nat := if p.inRd = p.inWr then 512 else (512 + p.inRd.toNat - p.inWr.toNat) % 512

/-- A frame is kept, or counted where there is no room. -/
def pcKeep (f : CanFrame) (s : State) : State :=
  let l := pcRecord f
  let w := s.pc.inWr.toNat
  let wrap := decide (512 < w + l.length)
  let need := l.length + (if wrap then 512 - w else 0)
  if need + 4 ≤ pcFree s.pc then
    let t := if wrap then sramWriteL .port (inHalf 3 + w) [0xFF, 0xFF, 0xFF, 0xFF] s else s
    let w := if wrap then 0 else w
    let t := sramWriteL .port (inHalf 3 + w) l t
    emit [0x07] { t with pc.inWr := BitVec.ofNat 9 (w + l.length) }
  else { s with pc.noroom := satInc s.pc.noroom }

/-! ### Channel 0 (R344 to R347) -/

/-- The action of a search's result; RSLOT in [15:12], LOG 8, KEEP 7, REPLY 6, WAKE 5, RAISE 4, EVT in [3:0]. -/
def ch0Act (d : Word) (f : CanFrame) (s : State) : State :=
  let s := { s with pc.rxq := s.pc.rxq.drop 1, ash.ch0 := .idle }
  let s := if d.getLsbD 4 && s.awake then emit [0x10 ||| (d.setWidth 4).setWidth 8] s else s
  let s := if d.getLsbD 5 then fire 3 s else s
  let s := if d.getLsbD 6 then pcReply ((d >>> 12).setWidth 4) s else s
  let s := if !d.getLsbD 7 then s else if s.awake then pcKeep f s else { s with pc.slpdrop := satInc s.pc.slpdrop }
  if d.getLsbD 8 && s.awake then offerCan f s else s

/-- A pass with leave, or that needs none: its matches, and what follows where it matches nothing. -/
def ch0Look (f : CanFrame) (pass2 : Bool) (s : State) : List (Nat × BitVec 8) × Bool × State :=
  let (l, rep, bad, s) := ashSearch (ch0Query s.ash f pass2) bankSet0 s
  (l, bad, { s with ash.rep := s.ash.rep || rep })

/-- A pass is unfiltered (R341). -/
def ch0Unfiltered (f : CanFrame) (pass2 : Bool) (s : State) : Bool :=
  decide ((ch0Query s.ash f pass2).g = 0#4) && manyBanks (bankSet0 s)

/-- Pass 2: searched, or leave asked for. -/
def ch0Pass2 (f : CanFrame) (s : State) : State :=
  if ch0Unfiltered f true s then { s with ash.ch0 := .waiting f true }.ask 4 .ash0
  else match ch0Look f true s with
    | (m :: _, _, s) => ch0Act (ashEntry s.ash m.1).data f s
    | ([], _, s) => ch0Act s.ash.nomat f s

/-- What follows a pass that was made: its action, or pass 2 where pass 1 matched nothing. -/
def ch0After (f : CanFrame) (pass2 : Bool) (r : List (Nat × BitVec 8) × Bool × State) : State :=
  match r with
  | (m :: _, _, s) => ch0Act (ashEntry s.ash m.1).data f s
  | ([], bad, s) => if !pass2 && !bad && s.ash.c0pass2 then ch0Pass2 f s else ch0Act s.ash.nomat f s

/-- CHANNEL0_SEARCH (R345, R341). -/
def execChannel0Search (s : State) : Host.Outcome State Fault Refusal :=
  .next <|
    if !s.powered then s
    else match s.ash.ch0 with
      | .waiting _ _ => s
      | .leave f pass2 =>
        let (l, bad, t) := ch0Look f pass2 s
        ch0After f pass2 (l, bad, t.fin 4 .ash0)
      | .idle =>
        match s.pc.rxq with
        | [] => s
        | f :: _ =>
          if ch0Unfiltered f false s then { s with ash.ch0 := .waiting f false }.ask 4 .ash0
          else ch0After f false (ch0Look f false s)

/-- The Porter's answer reaches channel 0: a denied pass is not made and counts as one that matches nothing (R83, R341). -/
def ch0Answer (a : Answer) (s : State) : State :=
  match a, s.ash.ch0 with
  | .grant, .waiting f p => { s with ash.ch0 := .leave f p }
  | .grant, _ => s.fin 4 .ash0
  | .deny _, .waiting f p => ch0After f p ([], false, { s with ash.nolv := satInc s.ash.nolv, ash.ch0 := .idle })
  | _, _ => s

/-! ### The bus -/

/-- CAN_FRAME_ACCEPT (R404). `own`: the frame was sent by port C. Another's frame ends an arbitration that port C had entered. -/
def execCanFrameAccept (f : CanFrame) (own : Bool) (sub : BitVec 10) (s : State) : Host.Outcome State Fault Refusal :=
  .next <|
    let s := s.atSub sub
    if own || !pcOnBus s || (f.fdf && !pcFd s) then s
    else
      let p := s.pc.loseBus
      let p := { p with rxcnt := satInc p.rxcnt }
      if 4 ≤ p.rxq.length then { s with pc := { p with rxlost := satInc p.rxlost } }
      else
        let f := { f with tick := s.crs.tick, us := sub }
        { s with pc := { p with rxq := p.rxq ++ [f] } }

/-- CAN_FDF_IGNORE (R402). -/
def execCanFdfIgnore (s : State) : Host.Outcome State Fault Refusal :=
  .next <|
    if pcOnBus s && !pcFd s then emit [] { s with pc := { s.pc.leaveBus with fdign := satInc s.pc.fdign } } else s

/-- CAN_BUS_INTEGRATION (R402, R403, R550): 11 consecutive recessive bits. -/
def execCanBusIntegration (s : State) : Host.Outcome State Fault Refusal :=
  .next <|
    if pcUp s && !s.pc.refBad && s.pc.fsm == .integrating then emit [] { s with pc.fsm := canState s.pc.tec s.pc.rxe } else s

/-- CAN_BUS_ERROR (R401): the counters and whether they mean bus-off are as ISO 11898-1 gives them. In listen-only mode nothing
changes (R408). -/
def execCanBusError (tec : BitVec 8) (rxe : BitVec 8) (busOff : Bool) (s : State) : Host.Outcome State Fault Refusal :=
  .next <|
    if pcOnBus s && !pcListens s then
      let p := { s.pc.leaveBus with tec := tec, rxe := rxe }
      emit [] { s with pc := if busOff then { p with fsm := .busOff, recovering := false, boffcnt := satInc p.boffcnt }
                             else { p with fsm := canState tec rxe } }
    else s

/-- CAN_BUS_OFF_RECOVERY_END (R401). -/
def execCanBusOffRecoveryEnd (s : State) : Host.Outcome State Fault Refusal :=
  .next <|
    if pcUp s && !s.pc.refBad && s.pc.fsm == .busOff && (s.pc.recovering || !s.pc.cfg.getLsbD 5) then
      emit [] { s with pc := { s.pc with fsm := .active, recovering := false, tec := 0, rxe := 0 } }
    else s

/-- BTREF_LOSS (R403). -/
def execBtrefLoss (s : State) : Host.Outcome State Fault Refusal :=
  .next <| if s.powered && pcExt s then emit [] { s with pc := { s.pc.leaveBus with refBad := true } } else s

/-- BTREF_RECOVER (R403). -/
def execBtrefRecover (s : State) : Host.Outcome State Fault Refusal :=
  .next <| if s.powered && s.pin.vioOk.getLsbD 0 then { s with pc.refBad := false } else s

/-- VIO_LOSS (R414, R550). -/
def execVioLoss (bank : PinBank) (s : State) : Host.Outcome State Fault Refusal :=
  .next <|
    let n := match bank with
      | .a => 0
      | .b => 1
      | .c => 2
    let s := { s with pin.vioOk := setBit s.pin.vioOk n false }
    let s := if n = 0 then { s with pc := { s.pc.leaveBus with refBad := s.pc.refBad || pcExt s } } else s
    emit [] s

/-! ### Replies on the bus (R407) -/

/-- CAN_REPLY_TRANSMIT. -/
def execCanReplyTransmit (s : State) : Host.Outcome State Fault Refusal :=
  .next <|
    match s.pc.job with
    | some j => if j.granted && !j.sending && s.awake && pcOnBus s && !pcListens s then { s with pc.job := some { j with sending := true } } else s
    | none => s

/-- The slot of a reply that was sent (R406). -/
def RespSlot.afterSent (r : RespSlot) : RespSlot := if r.keep then r else { r with armed := false }

/-- CAN_REPLY_SENT. -/
def execCanReplySent (s : State) : Host.Outcome State Fault Refusal :=
  .next <|
    match s.pc.job with
    | some j =>
      if j.sending then
        let p := s.pc
        { s with pc := { p with sent := satInc p.sent, job := none, rs := p.rs.set j.slot.toFin (p.rs.get j.slot.toFin).afterSent } }.fin 5 .portC
      else s
    | none => s

/-- CAN_REPLY_WINDOW_EXPIRY (R81). -/
def execCanReplyWindowExpiry (s : State) : Host.Outcome State Fault Refusal :=
  .next <|
    match s.pc.job with
    | some j =>
      if j.sending then s
      else
        let t := { s with pc := { (s.pc.unsentFor j.slot 6) with job := none } }
        if j.granted then t.fin 5 .portC else t.withdraw 5 .portC
    | none => s

/-- The Porter's answer reaches port C. -/
def portCAnswer (a : Answer) (s : State) : State :=
  match a, s.pc.job with
  | .grant, some j => if j.granted then s.fin 5 .portC else { s with pc.job := some { j with granted := true } }
  | .grant, none => s.fin 5 .portC
  | .deny _, some j => if j.granted then s else { s with pc := { (s.pc.unsentFor j.slot 5) with job := none } }
  | _, _ => s

/-! ### Registers io:0x2B0 to 0x2D3 -/

def pcOwner (s : State) : Option CoreId := ownerOf s.pc.cfg

/-- A write of PC_MODE (R401, R408). -/
def pcModePut (v : Word) (p : PortC) : PortC :=
  { p with listen := v.getLsbD 0, recovering := p.recovering || (v.getLsbD 1 && p.fsm == .busOff && p.cfg.getLsbD 5) }

/-- A write of PC_RSk (R406); which of ARMED and DISARM wins when both are written 1 is left open. -/
def pcSlotPut (k : Fin 16) (v : Word) (s : State) : State :=
  let r := s.pc.rs.get k
  let both := v.getLsbD 8 && v.getLsbD 9
  let armed := if both then Config.freeBit s.free else (r.armed || v.getLsbD 8) && !v.getLsbD 9
  { s with pc.rs := s.pc.rs.set k { off := v.setWidth 7, armed := armed, keep := v.getLsbD 10 }
           free := if both then s.free + 1 else s.free }

def pcReadPut (v : Word) (p : PortC) : PortC := { p with inRd := (v.setWidth 9) &&& 0x1FC }

/-- A write by a core to a register of port C that its owner alone may write (R227). -/
def pcOwned (who : Who) (f : State → State) (s : State) : State :=
  if s.awake && pcOwner s == some (s.actsAs who) then f s else s

/-- CAN_BUS_OFF_RECOVER (R401). -/
def execCanBusOffRecover (who : Who) (v : BitVec 16) (s : State) : Host.Outcome State Fault Refusal :=
  .next <| pcOwned who (fun s => { s with pc := pcModePut v s.pc }) s

/-- CAN_LISTEN_WRITE (R408). -/
def execCanListenWrite (who : Who) (v : BitVec 16) (s : State) : Host.Outcome State Fault Refusal :=
  .next <| pcOwned who (fun s => { s with pc := pcModePut v s.pc }) s

/-- CAN_REPLY_SLOT_ARM (R406). -/
def execCanReplySlotArm (who : Who) (k : BitVec 4) (v : BitVec 16) (s : State) : Host.Outcome State Fault Refusal :=
  .next <| pcOwned who (pcSlotPut k.toFin v) s

/-- CAN_REPLY_SLOT_DISARM (R406). -/
def execCanReplySlotDisarm (who : Who) (k : BitVec 4) (v : BitVec 16) (s : State) : Host.Outcome State Fault Refusal :=
  .next <| pcOwned who (pcSlotPut k.toFin v) s

/-- CAN_IN_CONSUME (R405). -/
def execCanInConsume (who : Who) (v : BitVec 16) (s : State) : Host.Outcome State Fault Refusal :=
  .next <| pcOwned who (fun s => { s with pc := pcReadPut v s.pc }) s

def CanFsm.code : CanFsm → BitVec 2
  | .integrating => 0
  | .active => 1
  | .passive => 2
  | .busOff => 3

def pcVal (a : Nat) (s : State) : Option Word :=
  let p := s.pc
  if a < 0x2B0 then none
  else if a < 0x2B6 then
    some (if a = 0x2B0 then p.cfg else if a = 0x2B1 then p.btn0 else if a = 0x2B2 then p.btn1 else if a = 0x2B3 then p.btd0
          else if a = 0x2B4 then p.btd1 else p.rwin)
  else if a = 0x2B6 then some (bitAt 16 0 p.listen)
  else if a = 0x2B7 then some (fieldAt 16 0 p.fsm.code ||| bitAt 16 2 p.refBad ||| bitAt 16 3 (pcRefLow s) ||| bitAt 16 4 (pcListens s) |||
    bitAt 16 5 p.job.isSome)
  else if a = 0x2B8 then some (word2 p.tec p.rxe)
  else if a = 0x2B9 then some (p.inWr.setWidth 16)
  else if a = 0x2BA then some (p.inRd.setWidth 16)
  else if a = 0x2BB then some (fieldAt 16 0 p.ulSlot ||| fieldAt 16 4 p.ulCause)
  else if a < 0x2C4 then
    some (if a = 0x2BC then p.rxcnt else if a = 0x2BD then p.rxlost else if a = 0x2BE then p.noroom else if a = 0x2BF then p.slpdrop
          else if a = 0x2C0 then p.sent else if a = 0x2C1 then p.unsent else if a = 0x2C2 then p.fdign else p.boffcnt)
  else if a < 0x2D4 then
    let r := vat { off := 0, armed := false, keep := false } p.rs (a - 0x2C4)
    some (fieldAt 16 0 r.off ||| bitAt 16 8 r.armed ||| bitAt 16 10 r.keep)
  else none

def pcSide (a : Nat) (s : State) : State :=
  let p := s.pc
  { s with pc := { p with rxcnt := if a = 0x2BC then 0 else p.rxcnt, rxlost := if a = 0x2BD then 0 else p.rxlost,
                          noroom := if a = 0x2BE then 0 else p.noroom, slpdrop := if a = 0x2BF then 0 else p.slpdrop,
                          sent := if a = 0x2C0 then 0 else p.sent, unsent := if a = 0x2C1 then 0 else p.unsent,
                          fdign := if a = 0x2C2 then 0 else p.fdign, boffcnt := if a = 0x2C3 then 0 else p.boffcnt } }

def pcPut (a : Nat) (v : Word) (s : State) : State :=
  if a = 0x2B6 then { s with pc := pcModePut v s.pc }
  else if a = 0x2BA then { s with pc := pcReadPut v s.pc }
  else if 0x2C4 ≤ a ∧ a < 0x2D4 then pcSlotPut (Fin.ofNat 16 (a - 0x2C4)) v s
  else s

/-- Owned registers of port C (R227). -/
def pcOwnedReg (a : Nat) (s : State) : Option (Option CoreId) :=
  if a = 0x2B6 ∨ a = 0x2BA ∨ (0x2C4 ≤ a ∧ a < 0x2D4) then some (pcOwner s) else none

/-- A sleep below LATCHED empties the in half (R130). -/
def PortC.emptied (p : PortC) : PortC := { p with inRd := p.inWr }

end Machine
end Sys2Proof
end

