-- ==== Sys2Proof/Machine/Energy.lean ====
section
/-!
DEFINITION. The energy entry: sources, converters, the store's thresholds, the cell and VOUT3 (02_energy_entry.md).
-/
namespace Sys2Proof
namespace Machine

/-! ### The selector (R28, R33 to R36) -/

def Energy.q (e : Energy) : Source → Bool
  | .hv => e.hvQ
  | .veh => e.vehQ
  | .harv => e.harvQ

def Energy.setQ (e : Energy) (src : Source) (b : Bool) : Energy :=
  match src with
  | .hv => { e with hvQ := b }
  | .veh => { e with vehQ := b }
  | .harv => { e with harvQ := b }

/-- The highest-priority qualified source (R28). -/
def Energy.best (e : Energy) : Sel := if e.hvQ then .hv else if e.vehQ then .veh else if e.harvQ then .harv else .none

def selOf : Source → Sel
  | .hv => .hv
  | .veh => .veh
  | .harv => .harv

/-- A switch-over to the best source, where that is another (R34 to R36). The margin of R45 counts as met until an event says
otherwise (log entry 12). -/
def Energy.reselect (e : Energy) : Energy :=
  if e.best = e.sel then { e with selDead := false }
  else { e with sel := e.best, swcnt := satInc e.swcnt, hold := true, selDead := false, marginOk := true, pass := false }

def lostBit : Source → Nat
  | .hv => 0
  | .veh => 1
  | .harv => 2

/-- A source meets its loss condition (R33, R35, R36). -/
def Energy.lose (e : Energy) (src : Source) : Energy :=
  if e.q src then
    let e := { (e.setQ src false) with stat := setBit e.stat (lostBit src) true }
    if e.hold then (if e.sel = selOf src then { e with selDead := true } else e) else e.reselect
  else e

/-- SOURCE_QUALIFY (R33). In SEALED it fires SRC; during the last-gasp sequence it will start the part again (R92). -/
def execSourceQualify (src : Source) (s : State) : Host.Outcome State Fault Refusal :=
  .next <|
    if s.en.q src then s else
    let e := s.en.setQ src true
    let s := { s with en := if e.hold then e else e.reselect }
    emit [] (if s.pwr.phase = .asleep .sealed then fire 10 s
      else if s.por.lgActive && s.powered then { s with isl.fired := setBit s.isl.fired 10 true } else s)

/-- SOURCE_LOSS (R33). -/
def execSourceLoss (src : Source) (s : State) : Host.Outcome State Fault Refusal := .next <| emit [] { s with en := s.en.lose src }

/-- SELECTOR_HOLD_END (R35). -/
def execSelectorHoldEnd (s : State) : Host.Outcome State Fault Refusal :=
  .next <| if s.en.hold then emit [] { s with en := { s.en with hold := false }.reselect } else s

/-! ### The mains path (R37 to R41) -/

/-- FLYBACK_START. -/
def execFlybackStart (s : State) : Host.Outcome State Fault Refusal :=
  .next { s with en.lineCap := true, en.flyback := if s.en.flyback = .off then .startup else s.en.flyback }

/-- FLYBACK_STOP. -/
def execFlybackStop (s : State) : Host.Outcome State Fault Refusal := .next { s with en.flyback := .off }

/-- FLYBACK_SWITCHING_START (R39). -/
def execFlybackSwitchingStart (s : State) : Host.Outcome State Fault Refusal :=
  .next <| if s.en.flyback = .startup then { s with en.flyback := .switching } else s

/-- FLYBACK_VDDP_LOW (R39): the start-up cell charges VDDP again. -/
def execFlybackVddpLow (s : State) : Host.Outcome State Fault Refusal :=
  .next <| if s.en.flyback = .switching then { s with en.flyback := .startup } else s

/-- FLYBACK_FAULT (R40). -/
def execFlybackFault (cause : FlybackCause) (s : State) : Host.Outcome State Fault Refusal :=
  .next <|
    match s.en.flyback with
    | .off => s
    | _ => { s with en.flyback := .holdoff true (cause == .overTemp) }

/-- FLYBACK_RESTART (R40): the hold-off ends, or with `cooled` the primary region is below 130 °C. -/
def execFlybackRestart (cooled : Bool) (s : State) : Host.Outcome State Fault Refusal :=
  .next <|
    match s.en.flyback with
    | .holdoff t h =>
      let t' := if cooled then t else false
      let h' := if cooled then false else h
      { s with en.flyback := if t' || h' then .holdoff t' h' else .startup }
    | _ => s

/-- X_CAP_DISCHARGE (R41). -/
def execXCapDischarge (s : State) : Host.Outcome State Fault Refusal := .next { s with en.lineCap := false }

/-! ### Stops of the converters (R45, R46, R49 to R53, R59) -/

/-- VEH_OVERVOLTAGE (R46). -/
def execVehOvervoltage (above : Bool) (s : State) : Host.Outcome State Fault Refusal :=
  .next { s with en.vehOv := above, en.stat := if above then setBit s.en.stat 3 true else s.en.stat }

/-- HVSEC_OVERVOLTAGE (R66). -/
def execHvsecOvervoltage (above : Bool) (s : State) : Host.Outcome State Fault Refusal :=
  .next { s with en.hvOv := above, en.stat := if above then setBit s.en.stat 4 true else s.en.stat }

/-- ENTRY_BUCK_MARGIN (R45). -/
def execEntryBuckMargin (met : Bool) (s : State) : Host.Outcome State Fault Refusal :=
  .next <| if s.en.sel = .hv || s.en.sel = .veh then { s with en.marginOk := met } else s

/-- K of the tracking, in hundredths (R50). -/
def harvK (e : Energy) : Nat := 50 + 5 * e.cfg.k.toNat

/-- HARV_TRACKING_SAMPLE (R50, R51): open-circuit voltage and STORE in mV. -/
def execHarvTrackingSample (voc store : BitVec 16) (s : State) : Host.Outcome State Fault Refusal :=
  .next <|
    if s.en.sel = .harv then
      let s := { s with en.harvVoc := satOf 13 voc.toNat }
      if voc.toNat < 250 then emit [] { s with en := s.en.lose .harv }
      else { s with en.harvPoint := BitVec.ofNat 16 (divOpenN (harvK s.en * voc.toNat) 100),
                    en.pass := decide (harvK s.en * voc.toNat + 10000 ≥ 100 * store.toNat) }
    else s

/-- PRECHARGE_END (R49). -/
def execPrechargeEnd (s : State) : Host.Outcome State Fault Refusal := .next { s with en.precharge := false }

/-- COLD_STARTER_START (R53). -/
def execColdStarterStart (s : State) : Host.Outcome State Fault Refusal :=
  .next <| if s.en.hvQ || s.en.vehQ then s else { s with en.coldStarter := true }

/-- COLD_STARTER_HANDOVER (R53). -/
def execColdStarterHandover (s : State) : Host.Outcome State Fault Refusal := .next { s with en.coldStarter := false }

/-- STORE_TARGET_REACHED (R59). -/
def execStoreTargetReached (reached : Bool) (s : State) : Host.Outcome State Fault Refusal := .next { s with en.storeFull := reached }

/-- STORE_OVERVOLTAGE (R59). -/
def execStoreOvervoltage (above : Bool) (s : State) : Host.Outcome State Fault Refusal :=
  .next { s with en.storeOv := above, en.stat := if above then setBit s.en.stat 5 true else s.en.stat }

/-- DERZOR_OVERTEMP (R66). -/
def execDerzorOvertemp (above : Bool) (s : State) : Host.Outcome State Fault Refusal :=
  .next { s with en.overTemp := above, en.stat := if above then setBit s.en.stat 9 true else s.en.stat }

/-- ENT_SRC.CHG: the selected converter charges STORE. -/
def Energy.charging (e : Energy) : Bool :=
  !e.selDead && !e.storeOv && !e.overTemp && !e.storeFull &&
  match e.sel with
  | .none => false
  | .hv => !e.hvOv && e.marginOk
  | .veh => !e.vehOv && e.marginOk
  | .harv => true

/-! ### Cell and island (R54 to R56) -/

/-- ISLAND_SUPPLY_SWITCH (R54). -/
def execIslandSupplySwitch (toCell : Bool) (s : State) : Host.Outcome State Fault Refusal := .next { s with en.islandOnCell := toCell }

/-- CELL_LOW (R55): the bit is set only while the Derzor domain is powered. -/
def execCellLow (s : State) : Host.Outcome State Fault Refusal :=
  .next { s with en.cellP := false, en.stat := if s.powered then setBit s.en.stat 6 true else s.en.stat }

/-- CELL_PRESENT (R55). -/
def execCellPresent (s : State) : Host.Outcome State Fault Refusal := .next { s with en.cellP := true }

/-- ENT_SRC.CELL_CHG (R56). -/
def Energy.cellCharging (e : Energy) : Bool := e.cfg.chgEn && (e.sel == .hv || e.sel == .veh) && e.store3v && !e.cellOv

/-- CELL_CHARGE_CHANGE (R56): STORE rises to 3.0 V, or falls below. -/
def execCellChargeChange (on : Bool) (s : State) : Host.Outcome State Fault Refusal :=
  .next { s with en.store3v := on, en.cellOv := s.en.cellOv && !on }

/-- CELL_OVERVOLTAGE (R56). -/
def execCellOvervoltage (s : State) : Host.Outcome State Fault Refusal :=
  .next <| if s.en.cellCharging then { s with en.cellOv := true, en.stat := setBit s.en.stat 7 true } else s

/-! ### VOUT3 (R62, R63) -/

/-- A VOUT3 mode put in force. -/
def vout3Apply (m : VoutMode) (s : State) : State := { s with en.vout3 := m, en.vout3Pg := m != .off }

def voutOfCode (c : BitVec 2) : VoutMode := if c = 1 then .lowq else if c = 2 then .on else .off

def VoutMode.code : VoutMode → BitVec 2
  | .off => 0
  | .lowq => 1
  | .on => 2

/-- VOUT3_CURRENT_LIMIT (R63). -/
def execVout3CurrentLimit (s : State) : Host.Outcome State Fault Refusal :=
  .next <| if s.en.vout3 = .off then s else vout3Apply .off { s with en.stat := setBit s.en.stat 8 true }

/-- A write of VOUT3_CTL; the reserved code is ignored. The mode applies in OPEN and AJAR. -/
def vout3Write (v : Word) (s : State) : State :=
  let m : BitVec 2 := v.setWidth 2
  if m = 3 then s
  else
    let s := { s with en.vout3Ctl := m }
    if s.mainOn then vout3Apply (voutOfCode m) s else s

/-- VOUT3_MODE_WRITE (R63). -/
def execVout3ModeWrite (v : BitVec 16) (s : State) : Host.Outcome State Fault Refusal := .next (vout3Write v s)

/-- Each wake into OPEN reloads the image's OPEN mode. -/
def vout3Wake (s : State) : State :=
  vout3Apply s.en.cfg.voutOpen { s with en.vout3Ctl := VoutMode.code s.en.cfg.voutOpen }

/-- The image's mode for a sleep state (R62). -/
def vout3Sleep (t : Sleep) (s : State) : State :=
  vout3Apply (match t with
    | .latched => s.en.cfg.voutLatched
    | .shuttered => s.en.cfg.voutShuttered
    | .barred => s.en.cfg.voutBarred
    | .sealed => .off) s

/-! ### Registers io:0x060 to 0x068 -/

def Sel.code : Sel → BitVec 2
  | .none => 0
  | .hv => 1
  | .veh => 2
  | .harv => 3

def energyVal (a : Nat) (s : State) : Option Word :=
  let e := s.en
  if a = 0x060 then some (fieldAt 16 0 e.sel.code ||| bitAt 16 2 e.hvQ ||| bitAt 16 3 e.vehQ ||| bitAt 16 4 e.harvQ |||
    bitAt 16 5 e.cellP ||| bitAt 16 6 e.charging ||| bitAt 16 7 e.cellCharging ||| bitAt 16 8 e.pass)
  else if a = 0x061 then some (fieldAt 16 0 e.stat ||| bitAt 16 10 s.isl.brown)
  else if a = 0x062 then some e.swcnt
  else if a = 0x063 then some (fieldAt 16 0 e.cfg.storeTgt ||| fieldAt 16 5 e.cfg.vehIlim ||| fieldAt 16 8 e.cfg.hvIlim)
  else if a = 0x064 then some (fieldAt 16 0 e.cfg.k ||| fieldAt 16 4 e.cfg.period)
  else if a = 0x065 then some (e.harvVoc.setWidth 16)
  else if a = 0x066 then some (bitAt 16 0 e.cfg.chgEn ||| fieldAt 16 1 e.cfg.cv ||| fieldAt 16 3 e.cfg.cellIlim)
  else if a = 0x067 then some (e.vout3Ctl.setWidth 16)
  else if a = 0x068 then some (fieldAt 16 0 e.vcoreSet ||| bitAt 16 7 s.mainOn ||| bitAt 16 8 e.vout3Pg |||
    fieldAt 16 9 (VoutMode.code e.vout3))
  else none

def energySide (a : Nat) (s : State) : State := if a = 0x062 then { s with en.swcnt := 0 } else s

def energyPut (a : Nat) (v : Word) (s : State) : State :=
  if a = 0x061 then { s with en.stat := s.en.stat &&& ~~~(v.setWidth 12), isl.brown := s.isl.brown && !v.getLsbD 10 }
  else if a = 0x067 then vout3Write v s
  else s

end Machine
end Sys2Proof
end

