-- ==== Sys2Proof/Machine/Pane.lean ====
section
/-!
DEFINITION. The Pane: rail order, frames, the frame store and the LED sinks (17_pane_display.md).
-/
namespace Sys2Proof
namespace Machine

/-! ### Rails (R470 to R475) -/

/-- Rails of the last power-up step, numbered as FRAIL: DVCOM 3, DVS1 4, DVS2 5, DVS3 6. -/
def paneTop (c : PaneCfg) : List Nat :=
  match c.mode with
  | .none => []
  | .matrix => [3, 6]
  | .segment => if c.coms = 1 then [6] else [4, 5, 6]
  | .split => [3, 4, 5, 6]

/-- The rail steps of a power-up in order (R472 steps 2 to 5; a segment panel has no DVGL and DVGH steps). -/
def paneSteps (c : PaneCfg) : List (List Nat) :=
  match c.mode with
  | .none => []
  | .segment => [[0], paneTop c]
  | _ => [[0], [1], [2], paneTop c]

/-- The rail steps of a power-down in order (R473 steps 4 to 6). -/
def paneFallSteps (c : PaneCfg) : List (List Nat) := (paneSteps c).tail.reverse

def paneUsed (c : PaneCfg) : List Nat := (paneSteps c).flatten

/-- Every used rail other than VIOD is off. -/
def railsOff (p : Pane) : Bool := (paneUsed p.cfg).all fun r => r == 0 || p.offs.getLsbD r

/-- The index of the step that names a rail. -/
def stepOf (l : List (List Nat)) (r : Nat) : Nat := l.findIdx fun g => g.contains r

/-- The Pane enters FAULT (R474): the frame stops, sinks carry nothing, the cause and the rail are recorded. -/
def paneFault (cause : BitVec 2) (rail : Nat) (s : State) : State :=
  let s := if s.pane.frame.isSome then s.fin 2 .pane else s
  { s with pane := { s.pane with st := .fault, orderFault := true, frail := BitVec.ofNat 3 rail, fcause := cause, frame := none,
                                 oor := 0 } }

/-- Steps of a power-up that are complete one after another, from step index n. -/
def riseTo (p : Pane) : Nat → Nat → Nat
  | 0, n => n
  | f + 1, n =>
    match (paneSteps p.cfg)[n]? with
    | some g => if g.all (fun r => p.good.getLsbD r) then riseTo p f (n + 1) else n
    | none => n

def fallTo (p : Pane) : Nat → Nat → Nat
  | 0, n => n
  | f + 1, n =>
    match (paneFallSteps p.cfg)[n]? with
    | some g => if g.all (fun r => p.offs.getLsbD r) then fallTo p f (n + 1) else n
    | none => n

/-- RISE moves on with its completed steps, and ends in CLEAR (R472). -/
def paneRise (p : Pane) : Pane :=
  let n := riseTo p 4 p.stepDone
  if n ≥ (paneSteps p.cfg).length then { p with st := .clear, stepDone := n, clrDone := 0 } else { p with stepDone := n }

/-- FALL moves on, and ends in OFF (R473). -/
def paneFall (p : Pane) : Pane :=
  let n := fallTo p 3 p.stepDone
  if n ≥ (paneFallSteps p.cfg).length then { p with st := .off, stepDone := 0 } else { p with stepDone := n }

/-- UP is written (R472 step 1). -/
def paneUp (s : State) : State :=
  match (paneUsed s.pane.cfg).find? (fun r => r != 0 && !s.pane.offs.getLsbD r) with
  | some r =>
    let low := (List.range 7).find? fun k => k != 0 && (paneUsed s.pane.cfg).contains k && !s.pane.offs.getLsbD k
    paneFault 1 (low.getD r) s
  | none => { s with pane := paneRise { s.pane with st := .rise, stepDone := 0 } }

/-- DOWN is written in RISE, CLEAR or LIT (R473). -/
def paneDown (s : State) : State :=
  match s.pane.st with
  | .rise => { s with pane := paneFall { s.pane with st := .fall, stepDone := 0 } }
  | _ => { s with pane := { s.pane with st := .down, clrDone := 0, oor := 0 } }

/-- A command word at PANE_CTL (R475, R477); `none` where it is rejected. -/
def paneCtl (v : Word) (s : State) : Option State :=
  let c := v.setWidth 3
  if c = 1#3 then if s.pane.st = .off && s.pane.cfg.mode != .none then some (paneUp s) else none
  else if c = 2#3 then
    if s.pane.st = .rise || s.pane.st = .clear || s.pane.st = .lit then some (paneDown s) else none
  else if c = 4#3 then
    if s.pane.st = .fault && railsOff s.pane then some { s with pane.st := .off } else none
  else none

/-- A register write that the Derzor end takes, or rejects with a late fault (R297). -/
def orReject (a : Nat) (v : Word) (who : Who) (s : State) (r : Option State) : State :=
  match r with
  | some t => t
  | none => s.lateWord a 3 v who

/-- The core that owns the Pane (R484). -/
def paneOwner (s : State) : CoreId := if s.pane.cfg.owner then .b else .a

def paneCmd (who : Who) (v : Word) (s : State) : State :=
  if s.powered && s.actsAs who = paneOwner s then orReject 0x381 v who s (paneCtl v s) else s

/-- PANE_UP (R472). -/
def execPaneUp (who : Who) (s : State) : Host.Outcome State Fault Refusal := .next (paneCmd who 1 s)

/-- PANE_DOWN (R473). -/
def execPaneDown (who : Who) (s : State) : Host.Outcome State Fault Refusal := .next (paneCmd who 2 s)

/-- PANE_CLR (R475). -/
def execPaneClr (who : Who) (s : State) : Host.Outcome State Fault Refusal := .next (paneCmd who 4 s)

/-- A used rail became good in RISE, or left good: what the state makes of it (R474). -/
def railJudge (r : Nat) (rose fell : Bool) (s : State) : State :=
  let p := s.pane
  if !(paneUsed p.cfg).contains r then s else
  match p.st with
  | .rise =>
    if rose && decide (stepOf (paneSteps p.cfg) r > p.stepDone) then paneFault 1 r s
    else if fell && decide (stepOf (paneSteps p.cfg) r < p.stepDone) then paneFault 3 r s
    else { s with pane := paneRise p }
  | .clear | .lit | .down => if fell then paneFault 3 r s else s
  | .fall =>
    if fell && r == 0 then paneFault 3 r s
    else if fell && decide (stepOf (paneFallSteps p.cfg) r > p.stepDone) then paneFault 1 r s
    else { s with pane := paneFall p }
  | .off | .fault | .disch => s

/-- PANE_RAIL_CHANGE (R471, R474): the comparators declare rail r good, off, or neither. -/
def execPaneRailChange (rail : BitVec 3) (good isOff : Bool) (s : State) : Host.Outcome State Fault Refusal :=
  .next <|
    let r := rail.toNat
    if s.powered && decide (r < 7) then
      let was := s.pane.good.getLsbD r
      let s' := { s with pane.good := setBit s.pane.good r good, pane.offs := setBit s.pane.offs r (isOff && !good) }
      railJudge r (good && !was) (was && !good) s'
    else s

/-- PANE_RAIL_WINDOW_EXPIRY (R474): a step of RISE or FALL is not complete within RAIL_WIN. -/
def execPaneRailWindowExpiry (s : State) : Host.Outcome State Fault Refusal :=
  .next <|
    let p := s.pane
    match p.st with
    | .rise =>
      let g := (paneSteps p.cfg).getD p.stepDone []
      paneFault 2 (((List.range 7).find? fun r => g.contains r && !p.good.getLsbD r).getD 0) s
    | .fall =>
      let g := (paneFallSteps p.cfg).getD p.stepDone []
      paneFault 2 (((List.range 7).find? fun r => g.contains r && !p.offs.getLsbD r).getD 0) s
    | _ => s

/-! ### Frames (R461, R464, R466, R467) -/

/-- Frames are drawn in this state (R466). -/
def paneDraws (p : Pane) : Bool :=
  match p.st with
  | .clear => true
  | .lit => true
  | .down => decide (p.clrDone.toNat < 2)
  | _ => false

/-- The Pane window opens: a frame falls due (R466). -/
def paneWindowOpen (s : State) : State := if paneDraws s.pane then { s with pane.due := true } else s

/-- A request or a hold that no frame has used is given back. -/
def paneDropLeave (s : State) : State :=
  match s.pane.leave with
  | .asked => { s.withdraw 2 .pane with pane.leave := .none }
  | .granted => { s.fin 2 .pane with pane.leave := .none }
  | _ => { s with pane.leave := .none }

/-- A due frame is skipped with a cause (R466). -/
def paneSkip (why : BitVec 2) (s : State) : State :=
  { s with pane.due := false, pane.skip := satInc s.pane.skip, pane.skipWhy := why }

/-- The Pane window closes: a frame that has not started is skipped (R466). -/
def paneWindowClose (s : State) : State :=
  if s.pane.due then paneSkip (if s.pane.freeze then 3 else 1) (paneDropLeave s) else s

/-- Line times of a frame (R467). -/
def paneLines (c : PaneCfg) : Nat :=
  match c.mode with
  | .none => 0
  | .matrix => c.rows.toNat
  | .segment => 2 * c.coms.toNat
  | .split => max c.rows.toNat (2 * c.coms.toNat)

/-- PANE_FRAME_START (R466): P2 is asked once the other conditions hold, and the frame starts once it is granted. -/
def execPaneFrameStart (s : State) : Host.Outcome State Fault Refusal :=
  .next <|
    let p := s.pane
    if p.due && s.crs.winPane && !p.freeze && p.frame.isNone && paneDraws p then
      match p.leave with
      | .none => { s.ask 2 .pane with pane.leave := .asked }
      | .granted => { s with pane := { p with due := false, leave := .none, negNext := !p.negNext, oorFrame := p.oor,
                                              frame := some { clear := p.st != .lit, negative := p.negNext, line := 0 } } }
      | _ => s
    else s

/-- The Porter's answer reaches the Pane (R466). -/
def paneAnswer (a : Answer) (s : State) : State :=
  match a, s.pane.leave with
  | .grant, .asked => { s with pane.leave := .granted }
  | .grant, _ => s.fin 2 .pane
  | .deny _, .asked => paneSkip 2 { s with pane.leave := .none }
  | _, _ => s

/-- A word of the frame store. -/
def paneWord (p : Pane) (k : Nat) : Word := sparseGet 0 p.store k

/-- PANE_LINE_START (R461): the words of a matrix row are read at its line time, those of a common at its positive phase. -/
def execPaneLineStart (s : State) : Host.Outcome State Fault Refusal :=
  .next <|
    let p := s.pane
    match p.frame with
    | some f =>
      if f.line < paneLines p.cfg then
        let row := (p.cfg.mode == .matrix || p.cfg.mode == .split) && decide (f.line < p.cfg.rows.toNat)
        let com := (p.cfg.mode == .segment || p.cfg.mode == .split) && decide (f.line < 2 * p.cfg.coms.toNat) && f.line % 2 == 0
        { s with pane := { p with
            rowWords := if row then (List.range 4).map fun k => paneWord p (4 * f.line + k) else p.rowWords
            comWords := if com then (List.range 7).map fun k => paneWord p (192 + 7 * (f.line / 2) + k) else p.comWords
            frame := some { f with line := f.line + 1 } } }
      else s
    | none => s

/-- A derate step of sink n (R482): one code down, where its derate bit is set and it was out of regulation in the frame. -/
def derate (p : Pane) (n : Nat) : Pane :=
  if p.cfg.derate.getLsbD n && p.oorFrame.getLsbD n then
    let e := vat 0 p.lsEff n
    let e' := if e = 0 then e else e - 1
    { p with lsEff := p.lsEff.set! n e', lsMin := p.lsMin.set! n (if e'.toNat < (vat 0 p.lsMin n).toNat then e' else vat 0 p.lsMin n) }
  else p

/-- What the end of a frame does to the state (R472 step 6, R473 step 3). -/
def paneAdvance (clear : Bool) (p : Pane) : Pane :=
  if !clear then p else
  match p.st with
  | .clear => if p.clrDone.toNat + 1 ≥ 2 then { p with clrDone := 2, st := .lit } else { p with clrDone := p.clrDone + 1 }
  | .down => if p.clrDone.toNat + 1 ≥ 2 then paneFall { p with clrDone := 2, st := .fall, stepDone := 0 }
    else { p with clrDone := p.clrDone + 1 }
  | _ => p

/-- PANE_FRAME_END (R466, R467, R482). -/
def execPaneFrameEnd (s : State) : Host.Outcome State Fault Refusal :=
  .next <|
    match s.pane.frame with
    | some f =>
      if f.line ≥ paneLines s.pane.cfg then
        let p := derate (derate (derate (derate s.pane 0) 1) 2) 3
        let s' := { s with pane := paneAdvance f.clear { p with frame := none, frm := p.frm + 1, oorFrame := 0 } }
        s'.fin 2 .pane
      else s
    | none => s

/-- PANE_STALE (R469). -/
def execPaneStale (s : State) : Host.Outcome State Fault Refusal :=
  .next <| if s.pane.st = .lit && s.pane.cfg.holdMs != 0 then { s with pane.stale := true } else s

/-! ### LED sinks (R468, R480, R481) -/

/-- A write of LSn_SET; codes above 240 are rejected. -/
def ledSet (n : Nat) (v : Word) (s : State) : Option State :=
  let c : Byte := v.setWidth 8
  if c.toNat > 240 then none
  else some { s with pane.lsSet := s.pane.lsSet.set! n c, pane.lsEff := s.pane.lsEff.set! n c, pane.lsMin := s.pane.lsMin.set! n c }

/-- LED_SINK_SET (R480). -/
def execLedSinkSet (who : Who) (n : BitVec 2) (code : BitVec 8) (s : State) : Host.Outcome State Fault Refusal :=
  .next <|
    if s.powered && s.actsAs who = paneOwner s then
      orReject (0x388 + n.toNat) (code.setWidth 16) who s (ledSet n.toNat (code.setWidth 16) s)
    else s

/-- LED_SINK_OUT_OF_REGULATION (R481): only a sink that carries its code's current can be out of regulation. -/
def execLedSinkOutOfRegulation (n : BitVec 2) (s : State) : Host.Outcome State Fault Refusal :=
  .next <|
    if s.pane.st = .lit && !s.pane.dark then
      { s with pane.oor := setBit s.pane.oor n.toNat true, pane.headroom := setBit s.pane.headroom n.toNat true,
               pane.oorFrame := if s.pane.frame.isSome then setBit s.pane.oorFrame n.toNat true else s.pane.oorFrame }
    else s

/-- LED_SINK_BACK_IN_REGULATION (R481). -/
def execLedSinkBackInRegulation (n : BitVec 2) (s : State) : Host.Outcome State Fault Refusal :=
  .next { s with pane.oor := setBit s.pane.oor n.toNat false }

/-! ### Last gasp, sleep and load (R462, R476 to R480) -/

/-- Step 1 of the last-gasp sequence: DISCH; a running frame runs to its end (R479). -/
def paneDisch (s : State) : State :=
  let s := paneDropLeave s
  { s with pane.st := .disch, pane.due := false, pane.oor := 0 }

/-- The Pane after a wake: OFF, everything else kept (R478). -/
def Pane.wake (p : Pane) : Pane :=
  { p with st := .off, stepDone := 0, frame := none, due := false, leave := .none, clrDone := 0, oor := 0, oorFrame := 0 }

/-- The Pane as a cold start or a SEALED wake loads it (R462, R480, R483); the comparators are live. -/
def Pane.load (p : Pane) (c : PaneCfg) : Pane :=
  { Pane.reset with good := p.good, offs := p.offs, cfg := c, cfgBad := c.bad, lsSet := c.ls, lsEff := c.ls, lsMin := c.ls,
                    store := c.store.foldl (fun m e => sparsePut 0 m (e.1 % 256) e.2) [] }

/-! ### Registers io:0x380 to 0x3FF -/

def PaneSt.code : PaneSt → BitVec 3
  | .off => 0
  | .rise => 1
  | .clear => 2
  | .lit => 3
  | .down => 4
  | .fall => 5
  | .fault => 6
  | .disch => 7

def PaneMode.code : PaneMode → BitVec 2
  | .none => 0
  | .matrix => 1
  | .segment => 2
  | .split => 3

def paneVal (a : Nat) (s : State) : Option Word :=
  let p := s.pane
  if a = 0x380 then some (fieldAt 16 0 p.st.code ||| bitAt 16 3 p.orderFault ||| fieldAt 16 4 p.frail ||| fieldAt 16 7 p.fcause |||
    bitAt 16 9 p.frame.isSome ||| bitAt 16 10 p.stale ||| bitAt 16 11 p.cfgBad ||| fieldAt 16 12 p.clrDone)
  else if a = 0x381 then some 0
  else if a = 0x382 then some (fieldAt 16 0 p.good ||| fieldAt 16 8 p.offs)
  else if a = 0x383 then some p.frm
  else if a = 0x384 then some p.skip
  else if a = 0x385 then some (p.skipWhy.setWidth 16)
  else if a = 0x386 then some (p.page.setWidth 16)
  else if 0x388 ≤ a ∧ a < 0x38C then some ((vat 0 p.lsSet (a - 0x388)).setWidth 16)
  else if 0x38C ≤ a ∧ a < 0x390 then some (fieldAt 16 0 (vat 0 p.lsEff (a - 0x38C)) ||| fieldAt 16 8 (vat 0 p.lsMin (a - 0x38C)))
  else if a = 0x390 then some (fieldAt 16 0 p.headroom ||| fieldAt 16 4 p.oor)
  else if a = 0x391 then some (fieldAt 16 0 (PaneMode.code p.cfg.mode) ||| bitAt 16 2 p.cfg.bias ||| fieldAt 16 3 p.cfg.coms |||
    fieldAt 16 7 p.cfg.derate)
  else if a = 0x392 then some (fieldAt 16 0 p.cfg.cols ||| fieldAt 16 8 p.cfg.rows)
  else if a = 0x393 then some (fieldAt 16 0 p.cfg.lineUs ||| fieldAt 16 8 p.cfg.railWin)
  else if a = 0x394 then some (p.cfg.holdMs.setWidth 16)
  else if 0x398 ≤ a ∧ a < 0x39F then some (vat 0 p.cfg.nom (a - 0x398))
  else if 0x3C0 ≤ a ∧ a < 0x400 then some (paneWord p (64 * p.page.toNat + (a - 0x3C0)))
  else none

def paneSide (a : Nat) (s : State) : State := if a = 0x384 then { s with pane.skip := 0 } else s

/-- A write at the Derzor end; `none` where it is rejected. -/
def panePut (a : Nat) (v : Word) (s : State) : Option State :=
  if a = 0x380 then some { s with pane.orderFault := s.pane.orderFault && !v.getLsbD 3, pane.stale := s.pane.stale && !v.getLsbD 10,
                                  pane.cfgBad := s.pane.cfgBad && !v.getLsbD 11 }
  else if a = 0x381 then paneCtl v s
  else if a = 0x386 then some { s with pane.page := v.setWidth 2 }
  else if 0x388 ≤ a ∧ a < 0x38C then ledSet (a - 0x388) v s
  else if a = 0x390 then some { s with pane.headroom := s.pane.headroom &&& ~~~(v.setWidth 4) }
  else if 0x3C0 ≤ a ∧ a < 0x400 then
    some { s with pane.store := sparsePut 0 s.pane.store (64 * s.pane.page.toNat + (a - 0x3C0)) v }
  else some s

end Machine
end Sys2Proof
end

