-- ==== Sys2Proof/Machine/Porter.lean ====
section
/-!
DEFINITION. The Porter: ledger, corrections, permits, reservations, the VCORE law and the start of the last-gasp sequence
(03_porter.md).
-/
namespace Sys2Proof

/-- REQ codes of PLAST, and who a requester is. -/
def Requester.code : Requester → BitVec 3
  | .wakeRouter => 0
  | .gaspWake => 0
  | .vault => 1
  | .gaspPage => 1
  | .pane => 2
  | .touch => 3
  | .ash0 => 4
  | .ashA => 4
  | .ashB => 4
  | .portC => 5
  | .coreA => 6
  | .coreB => 7

def Requester.isCore (r : Requester) : Bool := r == .coreA || r == .coreB
def Requester.isGasp (r : Requester) : Bool := r == .gaspPage || r == .gaspWake

namespace Machine

/-- 1 uJ in units of 1/1024 nJ. -/
def microJoule : Nat := 1024000

/-- The ceiling of the ledger (R27). -/
def ledgerTop : Nat := 0xFFFFFFFF * 1024

/-! ### Settings in force (R88, R94) -/

def PorterCfg.res (c : PorterCfg) : Nat := (if c.lgRes = 0 then 2000 else c.lgRes.toNat) * microJoule

def PorterCfg.farads (c : PorterCfg) : Nat := if c.storeC.toNat < 10 || c.storeC.toNat > 10000 then 10 else c.storeC.toNat

/-- Policy of a class (R73, R94): P7 is FORCE; FORCE given to another class acts as OFF. -/
def PorterCfg.policy (c : PorterCfg) (k : BitVec 3) : Policy :=
  if k = 7 then .force
  else match ((vat 3 c.pcls k.toNat).setWidth 2 : BitVec 2) with
    | 0 => .defer
    | 1 => .deny
    | _ => .off

def PorterCfg.deferTicks (c : PorterCfg) (k : BitVec 3) : Nat := (vat 0 c.pcls k.toNat >>> 2).toNat

/-- Setpoint code of a corner's VCORE (R14): N 0.80 V, L 0.55 V, S 0.40 V. -/
def cornerCode (corner : BitVec 2) : BitVec 7 := if corner = 2 then 0x11 else if corner = 3 then 0x02 else 0x2A

/-- Tj of a corner in 1/64 °C (R14). -/
def cornerTj (corner : BitVec 2) : Int := if corner = 2 || corner = 3 then 125 * 64 else 85 * 64

/-- VC_FLOOR (R88), never above 1.20 V. -/
def vcFloorOf (corner : BitVec 2) (c : PorterCfg) : Nat := min 0x52 (max c.vcFloor.toNat (cornerCode corner).toNat)

/-- VC_TOP (R88). -/
def vcTopOf (corner : BitVec 2) (c : PorterCfg) : Nat := max (min c.vcTop.toNat 0x52) (vcFloorOf corner c)

/-- The setpoint law (R87). -/
def vcLaw (corner : BitVec 2) (p : Porter) : BitVec 7 :=
  let f := vcFloorOf corner p.cfg
  let t := vcTopOf corner p.cfg
  let hi := p.cfg.vcKhi.toNat * 64 * microJoule
  let lo := p.cfg.vcKlo.toNat * 64 * microJoule
  BitVec.ofNat 7 <|
    if hi ≤ lo then f
    else if p.ledger ≥ hi then t
    else if p.ledger ≤ lo then f
    else f + (t - f) * (p.ledger - lo) / (hi - lo)

/-- Whether the settings are inconsistent (R88, R94). -/
def PorterCfg.bad (c : PorterCfg) (corner : BitVec 2) : Bool :=
  decide (c.vcTop.toNat > 0x52) || decide (min c.vcTop.toNat 0x52 < vcFloorOf corner c) || decide (c.vcKhi.toNat ≤ c.vcKlo.toNat) ||
    decide (c.storeC.toNat < 10) || decide (c.storeC.toNat > 10000) || c.lgRes == 0 ||
    (List.range 7).any (fun k => ((vat 0 c.pcls k).setWidth 2 : BitVec 2) == 2) || ((vat 2 c.pcls 7).setWidth 2 : BitVec 2) != 2

/-- A setpoint put in force; a change makes the Mortar's calibration stale until it is measured again (R319). -/
def setVcore (v : BitVec 7) (s : State) : State :=
  if v = s.en.vcoreSet then s else { s with en.vcoreSet := v, mrt.calMeas := none, mrt.calDirty := true, mrt.calStale := true }

/-! ### The ledger (R67 to R72) -/

/-- E_v in nJ, from a STORE voltage in 100 uV. -/
def energyOf (farads mv : Nat) : Nat := if mv ≤ 22000 then 0 else min 0xFFFFFFFF (divOpenN (farads * (mv * mv - 22000 * 22000)) 200)

/-- HELD, RESV and avail of R77. -/
def Porter.held (p : Porter) : Nat := (p.holds.map (·.cost)).foldl (· + ·) 0
def Porter.reserved (p : Porter) : Nat := p.resv.toList.foldl (· + ·) 0
def Porter.avail (p : Porter) : Nat := p.ledger - p.cfg.res - p.held - p.reserved

/-- Charge in nC at a voltage in 100 uV, in 1/1024 nJ (R69). -/
def chargeEnergy (nc mv : Nat) : Nat := divOpenN (nc * mv * 64) 625

/-! ### Deciding (R74, R77 to R82) -/

/-- Reason codes of PLAST. -/
def rLow : BitVec 3 := 1
def rTimeout : BitVec 3 := 2
def rBusy : BitVec 3 := 3
def rGasp : BitVec 3 := 4
def rOff : BitVec 3 := 5
def rEnd : BitVec 3 := 6
def rTie : BitVec 3 := 7

def Porter.answer (p : Porter) (k : BitVec 3) (r : Requester) (a : Answer) : Porter := { p with answers := p.answers ++ [(k, r, a)] }

/-- A denial, counted and recorded in PLAST. -/
def Porter.deny (p : Porter) (k : BitVec 3) (r : Requester) (why : BitVec 3) : Porter :=
  { (p.answer k r (.deny why)) with denyCnt := satInc p.denyCnt, lastClass := k, lastReason := why, lastReq := r.code }

/-- A grant with its hold. -/
def Porter.grant (p : Porter) (k : BitVec 3) (r : Requester) (c : Nat) : Porter :=
  { (p.answer k r .grant) with holds := p.holds ++ [{ cls := k, req := r, cost := c, age := 0 }] }

/-- A grant where the cost fits the class's reservation or `avail`. -/
def Porter.tryGrant (p : Porter) (k : BitVec 3) (r : Requester) (c : Nat) : Option Porter :=
  if vat 0 p.resv k.toNat ≥ c then some ({ p with resv := p.resv.set! k.toNat (vat 0 p.resv k.toNat - c) }.grant k r c)
  else if p.avail ≥ c then some (p.grant k r c)
  else none

/-- The decision of R77. -/
def Porter.judge (p : Porter) (k : BitVec 3) (r : Requester) (c : Nat) : Porter :=
  if k = 7 && !r.isGasp then p.deny k r rOff
  else if r.isCore && k != 6 then p.deny k r rOff
  else if p.lgActive then (if k = 7 then p.grant k r c else p.deny k r rGasp)
  else if k = 7 || p.cfg.policy k = .off then p.deny k r rOff
  else if p.deferred.any (fun d => d.cls == k && d.req == r) then p.deny k r rBusy
  else match p.tryGrant k r c with
    | some p => p
    | none =>
      if p.cfg.policy k = .defer && p.cfg.deferTicks k ≥ 1 then
        { (p.answer k r .defer) with deferCnt := satInc p.deferCnt, deferred := p.deferred ++ [{ cls := k, req := r, cost := c, age := 0 }] }
      else p.deny k r rLow

/-- The deferred requests decided again, in order of arrival (R80). -/
def redecideL : List Claim → Porter → Porter
  | [], p => p
  | d :: l, p =>
    match p.tryGrant d.cls d.req d.cost with
    | some p => redecideL l p
    | none => redecideL l { p with deferred := p.deferred ++ [d] }

def Porter.redecide (p : Porter) : Porter := redecideL p.deferred { p with deferred := [] }

/-- Every deferred request of some requesters denied. -/
def Porter.denyDeferred (f : Requester → Bool) (why : BitVec 3) (p : Porter) : Porter :=
  (p.deferred.filter fun d => f d.req).foldl (fun p d => p.deny d.cls d.req why)
    { p with deferred := p.deferred.filter fun d => !f d.req }

/-- The first hold of a class and requester released. -/
def dropHold (k : BitVec 3) (r : Requester) : List Claim → List Claim
  | [] => []
  | h :: l => if h.cls = k ∧ h.req = r then l else h :: dropHold k r l

/-- An end notice (R82, R253): a deferred request of its class and requester is withdrawn, else the oldest hold released. -/
def Porter.finish (p : Porter) (k : BitVec 3) (r : Requester) : Porter :=
  if p.deferred.any (fun d => d.cls == k && d.req == r) then
    { p with deferred := p.deferred.filter fun d => !(d.cls == k && d.req == r) }
  else ({ p with holds := dropHold k r p.holds }).redecide

/-! ### The last-gasp sequence (R90 to R92) -/

/-- Step 1 of R91. -/
def lgStart (s : State) : State :=
  let p := ({ s.por with lgActive := true }).denyDeferred (fun _ => true) rGasp
  let s := { s with por := p, vlt.gaspLedger := BitVec.ofNat 32 (p.ledger / 1024), vlt.gaspMv := p.lastSample }
  let s := paneDisch (setVcore (BitVec.ofNat 7 (vcFloorOf s.crs.corner p.cfg)) s)
  match s.pwr.phase with
  | .entering .sealed => abandonEntry 0 s
  | _ => fire 0 s

/-- What a change of the ledger brings: arming (R90), the last-gasp sequence (R91), deferred requests (R80). -/
def ledgerMoved (s : State) : State :=
  let p := s.por
  let p := if !p.armed && 2 * p.ledger > 3 * p.cfg.res then { p with armed := true } else p
  if p.armed && !p.lgActive && p.ledger ≤ p.cfg.res then lgStart { s with por := p } else { s with por := p.redecide }

/-- The Derzor domain works: its counter counts and samples STORE (R504). -/
def State.derzorOn (s : State) : Bool := s.powered || s.pwr.phase == .boot || s.pwr.phase == .noImage

/-- COUNT_MESSAGE (R505): charge in nC since the latest message, STORE in 100 uV; a lost message is carried by the next. -/
def execCountMessage (din dout : BitVec 32) (mv : BitVec 16) (lost : Bool) (s : State) : Host.Outcome State Fault Refusal :=
  .next <|
    if s.derzorOn then
      let x := { s.sill with qin := s.sill.qin + din, qout := s.sill.qout + dout, mv := mv }
      let s := { s with sill := x }
      if lost then { s with tie.kfail := satInc s.tie.kfail } else { s with tie.count := some { qin := x.qin, qout := x.qout, mv := mv, sat := x.sat } }
    else s

/-- The counter reports a fault: counting stops (R72). -/
def counterFault (s : State) : State := { s with por.cntFault := true, por.counterDead := true }

/-- LEDGER_COUNT (R69): the message's voltage is a quiet sample where nothing is held and nothing charges (R70). -/
def execLedgerCount (s : State) : Host.Outcome State Fault Refusal :=
  .next <|
    match s.tie.count with
    | some m =>
      let p := s.por
      let up := chargeEnergy (m.qin - p.qinSeen).toNat m.mv.toNat
      let dn := chargeEnergy (m.qout - p.qoutSeen).toNat m.mv.toNat
      let p := { p with qinSeen := m.qin, qoutSeen := m.qout, lastSample := m.mv,
                        quiet := if p.holds.isEmpty && !s.en.charging then some m.mv else p.quiet }
      let s := { s with tie.count := none }
      if s.powered then
        let s := if p.counterDead then { s with por := p }
          else ledgerMoved { s with por := { p with ledger := min ledgerTop (p.ledger + up) - dn } }
        emit [] (if m.sat then counterFault s else s)
      else { s with por := p }
    | none => s

/-- STORE_COUNTER_SAT (R506). -/
def execStoreCounterSat (s : State) : Host.Outcome State Fault Refusal :=
  .next <| if s.derzorOn then counterFault { s with sill.sat := true } else s

/-- A correction that moves the ledger is recorded (R70, R71). -/
def corrected (old new : Nat) (p : Porter) : Porter :=
  let up := decide (old < new)
  let d := divOpen ((new : Int) - (old : Int)) microJoule
  let d := if d > 32767 then 32767 else if d < -32767 then -32767 else d
  let run := if p.runLen > 0 ∧ p.runUp = up then p.runLen + 1 else 1
  let p := { p with ledger := new, corrLast := BitVec.ofInt 16 d, runLen := run, runUp := up,
                    corrUp := if up then satInc p.corrUp else p.corrUp, corrDown := if up then p.corrDown else satInc p.corrDown }
  if run ≥ 8 then { p with drift := true, driftDir := up } else p

/-- One correction from a sample in 100 uV; `always`: whatever the band (R72). -/
def correct (always : Bool) (mv : Nat) (p : Porter) : Porter :=
  let ev := energyOf p.cfg.farads mv
  let new := ev * 1024
  let gap := if p.ledger ≤ new then new - p.ledger else p.ledger - new
  let outside := decide (10 * gap > p.cfg.farads * mv * (p.cfg.corrMv.toNat + 1) * 1024)
  if p.ledger != new && (always || ev = 0xFFFFFFFF || outside) then corrected p.ledger new p else p

/-- LEDGER_CORRECTION (R70 to R72). -/
def execLedgerCorrection (s : State) : Host.Outcome State Fault Refusal :=
  .next <|
    if s.powered then
      let p := s.por
      if p.counterDead then
        emit [] (ledgerMoved { s with por := { (correct true (p.quiet.getD p.lastSample).toNat p) with quiet := none } })
      else match p.quiet with
        | some mv => emit [] (ledgerMoved { s with por := { (correct false mv.toNat p) with quiet := none, skipRun := 0 } })
        | none => { s with por := { p with skipRun := p.skipRun + 1, corrSkip := p.corrSkip || decide (p.skipRun + 1 ≥ 4) } }
    else s

/-! ### Requests and notices on the lane (R77 to R82) -/

/-- PERMIT_REQUEST (R77, R78): the request at the front of the lane is decided. One whose answer is lost on the Tie reads as
DENY TIE, and nothing is kept for it (R79). -/
def execPermitRequest (lost : Bool) (s : State) : Host.Outcome State Fault Refusal :=
  .next <|
    match s.tie.lane with
    | .ask k r c :: l =>
      let s := { s with tie.lane := l }
      if lost then { s with por := s.por.answer k r (.deny rTie), tie.kfail := satInc s.tie.kfail } else emit [] { s with por := s.por.judge k r c }
    | _ => s

/-- PERMIT_WITHDRAW (R81). -/
def execPermitWithdraw (s : State) : Host.Outcome State Fault Refusal :=
  .next <|
    match s.tie.lane with
    | .withdraw k r :: l =>
      emit [] { s with tie.lane := l, por.deferred := s.por.deferred.filter fun d => !(d.cls == k && d.req == r) }
    | _ => s

/-- HOLD_RELEASE (R82, R253). -/
def execHoldRelease (s : State) : Host.Outcome State Fault Refusal :=
  .next <|
    match s.tie.lane with
    | .fin k r :: l => emit [] { s with tie.lane := l, por := s.por.finish k r }
    | _ => s

/-- Requests at their bound, decided once more or denied (R80). -/
def timeOut : List Claim → Porter → Porter
  | [], p => p
  | d :: l, p =>
    if d.age ≥ p.cfg.deferTicks d.cls then
      match p.tryGrant d.cls d.req d.cost with
      | some p => timeOut l p
      | none => timeOut l (p.deny d.cls d.req rTimeout)
    else timeOut l { p with deferred := p.deferred ++ [d] }

/-- DEFER_TIMEOUT (R80). -/
def execDeferTimeout (s : State) : Host.Outcome State Fault Refusal :=
  .next <| emit [] { s with por := timeOut s.por.deferred { s.por with deferred := [] } }

/-- HOLD_TIMEOUT (R82): holds that are 16 ticks old. -/
def execHoldTimeout (s : State) : Host.Outcome State Fault Refusal :=
  .next <|
    let old := s.por.holds.filter fun h => decide (16 ≤ h.age)
    let p := { s.por with holds := s.por.holds.filter fun h => decide (h.age < 16), holdTo := satAdd s.por.holdTo old.length }
    if old.isEmpty then s else emit [] { s with por := p.redecide }

/-- A tick for the Porter: claims age, and deferred requests are decided again (R80, R82). -/
def Porter.tick (p : Porter) : Porter :=
  Porter.redecide { p with holds := p.holds.map fun h => { h with age := h.age + 1 }
                           deferred := p.deferred.map fun h => { h with age := h.age + 1 } }

/-! ### Courses (R84 to R89) -/

/-- The reservations of a course tried (R84). -/
def Porter.reserve (p : Porter) (n : Vector (BitVec 8) 8) : Porter :=
  let want := vgen 8 fun k =>
    if p.cfg.policy (BitVec.ofNat 3 k) = .off then 0 else (vat 0 n k).toNat * costOf (vat 0 p.cfg.pcost k)
  if want.toList.foldl (· + ·) 0 ≤ p.avail then { p with resv := want } else { p with resShort := satInc p.resShort }

/-- Whether a course's reservations cannot be covered. -/
def Porter.short (p : Porter) (n : Vector (BitVec 8) 8) : Bool :=
  decide (p.avail < ((List.range 8).map fun k =>
    if p.cfg.policy (BitVec.ofNat 3 k) = .off then 0 else (vat 0 n k).toNat * costOf (vat 0 p.cfg.pcost k)).foldl (· + ·) 0)

/-- Course start at the Porter: setpoint, temperature, reservations (R84, R87, R89). -/
def porterCourseStart (d : CourseDef) (s : State) : State :=
  let s := setVcore (vcLaw s.crs.corner s.por) s
  let hot := s.sill.tempValid && decide (s.sill.temp.toInt > cornerTj s.crs.corner)
  let p := if hot then { s.por with tjHi := true } else s.por
  { s with por := p.reserve d.resv,
           crs.flags := setBit (setBit s.crs.flags 1 hot) 5 (p.short d.resv) }

/-- Course end at the Porter (R85, R86). -/
def porterCourseEnd (s : State) : State :=
  { s with por := ({ (s.por.denyDeferred Requester.isCore rEnd) with resv := Vector.replicate 8 0 }).redecide }

/-! ### Captures and registers io:0x040 to 0x05F, 0x070 to 0x073 -/

/-- R95. -/
def ledgerCapture (s : State) : State :=
  { s with por := { s.por with ledgHiCap := BitVec.ofNat 16 (s.por.ledger / 1024 / 65536), ledgFracCap := BitVec.ofNat 10 (s.por.ledger % 1024) } }

def availCapture (s : State) : State := { s with por.availHiCap := BitVec.ofNat 16 (s.por.avail / 1024 / 65536) }

def ledgLo (p : Porter) : Word := BitVec.ofNat 16 (p.ledger / 1024)
def availLo (p : Porter) : Word := BitVec.ofNat 16 (p.avail / 1024)

/-- LEDGER_CAPTURE_READ (R95). -/
def execLedgerCaptureRead (s : State) : Host.Outcome State Fault Refusal := .next ((ledgerCapture s).reply (.word (ledgLo s.por)))

/-- AVAIL_CAPTURE_READ (R95). -/
def execAvailCaptureRead (s : State) : Host.Outcome State Fault Refusal := .next ((availCapture s).reply (.word (availLo s.por)))

/-- Microjoules, rounded up. -/
def upMicro (n : Nat) : Word := satOf 16 ((n + microJoule - 1) / microJoule)

/-- PCLSn as it reads: PCLS7 always shows FORCE. -/
def pclsWord (c : PorterCfg) (k : Nat) : Word :=
  let v := (vat 0 c.pcls k).setWidth 16
  if k = 7 then (v &&& 0x3FC#16) ||| 2#16 else v

def porterVal (a : Nat) (s : State) : Option Word :=
  let p := s.por
  if a = 0x040 then some (ledgLo p)
  else if a = 0x041 then some p.ledgHiCap
  else if a = 0x042 then some (p.ledgFracCap.setWidth 16)
  else if a = 0x043 then some (availLo p)
  else if a = 0x044 then some p.availHiCap
  else if a = 0x045 then some (upMicro p.held)
  else if a = 0x046 then some (upMicro p.reserved)
  else if a = 0x047 then some p.cfg.lgRes
  else if a = 0x048 then some (bitAt 16 0 p.armed ||| bitAt 16 1 p.lgActive ||| bitAt 16 2 p.drift ||| bitAt 16 3 p.driftDir |||
    bitAt 16 4 p.corrSkip ||| bitAt 16 5 p.cntFault ||| bitAt 16 6 p.tjHi ||| bitAt 16 7 p.cfgBad)
  else if a = 0x049 then some (fieldAt 16 0 p.cfg.corrPeriod ||| fieldAt 16 2 p.cfg.corrMv)
  else if a = 0x04A then some p.corrLast
  else if a = 0x04B then some (fieldAt 16 0 p.corrUp ||| fieldAt 16 8 p.corrDown)
  else if a = 0x04C then some p.cfg.storeC
  else if a = 0x04D then some (fieldAt 16 0 p.cfg.vcFloor ||| fieldAt 16 8 p.cfg.vcTop)
  else if a = 0x04E then some p.cfg.vcKhi
  else if a = 0x04F then some p.cfg.vcKlo
  else if a < 0x050 then none
  else if a < 0x058 then some (pclsWord p.cfg (a - 0x050))
  else if a < 0x060 then some (vat 0 p.cfg.pcost (a - 0x058))
  else if a = 0x070 then some p.denyCnt
  else if a = 0x071 then some p.deferCnt
  else if a = 0x072 then some (fieldAt 16 0 p.lastClass ||| fieldAt 16 3 p.lastReason ||| fieldAt 16 6 p.lastReq)
  else if a = 0x073 then some (fieldAt 16 0 p.resShort ||| fieldAt 16 8 p.holdTo)
  else none

def porterSide (a : Nat) (s : State) : State :=
  if a = 0x040 then ledgerCapture s
  else if a = 0x043 then availCapture s
  else if a = 0x04B then { s with por.corrUp := 0, por.corrDown := 0 }
  else if a = 0x070 then { s with por.denyCnt := 0 }
  else if a = 0x071 then { s with por.deferCnt := 0 }
  else if a = 0x073 then { s with por.resShort := 0, por.holdTo := 0 }
  else s

def porterPut (a : Nat) (v : Word) (s : State) : State :=
  if a = 0x048 then
    { s with por := { s.por with drift := s.por.drift && !v.getLsbD 2, corrSkip := s.por.corrSkip && !v.getLsbD 4,
                                 cntFault := s.por.cntFault && !v.getLsbD 5, tjHi := s.por.tjHi && !v.getLsbD 6,
                                 cfgBad := s.por.cfgBad && !v.getLsbD 7 } }
  else s

end Machine
end Sys2Proof
end

