-- ==== Sys2Proof/Machine/Touch.lean ====
section
/-!
DEFINITION. The main touch scanner and the touch sentinel (16_touch.md).
-/
namespace Sys2Proof
namespace Machine

/-! ### Readings -/

/-- The largest |delta| rules compare against: TH, doubled in charger-noise mode (R444). -/
def touchTh (chg : Bool) (g : GroupCfg) : Int := if chg then 2 * g.th.toNat else g.th.toNat

/-- How many self readings and how many mutual readings a group's frame holds (R430). -/
def selfCount (g : GroupCfg) : Nat :=
  match g.kind with
  | .off => 0
  | .self => g.tx.length
  | .strip => g.tx.length
  | .grid => g.tx.length + g.rx.length

def mutualCount (g : GroupCfg) : Nat :=
  match g.kind with
  | .off => 0
  | .self => 0
  | .strip => g.tx.length - 1
  | .grid => g.tx.length * g.rx.length

/-- A group whose acquisition starts anew (R438). -/
def TouchGroup.fresh (g : GroupCfg) : TouchGroup :=
  { TouchGroup.empty with
    acq := if g.kind = .off then 16 else 0
    self := List.replicate (selfCount g) Reading.zero
    crossed := List.replicate (mutualCount g) Reading.zero }

/-- The main scanner at its reset values, with the loaded settings (R455). -/
def Touch.restart (t : Touch) : Touch :=
  { Touch.reset with cfg := t.cfg, freq := t.cfg.freqStart, cand := t.cfg.freqStart, groups := vmap TouchGroup.fresh t.cfg.groups }

/-- A self reading's delta is raw − baseline, a mutual reading's baseline − raw (R431). -/
def deltaOf (isMut : Bool) (base raw : Int) : Int := if isMut then base - raw else raw - base

/-- Other frequencies of FREQ_EN than the current one, in code order (R438, R442). -/
def otherFreqs (cfg : TouchCfg) (cur : BitVec 3) : List Nat :=
  (List.range 8).filter fun k => cfg.freqEn.getLsbD k && k != cur.toNat

/-- A reading's part in frame `n` of an acquisition (R438). -/
def acquire (t : Touch) (isMut : Bool) (n : Nat) (r : Reading) (raw : Int) : Reading :=
  let r := { r with raw := raw, delta := deltaOf isMut r.base raw, touched := false, on := 0, off := 0, neg := 0 }
  if n < 8 then
    let sum := (if n = 0 then 0 else r.sum) + raw
    if n = 7 then { r with sum := sum, base := divOpen sum 8 } else { r with sum := sum }
  else
    match (otherFreqs t.cfg t.freq)[n - 8]? with
    | some f => { r with stored := r.stored.set! f raw }
    | none => r

/-- The first frame at a new frequency (R443). -/
def atHop (t : Touch) (isMut : Bool) (r : Reading) (raw : Int) : Reading :=
  let base := if r.touched then r.stored.get t.freq.toFin else raw
  { r with base := base, raw := raw, delta := deltaOf isMut base raw }

/-- The delta of an ordinary frame. -/
def measure (isMut : Bool) (r : Reading) (raw : Int) : Reading := { r with raw := raw, delta := deltaOf isMut r.base raw }

/-- Baseline tracking of a reading that is not touched, suppressed or under a film (R439). -/
def track (drift : Nat) (th : Int) (r : Reading) (move : Bool) : Reading :=
  if !move then { r with neg := 0 }
  else if r.delta ≤ -th then
    if r.neg + 1 ≥ 4 then { r with neg := 0, base := r.raw } else { r with neg := r.neg + 1 }
  else if !r.touched && decide (4 * (r.delta.natAbs : Int) < th) then
    { r with neg := 0, base := r.base + divOpen (r.raw - r.base) drift }
  else { r with neg := 0 }

/-- The denominator of DRIFT (R432). -/
def driftDen (d : BitVec 2) : Nat := 16 * 4 ^ d.toNat

/-! ### Neighbours, drops, films and palms -/

/-- The self readings next to reading i: those next to it in the order of a SELF or STRIP group (R431). -/
def selfNeighbours (g : GroupCfg) (i : Nat) : List Nat :=
  match g.kind with
  | .off => []
  | .grid => []
  | _ => (if i = 0 then [] else [i - 1]) ++ (if i + 1 < g.tx.length then [i + 1] else [])

/-- The nodes next to node i of a GRID group: on its TX line or on its RX line (R431). -/
def nodeNeighbours (g : GroupCfg) (i : Nat) : List Nat :=
  let n := g.rx.length
  let r := i / n
  let c := i % n
  (if c = 0 then [] else [i - 1]) ++ (if c + 1 < n then [i + 1] else []) ++
  (if r = 0 then [] else [i - n]) ++ (if r + 1 < g.tx.length then [i + n] else [])

def deltaAt (l : List Reading) (i : Nat) : Int :=
  match l[i]? with
  | some r => r.delta
  | none => 0

/-- A reading at or above TH that is a drop (R445). -/
def isDrop (g : GroupCfg) (th : Int) (ds : List Reading) (nb : List Nat) (d : Int) : Bool :=
  g.nbEn && decide (d ≥ th) && !nb.isEmpty && nb.all fun j => decide (8 * deltaAt ds j < (g.nbPct.toNat + 1) * d)

/-- Members of `front` and everything at or above TH that neighbours reach from it, in at most `fuel` rounds. -/
def spread (nb : Nat → List Nat) (up : Nat → Bool) : Nat → List Nat → List Nat
  | 0, l => l
  | n + 1, l => spread nb up n ((l ++ (l.flatMap nb).filter up).eraseDups)

/-- Some `n` neighbouring readings are at or above TH (R447). -/
def palmCluster (nb : Nat → List Nat) (up : Nat → Bool) (count n : Nat) : Bool :=
  (List.range count).any fun i => up i && decide ((spread nb up count [i]).length ≥ n)

/-- The sum of a group's positive deltas (R447). -/
def positiveSum (l : List Reading) : Int := (l.map fun r => if r.delta > 0 then r.delta else 0).sum

/-- The palm condition of R447. -/
def palmNow (g : GroupCfg) (th : Int) (self mu : List Reading) : Bool :=
  let n := g.palmN.toNat + 2
  palmCluster (selfNeighbours g) (fun i => decide (deltaAt self i ≥ th)) self.length n ||
  (g.kind == .grid && palmCluster (nodeNeighbours g) (fun i => decide (deltaAt mu i ≥ th)) mu.length n) ||
  (g.palmSum != 0 && decide (positiveSum self + positiveSum mu ≥ g.palmSum.toNat))

/-- The film condition of R446. -/
def filmNow (g : GroupCfg) (th : Int) (self mu : List Reading) : Bool :=
  (g.kind == .strip || g.kind == .grid) &&
  decide ((mu.filter fun r => decide (r.delta ≤ -(g.filmTh.toNat : Int))).length ≥ g.filmN.toNat) &&
  self.all fun r => decide (r.delta < th)

/-- Every reading is below 7/8 of TH (R447). -/
def allLow (th : Int) (l : List Reading) : Bool := l.all fun r => decide (8 * r.delta < 7 * th)

/-! ### Touch decisions -/

/-- A reading's decision (R440): the new reading, and whether a touch or a release was decided. -/
def decideTouch (deb : Nat) (th : Int) (drop : Bool) (now : Nat) (r : Reading) : Reading × Bool × Bool :=
  if r.touched then
    if 8 * r.delta < 7 * th then
      if r.off + 1 ≥ deb then ({ r with touched := false, on := 0, off := 0 }, false, true)
      else ({ r with off := r.off + 1 }, false, false)
    else ({ r with off := 0 }, false, false)
  else if r.delta ≥ th && !drop then
    if r.on + 1 ≥ deb then ({ r with touched := true, on := 0, off := 0, since := now }, true, false)
    else ({ r with on := r.on + 1 }, false, false)
  else ({ r with on := 0 }, false, false)

/-- A reading released without a decision (R447). -/
def Reading.letGo (r : Reading) : Reading := { r with touched := false, on := 0, off := 0 }

/-- What a group's part of a frame gives: the group, and whether a touch, a release or a drop came of it. -/
structure GroupOut where
  grp : TouchGroup
  touch : Bool
  release : Bool
  drop : Bool

/-- Decisions over a list of readings. -/
def decideAll (t : Touch) (g : GroupCfg) (th : Int) (nb : Nat → List Nat) (now : Nat) (l : List Reading) :
    List Reading × Bool × Bool × Bool :=
  let rows := l.zipIdx.map fun (r, i) =>
    let d := isDrop g th l (nb i) r.delta
    if t.hold > 0 then (r, false, false, d) else
      let (r', a, b) := decideTouch (g.deb.toNat + 1) th d now r
      (r', a, b, d)
  (rows.map (·.1), rows.any (·.2.1), rows.any (·.2.2.1), rows.any (·.2.2.2))

/-- A group in a frame after its acquisition (R439, R440, R443 to R447). -/
def groupFrame (t : Touch) (g : GroupCfg) (now : Nat) (tg : TouchGroup) (raws : List Int × List Int) : GroupOut :=
  let th := touchTh t.chg g
  let m := fun isMut (r : Reading) raw => if t.hopped then atHop t isMut r raw else measure isMut r raw
  let self := tg.self.zipWith (m false) raws.1
  let mu' := tg.crossed.zipWith (m true) raws.2
  let fnow := filmNow g th self mu'
  let film := fnow || (tg.film && decide (tg.filmOff + 1 < 8))
  let filmOff := if fnow then 0 else tg.filmOff + 1
  let supp := if palmNow g th self mu' then true else tg.supp && !(allLow th self && allLow th mu')
  let suppSince := if supp && !tg.supp then now else tg.suppSince
  let base := { tg with film := film, filmOff := filmOff, supp := supp, suppSince := suppSince }
  if supp then
    { grp := { base with self := self.map Reading.letGo, crossed := mu'.map Reading.letGo }, touch := false, release := false, drop := false }
  else
    let (self, a, b, c) := decideAll t g th (selfNeighbours g) now self
    let nodes := g.kind == .grid && !film
    let (mu', a', b', c') := if nodes then decideAll t g th (nodeNeighbours g) now mu'
      else (mu'.map Reading.letGo, false, false, false)
    let dd := driftDen t.cfg.drift
    { grp := { base with self := self.map fun r => track dd th r true, crossed := mu'.map fun r => track dd th r (!film) }
      touch := a || a', release := b || b', drop := c || c' }

/-- A group in any frame. -/
def groupStep (t : Touch) (g : GroupCfg) (now : Nat) (tg : TouchGroup) (raws : List Int × List Int) : GroupOut :=
  if g.kind = .off then { grp := tg, touch := false, release := false, drop := false }
  else if tg.acq < 16 then
    { grp := { tg with acq := tg.acq + 1, self := tg.self.zipWith (acquire t false tg.acq) raws.1
                       crossed := tg.crossed.zipWith (acquire t true tg.acq) raws.2 }
      touch := false, release := false, drop := false }
  else groupFrame t g now tg raws

/-! ### Points and results -/

/-- The 1/16-pitch coordinate of line i, moved by the weighted mean offset of the lines at its sides (R448). -/
def coord (i : Nat) (lo hi : Int) : BitVec 8 :=
  let off := if lo + hi > 0 then divOpen (16 * (hi - lo)) (lo + hi).toNat else Config.pointOffset lo hi
  BitVec.ofInt 8 (16 * i + off)

/-- A point: node, X, Y, Z. -/
def pointAt (g : GroupCfg) (mu : List Reading) (i : Nat) : Nat × BitVec 8 × BitVec 8 :=
  let n := g.rx.length
  let c := i % n
  let r := i / n
  let at' := fun (r c : Nat) => deltaAt mu (r * n + c)
  let z := deltaAt mu i + ((nodeNeighbours g i).map (deltaAt mu)).sum
  (min 4095 z.toNat, coord c (if c = 0 then 0 else at' r (c - 1)) (if c + 1 < n then at' r (c + 1) else 0),
   coord r (if r = 0 then 0 else at' (r - 1) c) (if r + 1 < g.tx.length then at' (r + 1) c else 0))

/-- A point put into a list by falling Z; the earlier found stands first among equals. -/
def insertPoint (p : Nat × BitVec 8 × BitVec 8) : List (Nat × BitVec 8 × BitVec 8) → List (Nat × BitVec 8 × BitVec 8)
  | [] => [p]
  | q :: l => if p.1 > q.1 then p :: q :: l else q :: insertPoint p l

/-- Nodes at or above TH and above each neighbour, by falling Z (R448). -/
def pointsOf (g : GroupCfg) (th : Int) (mu : List Reading) : List (Nat × BitVec 8 × BitVec 8) :=
  let l := ((List.range mu.length).filter fun i => decide (deltaAt mu i ≥ th) &&
    (nodeNeighbours g i).all fun j => decide (deltaAt mu j < deltaAt mu i)).map (pointAt g mu)
  l.foldl (fun acc p => insertPoint p acc) []

/-- The weighted mean of the lines at or above TH, in 1/16 pitch (R448). -/
def lineMean (th : Int) (l : List Reading) : Option (BitVec 8) :=
  let up := l.zipIdx.filter fun (r, _) => decide (r.delta ≥ th)
  let w : Int := (up.map fun (r, _) => r.delta).sum
  if up.isEmpty || decide (w ≤ 0) then none
  else some (BitVec.ofInt 8 (divOpen ((up.map fun (r, i) => 16 * (i : Int) * r.delta).sum) w.toNat))

def packPoint : Option (Nat × BitVec 8 × BitVec 8) → BitVec 16 × BitVec 16
  | none => (0, 0)
  | some (z, x, y) => (y ++ x, BitVec.ofNat 16 (0x8000 + z))

/-- Points 2g and 2g + 1 of a group. Under a film the first comes from the lines, with a Z that the spec does not state. -/
def groupPoints (chg : Bool) (free : Nat) (g : GroupCfg) (tg : TouchGroup) : List (BitVec 16 × BitVec 16) :=
  let th := touchTh chg g
  if g.kind ≠ .grid || tg.supp || decide (tg.acq < 16) then [(0, 0), (0, 0)]
  else if tg.film then
    match lineMean th (tg.self.drop g.tx.length), lineMean th (tg.self.take g.tx.length) with
    | some x, some y => [packPoint (some ((Config.freeWord free).toNat % 4096, x, y)), (0, 0)]
    | _, _ => [(0, 0), (0, 0)]
  else
    let l := pointsOf g th tg.crossed
    [packPoint l[0]?, packPoint l[1]?]

/-- A group has at least one touch. -/
def TouchGroup.any (tg : TouchGroup) : Bool := tg.self.any (·.touched) || tg.crossed.any (·.touched)

/-- Sensors of a group with their self readings. -/
def groupSensors (g : GroupCfg) (tg : TouchGroup) : List (BitVec 5 × Reading) := (g.tx ++ g.rx).zip tg.self

/-- The results that the groups give (R437). -/
def resultOf (t : Touch) (free : Nat) : TouchResult :=
  let gs := t.cfg.groups.toList.zip t.groups.toList
  let sens := gs.flatMap fun (g, tg) => groupSensors g tg
  let flag := fun (f : TouchGroup → Bool) (sh : Nat) =>
    (gs.zipIdx.map fun ((_, tg), i) => bitAt 12 (sh + i) (f tg)).foldl (· ||| ·) 0#12
  { touch := sens.foldl (fun w (n, r) => if r.touched then w ||| (1#32 <<< n.toNat) else w) 0
    grp := flag TouchGroup.any 0 ||| flag (·.supp) 4 ||| flag (·.film) 8
    freq := t.freq, noise := t.noise
    pts := vgen 8 fun i =>
      let k := i / 2
      ((groupPoints t.chg (free + k) (t.cfg.groups.toList.getD k GroupCfg.absent) (t.groups.toList.getD k TouchGroup.empty)).getD
        (i % 2) (0, 0))
    deltas := sens.foldl (fun v (n, r) => v.set! n.toNat (BitVec.ofInt 16 r.delta)) (Vector.replicate 32 0)
    nodes := gs.zipIdx.flatMap fun ((g, tg), k) =>
      if g.kind = .grid then tg.crossed.zipIdx.map fun (r, i) =>
        (BitVec.ofNat 10 (i / g.rx.length % 16 + 16 * (i % g.rx.length) + 256 * k), BitVec.ofInt 16 r.delta)
      else [] }

/-! ### Noise (R442 to R444) -/

/-- The candidate for the next listen: the next other frequency of FREQ_EN after the present one. -/
def nextCand (t : Touch) : BitVec 3 :=
  let l := otherFreqs t.cfg t.freq
  match l.find? (fun k => decide (k > t.cand.toNat)), l.head? with
  | some k, _ => BitVec.ofNat 3 k
  | none, some k => BitVec.ofNat 3 k
  | none, none => t.cand

/-- The quietest candidate whose latest noise is below half of the present noise. -/
def hopTarget (t : Touch) : Option Nat :=
  (otherFreqs t.cfg t.freq).foldl (fun best k =>
    let n := (t.latest.toList.getD k 0).toNat
    if 2 * n < t.noise.toNat then
      match best with
      | some b => if n < (t.latest.toList.getD b 0).toNat then some k else best
      | none => some k
    else best) none

def storeBase (f : Nat) (r : Reading) : Reading := { r with stored := r.stored.set! f r.base }

/-- Noise at a frame's end: charger-noise mode first, then a hop (R443, R444). -/
def noiseStep (t : Touch) (noise cand : BitVec 12) : Touch :=
  let c := nextCand t
  let t := { t with noise := noise, cand := c, latest := (t.latest.set! t.freq.toNat noise).set! c.toNat cand,
                    hopRun := if noise.toNat > t.cfg.hopTh.toNat then t.hopRun + 1 else 0,
                    chgRun := if noise.toNat > t.cfg.chgTh.toNat then t.chgRun + 1 else 0,
                    quietRun := if 2 * noise.toNat < t.cfg.chgTh.toNat then t.quietRun + 1 else 0,
                    hold := t.hold - 1, hopped := false }
  let t := if t.chgRun ≥ 8 || t.chgForce then { t with chg := true }
    else if t.chg && decide (t.quietRun ≥ 64) then { t with chg := false } else t
  if t.hopRun ≥ 3 then
    match hopTarget t with
    | some f =>
      { t with freq := BitVec.ofNat 3 f, hopCnt := satInc t.hopCnt, hopRun := 0, hold := 2, hopped := true,
               groups := vmap (fun g => { g with self := g.self.map (storeBase t.freq.toNat),
                                                  crossed := g.crossed.map (storeBase t.freq.toNat) }) t.groups }
    | none => t
  else t

/-! ### Frames -/

/-- The scanner has a group to scan (R173). -/
def Touch.on (t : Touch) : Bool := t.cfg.groups.toList.any fun g => g.kind != .off

def Touch.highDrive (t : Touch) : Bool := t.cfg.groups.toList.any fun g => g.kind != .off && g.high

/-- Any group acquires (TCH_STAT.ACQ). -/
def Touch.acquiring (t : Touch) : Bool := t.groups.toList.any fun g => decide (g.acq < 16)

/-- Something keeps the scan rate at R0 (R449). -/
def Touch.busy (t : Touch) : Bool := t.acquiring || t.groups.toList.any fun g => g.any || g.supp || g.film

/-- The leave of a pending frame is given back: its request withdrawn, or its hold ended (R81, R82). -/
def touchDropLeave (s : State) : State :=
  match s.tch.leave with
  | .asked => { s.withdraw 3 .touch with tch.leave := .none }
  | .granted => { s.fin 3 .touch with tch.leave := .none }
  | _ => { s with tch.leave := .none }

/-- TOUCH_FRAME_DUE (R435). -/
def execTouchFrameDue (s : State) : Host.Outcome State Fault Refusal :=
  .next <|
    if s.awake && s.tch.on then
      if s.tch.pending then
        let s := touchDropLeave s
        { s with tch.skip := satInc s.tch.skip, tch.skipWhy := 1 }
      else { s with tch.pending := true }
    else s

/-- A frame starts. -/
def touchBegin (s : State) : State :=
  let t := s.tch
  { s with tch := { t with
      pending := false, running := true, held := t.highDrive, leave := Leave.none, reacq := false
      chg := t.chg || t.chgForce
      hdNoRail := t.hdNoRail || (t.highDrive && s.en.vout3 != .on)
      groups := if t.reacq then vmap (fun g => { g with acq := if g.self.isEmpty then 16 else 0 }) t.groups else t.groups } }

/-- A pending frame could start but for leave (R435). -/
def touchReady (s : State) : Bool :=
  s.awake && s.crs.winTouch && s.tch.pending && !s.tch.running && !s.sent.running

/-- TOUCH_FRAME_START (R435, R436). A high-drive frame first asks in P3, and starts once leave has come. -/
def execTouchFrameStart (s : State) : Host.Outcome State Fault Refusal :=
  .next <|
    if touchReady s then
      if s.tch.highDrive then
        match s.tch.leave with
        | .none => { s.ask 3 .touch with tch.leave := .asked }
        | .granted => touchBegin s
        | _ => s
      else touchBegin s
    else s

/-- The Porter's answer reaches the scanner (R436). -/
def touchAnswer (a : Answer) (s : State) : State :=
  match a, s.tch.leave with
  | .grant, .asked => { s with tch.leave := .granted }
  | .grant, _ => s.fin 3 .touch
  | .deny _, .asked => { s with tch.leave := .none, tch.pending := false, tch.skip := satInc s.tch.skip, tch.skipWhy := 2 }
  | _, _ => s

/-- The touch window closes, or the course ends: a request not used is given back, and the frame stays pending (R436). -/
def touchWindowClose (s : State) : State := touchDropLeave s

/-- A sentinel scan that is due starts once no main frame runs (R451). -/
def sentinelGo (s : State) : State :=
  if s.sent.due && !s.tch.running then { s with sent.due := false, sent.running := true } else s

/-- The scanner after a frame at `now`, and the interrupts it raises (R437 to R450). `free` numbers the free values of the results. -/
def frameEnd (raw : List (List (BitVec 16) × List (BitVec 16))) (noise cand : BitVec 12) (now free : Nat) (t : Touch) :
    Touch × List (BitVec 8) :=
  let outs := (t.cfg.groups.toList.zip t.groups.toList).zipIdx.map fun ((g, tg), k) =>
    let r := raw.getD k ([], [])
    groupStep t g now tg (r.1.map fun (v : Word) => (v.toNat : Int), r.2.map fun (v : Word) => (v.toNat : Int))
  let get := fun (k : Nat) => match outs[k]? with
    | some o => o.grp
    | none => TouchGroup.empty
  let drop := outs.any (·.drop)
  let t1 := { t with groups := #v[get 0, get 1, get 2, get 3], running := false, held := false, relPend := false
                     frm := t.frm + 1, drop := if drop then satInc t.drop else t.drop, noise := noise }
  let t2 := { t1 with res := resultOf t1 free }
  let t3 := noiseStep t2 noise cand
  let t4 := if t3.busy then { t3 with step := 0, quietSince := now } else t3
  (t4, (if outs.any (·.touch) then [0x2C] else []) ++ (if outs.any (·.release) || t.relPend then [0x2D] else []))

/-- TOUCH_FRAME_END (R437 to R450). The readings of each group come in its order, self then mutual. -/
def execTouchFrameEnd (raw : List (List (BitVec 16) × List (BitVec 16))) (noise cand : BitVec 12) (sub : BitVec 10) (s : State) :
    Host.Outcome State Fault Refusal :=
  .next <|
    let s := s.atSub sub
    if s.tch.running then
      let r := frameEnd raw noise cand s.now16 s.free s.tch
      let s1 := { s with tch := r.1, free := s.free + 4 }
      emit r.2 (sentinelGo (if s.tch.held then s1.fin 3 .touch else s1))
    else s

/-- A reading that has been touched for MAX_ON takes the raw value as its baseline (R441). -/
def unstick (now lim : Nat) (r : Reading) : Reading :=
  if r.touched && decide (r.since + lim ≤ now) then { r with base := r.raw, touched := false, on := 0, off := 0 } else r

/-- TOUCH_STUCK_RESET (R441). -/
def execTouchStuckReset (g : BitVec 2) (sub : BitVec 10) (s : State) : Host.Outcome State Fault Refusal :=
  .next <|
    let s := s.atSub sub
    let now := s.now16
    let gc := s.tch.cfg.groups.get g.toFin
    let tg := s.tch.groups.get g.toFin
    let lim := gc.maxOn.toNat * 16000000
    let old := fun (r : Reading) => r.touched && decide (r.since + lim ≤ now)
    let suppOld := tg.supp && decide (tg.suppSince + lim ≤ now)
    let touchOld := tg.self.any old || tg.crossed.any old
    if gc.maxOn ≠ 0 && (suppOld || touchOld) then
      let f := fun (r : Reading) => if suppOld then { r with base := r.raw } else unstick now lim r
      let tg' := { tg with self := tg.self.map f, crossed := tg.crossed.map f, supp := tg.supp && !suppOld }
      { s with tch.groups := s.tch.groups.set g.toFin tg', tch.stuck := true, tch.stkCnt := satInc s.tch.stkCnt,
               tch.relPend := s.tch.relPend || touchOld }
    else s

/-- TOUCH_RATE_STEP (R449). -/
def execTouchRateStep (sub : BitVec 10) (s : State) : Host.Outcome State Fault Refusal :=
  .next <|
    let s := s.atSub sub
    let lim := (s.tch.cfg.times.toList.getD s.tch.step.toNat 0).toNat * 16000000
    if s.awake && s.tch.on && !s.tch.busy && s.tch.step.toNat < 3 && decide (s.tch.quietSince + lim ≤ s.now16) then
      { s with tch.step := s.tch.step + 1 }
    else s

/-! ### Registers io:0x300 to 0x359 -/

/-- The core that owns TCH_CTL and TCH_NSEL. -/
def touchOwner (s : State) : CoreId := if s.tch.cfg.owner then .b else .a

/-- A write of TCH_CTL (R438, R444). -/
def touchCtlWrite (v : Word) (s : State) : State :=
  { s with tch.chgForce := v.getLsbD 0, tch.reacq := s.tch.reacq || v.getLsbD 1 }

/-- TOUCH_REACQUIRE: REACQ is written 1 and CHG_FORCE as it stands. -/
def execTouchReacquire (who : Who) (s : State) : Host.Outcome State Fault Refusal :=
  .next <| if s.actsAs who = touchOwner s then { s with tch.reacq := true } else s

/-- TOUCH_CHG_FORCE. -/
def execTouchChgForce (who : Who) (v : BitVec 16) (s : State) : Host.Outcome State Fault Refusal :=
  .next <| if s.actsAs who = touchOwner s then touchCtlWrite v s else s

/-- The read of TCH_FRM captures every result (R437). -/
def touchCapture (s : State) : State := { s with tch.cap := s.tch.res }

def execTouchResultCapture (s : State) : Host.Outcome State Fault Refusal :=
  .next <| (touchCapture s).reply (.word s.tch.frm)

/-- Values of the touch registers. -/
def touchVal (a : Nat) (s : State) : Option Word :=
  let t := s.tch
  if a = 0x300 then some (bitAt 16 0 t.acquiring ||| bitAt 16 1 t.chg ||| bitAt 16 2 (t.groups.toList.any (·.film)) |||
    bitAt 16 3 (t.groups.toList.any (·.supp)) ||| bitAt 16 4 (decide (t.hold > 0)) ||| bitAt 16 5 t.cfgBad ||| bitAt 16 6 t.stuck |||
    bitAt 16 7 t.hdNoRail)
  else if a = 0x301 then some (bitAt 16 0 t.chgForce)
  else if a = 0x302 then some t.frm
  else if a = 0x303 then some (t.cap.touch.setWidth 16)
  else if a = 0x304 then some ((t.cap.touch >>> 16).setWidth 16)
  else if a = 0x305 then some (t.cap.grp.setWidth 16)
  else if a = 0x306 then some (fieldAt 16 0 t.cap.freq ||| fieldAt 16 4 t.cap.noise)
  else if a = 0x307 then some t.skip
  else if a = 0x308 then some (t.skipWhy.setWidth 16)
  else if a = 0x309 then some (t.step.setWidth 16)
  else if a = 0x30A then some t.hopCnt
  else if a = 0x30B then some t.stkCnt
  else if a = 0x30C then some t.drop
  else if 0x310 ≤ a ∧ a < 0x320 then
    let p := t.cap.pts.toList.getD ((a - 0x310) / 2) (0, 0)
    some (if a % 2 = 0 then p.1 else p.2)
  else if 0x320 ≤ a ∧ a < 0x340 then some (t.cap.deltas.toList.getD (a - 0x320) 0)
  else if a = 0x340 then some (t.nsel.setWidth 16)
  else if a = 0x341 then some (match t.cap.nodes.find? (fun e => e.1 == t.nsel) with
    | some e => e.2
    | none => 0)
  else if a = 0x348 then some (fieldAt 16 0 s.sent.gest ||| bitAt 16 2 s.sent.new ||| bitAt 16 3 s.sent.burst |||
    bitAt 16 4 s.sent.supp ||| (s.sent.sensors.zipIdx.foldl (fun w (x, i) => w ||| bitAt 16 (5 + i) x.touched) 0))
  else if a = 0x349 then some s.sent.snoise
  else if a = 0x34A then some s.sent.sdrop
  else if 0x350 ≤ a ∧ a < 0x354 then
    let g := t.cfg.groups.toList.getD (a - 0x350) GroupCfg.absent
    some ((match g.kind with
      | .off => 0
      | .self => 1
      | .strip => 2
      | .grid => 3) ||| bitAt 16 2 g.high ||| fieldAt 16 3 g.shield ||| fieldAt 16 5 g.deb ||| fieldAt 16 7 g.nbPct |||
      bitAt 16 9 g.nbEn ||| fieldAt 16 10 g.palmN)
  else if 0x354 ≤ a ∧ a < 0x358 then some ((t.cfg.groups.toList.getD (a - 0x354) GroupCfg.absent).th.setWidth 16)
  else if a = 0x358 then some (fieldAt 16 0 t.cfg.freqEn ||| fieldAt 16 8 t.cfg.freqStart ||| fieldAt 16 11 t.cfg.filt)
  else if a = 0x359 then
    let c := t.cfg.sent
    some (BitVec.ofNat 16 (c.sensors.length % 8) ||| bitAt 16 3 c.dtap ||| bitAt 16 4 c.swipe ||| fieldAt 16 5 c.dir |||
      fieldAt 16 7 c.swipeMin)
  else none

/-- What a read of a touch register does besides. -/
def touchSide (a : Nat) (s : State) : State :=
  if a = 0x302 then touchCapture s
  else if a = 0x307 then { s with tch.skip := 0 }
  else if a = 0x30A then { s with tch.hopCnt := 0 }
  else if a = 0x30B then { s with tch.stkCnt := 0 }
  else if a = 0x30C then { s with tch.drop := 0 }
  else if a = 0x349 then { s with sent.snoise := 0 }
  else if a = 0x34A then { s with sent.sdrop := 0 }
  else s

/-- A write to a touch register. -/
def touchPut (a : Nat) (v : Word) (s : State) : State :=
  if a = 0x300 then { s with tch.cfgBad := s.tch.cfgBad && !v.getLsbD 5, tch.stuck := s.tch.stuck && !v.getLsbD 6,
                             tch.hdNoRail := s.tch.hdNoRail && !v.getLsbD 7 }
  else if a = 0x301 then touchCtlWrite v s
  else if a = 0x340 then { s with tch.nsel := v.setWidth 10 }
  else if a = 0x348 then { s with sent.new := s.sent.new && !v.getLsbD 2 }
  else s

/-! ### The sentinel -/

/-- The sentinel scans: 3 to 5 sensors are named, and the part is between OPEN and BARRED (R451). -/
def sentinelOn (s : State) : Bool :=
  s.powered && decide (3 ≤ s.tch.cfg.sent.sensors.length) && decide (s.tch.cfg.sent.sensors.length ≤ 5)

/-- SENTINEL_SCAN_DUE (R451). -/
def execSentinelScanDue (s : State) : Host.Outcome State Fault Refusal :=
  .next <| if sentinelOn s && !s.sent.running then sentinelGo { s with sent.due := true } else s

/-- One sensor in a scan: its delta, with the baseline of the frequency in use. -/
def sentDelta (useB : Bool) (x : SentSensor) (raw : Int) : Int :=
  match if useB then x.baseB else x.baseA with
  | some b => raw - b
  | none => 0

/-- A sensor's baseline after a scan (R439, R452): touched and suppressed sensors keep it. -/
def sentTrack (useB supp : Bool) (th : Int) (x : SentSensor) (raw : Int) : SentSensor :=
  let put := fun (b : Int) (x : SentSensor) => if useB then { x with baseB := some b } else { x with baseA := some b }
  match if useB then x.baseB else x.baseA with
  | none => put raw x
  | some b =>
    let d := raw - b
    if supp then { x with negA := 0 }
    else if d ≤ -th then
      if x.negA + 1 ≥ 4 then put raw { x with negA := 0 } else { x with negA := x.negA + 1 }
    else if !x.touched && decide (4 * (d.natAbs : Int) < th) then put (b + divOpen (raw - b) 16) { x with negA := 0 }
    else { x with negA := 0 }

/-- A gesture completes (R454). -/
def gestureDone (g : BitVec 2) (s : State) : State :=
  fire 7 { s with sent.gest := g, sent.new := true, sent.tap := .none, sent.swipe := [] }

/-- Progress of a double tap at a scan (R453); times are ticks, a burst period is 16 ticks. -/
def tapStep (c : SentinelCfg) (now : Nat) (newKey keyDown others : Bool) (t : TapSt) : TapSt × Bool :=
  if !c.dtap then (.none, false) else
  match t with
  | .none => (if newKey && !others then .down now else .none, false)
  | .down t0 =>
    if others then (.none, false)
    else if keyDown then (.down t0, false)
    else if now - t0 ≤ 16 * c.tapMax.toNat then (.up now, false) else (.none, false)
  | .up t1 =>
    if others then (.none, false)
    else if newKey then
      if now - t1 ≤ 16 * c.tapGap.toNat then (.none, true) else (.down now, false)
    else if now - t1 > 16 * c.tapGap.toNat then (.none, false) else (.up t1, false)

/-- Whether position p may follow the latest ones: next to the latest in the direction begun and allowed. -/
def swipeFits (dir : BitVec 2) (l : List Nat) (p : Nat) : Bool :=
  match l with
  | [] => true
  | [q] => (p == q + 1 && dir != 2) || (q == p + 1 && dir != 1)
  | q :: r :: _ => if q = r + 1 then p == q + 1 else q == p + 1

/-- Progress of a swipe at a scan (R453): the sequence, the time of its latest step, and a completed gesture. -/
def swipeStep (c : SentinelCfg) (now : Nat) (newly : List Nat) (l : List Nat) (t : Nat) : List Nat × Nat × Option (BitVec 2) :=
  if !c.swipe then ([], t, none) else
  let l := if now - t > 16 * c.stepMax.toNat then [] else l
  match newly with
  | [] => (l, t, none)
  | [p] =>
    if l.isEmpty then ([p], now, none)
    else if swipeFits c.dir l p then
      if l.length + 1 ≥ c.swipeMin.toNat then ([], now, some (if l.getD 0 0 < p then 2 else 3)) else (p :: l, now, none)
    else ([p], now, none)
  | _ => ([], now, none)

/-- SENTINEL_SCAN_END (R451 to R454). -/
def execSentinelScanEnd (raw : List (BitVec 16)) (noise : BitVec 12) (s : State) : Host.Outcome State Fault Refusal :=
  .next <|
    if s.sent.running then
      let s := { s with sent.running := false }
      let c := s.tch.cfg.sent
      if noise.toNat > s.tch.cfg.chgTh.toNat then
        { s with sent.snoise := satInc s.sent.snoise, sent.useB := !s.sent.useB }
      else
        let th : Int := c.sth.toNat
        let b := s.sent.useB
        let xs := c.sensors.zipIdx.map fun (_, i) =>
          (s.sent.sensors.getD i { baseA := none, baseB := none, negA := 0, touched := false, qualified := false })
        let rs : List Int := c.sensors.zipIdx.map fun (_, i) => ((raw.getD i 0).toNat : Int)
        let ds : List Int := (xs.zip rs).map fun (x, r) => sentDelta b x r
        let touched := (xs.zip ds).map fun (x, d) => decide (d ≥ th) || (x.touched && decide (8 * d ≥ 7 * th))
        let n := (touched.filter id).length
        let supp := decide (n ≥ c.spalmN.toNat) || (s.sent.supp && n != 0)
        let nb := fun (i : Nat) => (if i = 0 then [] else [ds.getD (i - 1) 0]) ++ (if i + 1 < ds.length then [ds.getD (i + 1) 0] else [])
        let drops := (ds.zipIdx.zip touched).map fun ((d, i), t) =>
          t && (nb i).all fun e => decide (8 * e < (c.snbPct.toNat + 1) * d)
        let qual := (touched.zip drops).map fun (t, d) => t && !d && !supp
        let was := xs.map (·.qualified)
        let newly := (qual.zip was).zipIdx.filterMap fun ((q, w), i) => if q && !w then some i else none
        let key := c.dtapKey.toNat
        let now := s.crs.tick.toNat
        let anyQ := qual.any id
        let others := qual.zipIdx.any fun (q, i) => q && i != key
        let (tap, tapped) := tapStep c now (newly.contains key) (touched.getD key false) others (if supp then .none else s.sent.tap)
        let (sw, swT, swiped) := swipeStep c now newly (if supp then [] else s.sent.swipe) s.sent.swipeT
        let xs' := ((xs.zip rs).zip (touched.zip qual)).map fun ((x, r), (t, q)) =>
          sentTrack b supp th { x with touched := t, qualified := q } r
        let miss := if anyQ then 0 else s.sent.miss + 1
        let s' := { s with sent := { s.sent with
          sensors := xs', supp := supp, sdrop := if drops.any id then satInc s.sent.sdrop else s.sent.sdrop
          burst := anyQ || (s.sent.burst && decide (miss < 64)), miss := miss
          tap := tap, swipe := sw, swipeT := swT } }
        if tapped then gestureDone 1 s'
        else match swiped with
          | some g => gestureDone g s'
          | none => s'
    else s

end Machine
end Sys2Proof
end

