-- ==== Sys2Proof/Machine/Answers.lean ====
section
/-!
DEFINITION. Answers of the Porter as they reach their requesters (R77, R83, R226).
-/
namespace Sys2Proof
namespace Machine

/-- A core that waits in ASKING goes on with its first answer (R226). -/
def Core.answered (k : Core) : Core :=
  { k with st := match k.st with
      | .asking => .running
      | .halted .asking => .halted .running
      | st => st }

/-- An answer reaches a core: PG, the PA latch, and the DEFER flag of the running course (R158, R226). -/
def coreAnswer (c : CoreId) (k : BitVec 3) (a : Answer) (s : State) : State :=
  let s := if a = .defer then { s with crs.flags := setBit s.crs.flags 2 true } else s
  s.setCore c ((s.core c).answered.permit k a)

/-- An answer delivered. The wake router and the last gasp's wake take theirs with WAKE_LEAVE_ANSWER. -/
def deliver (k : BitVec 3) (r : Requester) (a : Answer) (s : State) : State :=
  match r with
  | .coreA => coreAnswer .a k a s
  | .coreB => coreAnswer .b k a s
  | .vault => vaultAnswer k r a s
  | .gaspPage => vaultAnswer k r a s
  | .pane => paneAnswer a s
  | .touch => touchAnswer a s
  | .ash0 => ch0Answer a s
  | .ashA => ashAnswer .a a s
  | .ashB => ashAnswer .b a s
  | .portC => portCAnswer a s
  | .wakeRouter => s
  | .gaspWake => s

/-- Whether an answer is the wake router's. -/
def wakeAnswer (e : BitVec 3 × Requester × Answer) : Bool := e.2.1 == .wakeRouter || e.2.1 == .gaspWake

/-- The first entry of a list that meets a test, and the list without it. -/
def takeFirst {α : Type} (f : α → Bool) : List α → Option (α × List α)
  | [] => none
  | x :: l =>
    if f x then some (x, l)
    else match takeFirst f l with
      | some (y, r) => some (y, x :: r)
      | none => none

/-- PERMIT_ANSWER (R77, R226): the oldest answer on its way, the wake router's apart. -/
def execPermitAnswer (s : State) : Host.Outcome State Fault Refusal :=
  .next <|
    match takeFirst (fun e => !wakeAnswer e) s.por.answers with
    | some ((k, r, a), l) => emit [] (deliver k r a { s with por.answers := l })
    | none => s

end Machine
end Sys2Proof
end

