-- ==== Sys2Proof/Machine/Course.lean ====
section
/-!
DEFINITION. The tick and the course engine: starts, windows, time-up, ends, stalls, sleep actions, warm reset
(05_time_without_clock.md; R100, R101, R129).
-/
namespace Sys2Proof
namespace Machine

/-! ### Measured time (R141, R154, R155) -/

/-- Microseconds between two times in 1/16 us, as a timer that counts whole ones gives them. -/
def micros (a b : Nat) : Nat := divOpenN (b - a) 16

/-- Microseconds since the running course started, at the latest moment told. -/
def courseElapsed (s : State) : Nat := micros (s.crs.startTick.toNat * 15625 + s.crs.startUs.toNat * 16) s.now16

def CourseEngine.def? (c : CourseEngine) (n : BitVec 6) : Option CourseDef := c.table[n.toNat]?

/-- The margin an overrun must exceed, in us (R154). -/
def overrunMargin (bound : Nat) (rc : Bool) : Nat := 1 + (if rc then (bound * 3 + 99) / 100 else (bound * 3 + 999) / 1000)

/-! ### Course end (R100, R101, R150, R584) -/

/-- The windows of the course close. -/
def closeWindows (s : State) : State :=
  let s := paneWindowClose (touchWindowClose (if s.por.lgActive then s else vaultWindowClose s))
  { s with crs.winVault := false, crs.winTouch := false, crs.winPane := false }

/-- The check of the measured duration (R154, R158). -/
def checkBound (dur bound : Nat) (c : CourseEngine) : CourseEngine :=
  if dur > bound + overrunMargin bound (c.flags.getLsbD 0) then
    addRecord { course := c.now, kind := .overrun, flags := c.flags, stamp := c.startTick.setWidth 32, meas := satOf 16 dur }
      { c with ovrCnt := satInc c.ovrCnt, stat := setBit c.stat 0 true }
  else c

/-- The sleep state a target code names (R100, SLP_NEXT.TARGET). -/
def sleepOf (t : BitVec 3) : Option Sleep :=
  if t = 2 then some .latched
  else if t = 3 then some .shuttered
  else if t = 4 then some .barred
  else if t = 5 then some .sealed
  else none

/-- The first refusal of R101 that holds: 0 PANE, 1 HINGE, 2 CELL, 3 CODE. -/
def sleepRefusal (t : BitVec 3) (s : State) : Option (BitVec 2) :=
  match sleepOf t with
  | none => some 3
  | some t =>
    if s.pane.st != .off then some 0
    else if s.hng.session && t != .latched then some 1
    else if t = .sealed && !s.en.cellP then some 2
    else none

/-- TICK fires at once where an occurrence is pending (R164). -/
def tickAtOnce (s : State) : State :=
  match s.pwr.phase with
  | .entering t => if t != .sealed && !s.crs.pend.isEmpty && !s.pwr.entryNoTick then fire 9 s else s
  | _ => s

/-- Steps 1 and 2 of an entry (R114, R117): the wake router begins to latch; an entry to SEALED closes the chain's segment (R375). -/
def beginEntry (t : Sleep) (noTick : Bool) (s : State) : State :=
  let s := { s with pwr := { s.pwr with phase := .entering t, entryNoTick := noTick, drainTicks := 0, drainOver := false, latched := 0,
                                        wakeTick := none } }
  tickAtOnce (if t = .sealed then offerChain s else s)

/-- The sleep action of the course that has ended (R100, R101). -/
def sleepAction (d : CourseDef) (s : State) : State :=
  let target := if s.pwr.slpValid then s.pwr.slpTarget else d.sleep
  let noTick := if s.pwr.slpValid then s.pwr.slpNoTick else d.noTick
  let s := { s with pwr.slpValid := false }
  if target = 1 || s.por.lgActive then s
  else match sleepRefusal target s with
    | some why => { s with pwr.refused := true, pwr.why := why }
    | none => match sleepOf target with
      | some t => beginEntry t noTick s
      | none => s

/-- The running course stops running; its duration is kept (R155, R584). -/
def courseStop (s : State) : State :=
  let dur := courseElapsed s
  let s := porterCourseEnd (closeWindows s)
  { s with crs := { s.crs with running := false, timeUp := false, lastDur := satOf 16 dur, tasksA := [], tasksB := [], endedA := true,
                               endedB := true }
           ash.scrubLeft := 0 }

/-- A course ends (R150). -/
def courseEnd (s : State) : State :=
  match s.crs.def? s.crs.now with
  | some d =>
    let dur := courseElapsed s
    let s := courseStop s
    sleepAction d { s with crs := checkBound dur d.bound.toNat s.crs }
  | none => courseStop s

/-- The course ends once both cores have ended their lists (R149). -/
def courseEndCheck (s : State) : State := if s.crs.running && s.crs.endedA && s.crs.endedB then courseEnd s else s

/-! ### Course start (R143, R145, R147) -/

/-- The pending occurrence of the lowest-numbered course. -/
def lowestPending (l : List Occurrence) : Option Occurrence :=
  l.foldl (fun b o => match b with
    | some x => if o.course.toNat < x.course.toNat then some o else b
    | none => some o) none

/-- The course to start next, with the occurrence it takes up (R122, R145, R166). -/
def nextCourse (c : CourseEngine) : Option (BitVec 6 × Option Occurrence) :=
  match c.forced with
  | some n => some (n, c.pend.find? fun o => o.course == n)
  | none => (lowestPending c.pend).map fun o => (o.course, some o)

/-- A start's lateness counted (R168). -/
def countLate (now : Nat) (o : Option Occurrence) (c : CourseEngine) : CourseEngine :=
  match o with
  | some o =>
    let late := now - (o.tick.toNat * 15625 + o.us.toNat * 16)
    let us : Word := satOf 16 (divOpenN late 16)
    { c with lateCnt := if late > 15625 then satInc c.lateCnt else c.lateCnt, lateMax := if us.toNat > c.lateMax.toNat then us else c.lateMax }
  | none => c

/-- A core begins at an address; a HALT that waited for it marks the course (R158, R540). -/
def startCore (c : CoreId) (e : Word) (s : State) : State :=
  let s := s.setCore c ((s.core c).startTask e)
  match (s.core c).st with
  | .halted _ => { s with crs.flags := setBit s.crs.flags 4 true }
  | _ => s

/-- A core begins its list, if it has one (R147 step 4). -/
def startList (c : CoreId) (l : List Word) (s : State) : State :=
  match l with
  | e :: _ => startCore c e s
  | [] => s

/-- The steps of a course start. -/
def courseBegin (n : BitVec 6) (o : Option Occurrence) (d : CourseDef) (s : State) : State :=
  let c := countLate s.now16 o s.crs
  let ta := if c.corner = 3 then [] else d.tasksA
  let c := { c with forced := none, pend := c.pend.filter (fun x => x.course != n), running := true, now := n, timeUp := false,
                    startTick := c.tick, startUs := c.subtick, flags := bitAt 6 0 c.onRc, stallDone := false,
                    epoch := if c.newEpoch then c.tick else c.epoch, newEpoch := false,
                    tasksA := ta.drop 1, tasksB := d.tasksB.drop 1, endedA := ta.isEmpty, endedB := d.tasksB.isEmpty,
                    winVault := false, winTouch := false, winPane := false }
  let s := porterCourseStart d { s with crs := c }
  let s := { s with mrt := mortarCourseStart d.mortSet d.mortClr s.mrt, pwr.slpBanks := d.banks, ash.share := d.ashShare,
                    ash.scrubLeft := s.ash.scrub }
  emit [] (courseEndCheck (startList .b d.tasksB (startList .a ta s)))

/-- COURSE_START (R145, R147). Courses start in OPEN and AJAR alone, and none once the last-gasp sequence has begun (R91). -/
def execCourseStart (sub : BitVec 10) (s : State) : Host.Outcome State Fault Refusal :=
  .next <|
    if s.awake && !s.crs.running && !s.por.lgActive then
      match nextCourse s.crs with
      | some (n, o) =>
        match s.crs.def? n with
        | some d => courseBegin n o d (s.atSub sub)
        | none => s
      | none => s
    else s

/-! ### Windows, time-up, stall (R151, R153, R157, R160) -/

/-- The window of a block in the running course. -/
def CourseDef.window (d : CourseDef) : WinBlock → Window
  | .vault => d.winVault
  | .touch => d.winTouch
  | .pane => d.winPane

/-- COURSE_WINDOW_OPEN (R151). -/
def execCourseWindowOpen (blk : WinBlock) (s : State) : Host.Outcome State Fault Refusal :=
  .next <|
    match s.crs.def? s.crs.now with
    | some d =>
      if s.crs.running && !(d.window blk).never then
        match blk with
        | .vault => { s with crs.winVault := true }
        | .touch => { s with crs.winTouch := true }
        | .pane => paneWindowOpen { s with crs.winPane := true }
      else s
    | none => s

/-- COURSE_WINDOW_CLOSE (R151). -/
def execCourseWindowClose (blk : WinBlock) (s : State) : Host.Outcome State Fault Refusal :=
  .next <|
    match blk with
    | .vault => if s.crs.winVault then { (vaultWindowClose s) with crs.winVault := false } else s
    | .touch => if s.crs.winTouch then { (touchWindowClose s) with crs.winTouch := false } else s
    | .pane => if s.crs.winPane then { (paneWindowClose s) with crs.winPane := false } else s

/-- A WAITEV ends with a snapshot (R160, R225); one that ends at time-up is counted and flagged. -/
def endWait (c : CoreId) (s : State) : State :=
  let k := s.core c
  match k.st with
  | .waiting _ =>
    let s := s.setCore c { (k.snapshot s.crs.timeUp) with st := .running }
    if s.crs.timeUp then { s with crs.tuCnt := satInc s.crs.tuCnt, crs.flags := setBit s.crs.flags 3 true } else s
  | _ => s

/-- COURSE_TIME_UP (R153, R161). -/
def execCourseTimeUp (sub : BitVec 10) (s : State) : Host.Outcome State Fault Refusal :=
  .next <|
    if s.crs.running && !s.crs.timeUp then endWait .b (endWait .a { (s.atSub sub) with crs.timeUp := true }) else s

/-- A core that has ended its list begins at its stall door (R157). -/
def stallDoor (c : CoreId) (s : State) : State :=
  match c with
  | .a => if s.crs.endedA && s.crs.corner != 3 then { (startCore .a s.crs.doorA s) with crs.endedA := false } else s
  | .b => if s.crs.endedB then { (startCore .b s.crs.doorB s) with crs.endedB := false } else s

/-- COURSE_STALL (R157). -/
def execCourseStall (s : State) : Host.Outcome State Fault Refusal :=
  .next <|
    let c := s.crs
    if c.running && !c.stallDone && c.stallTicks != 0 && decide (c.startTick.toNat + c.stallTicks.toNat ≤ c.tick.toNat) then
      let c := addRecord { course := c.now, kind := .stall, flags := c.flags, stamp := c.startTick.setWidth 32, meas := c.stallTicks.setWidth 16 }
        { c with stallDone := true, stat := setBit c.stat 2 true }
      stallDoor .b (stallDoor .a { s with crs := c })
    else s

/-! ### The tick (R136 to R140) -/

/-- The tick for the course engine: sources of the tick, and courses due. -/
def courseTick (s : State) : State :=
  let c := s.crs
  let rc := c.onRc && !c.xtalReady
  let c := { c with tick := satInc c.tick, subtick := 0, onRc := rc, xtalReady := false, trimAge := c.trimAge + 1 }
  let s := { s with crs := c }
  let s := if s.pwr.wakeTick = some c.tick then fire 9 s else s
  (tickCourses s.crs).foldl (fun t n => fallDue n 0 t) s

/-- TICK (R136). `cal`: the Mortar's count over the tick that ends (R319); `offsetFault`: the counter's offset check (R506). -/
def execTick (cal : Option (BitVec 12)) (offsetFault : Bool) (s : State) : Host.Outcome State Fault Refusal :=
  .next <|
    if s.derzorOn then
      let s := courseTick s
      let s := { s with por := s.por.tick, vlt := s.vlt.tick
                        pwr.drainTicks := if drains s then s.pwr.drainTicks + 1 else s.pwr.drainTicks }
      let s := if s.mainOn then { s with mrt := mortarTick cal s.mrt, sill.tempDue := true } else s
      emit [] (if offsetFault then counterFault { s with sill.fault := true } else s)
    else s

/-- CRYSTAL_STOP (R137): the tick moves to the RC at once. -/
def execCrystalStop (s : State) : Host.Outcome State Fault Refusal :=
  .next { s with crs := { s.crs with onRc := true, xtalReady := false, flags := if s.crs.running then setBit s.crs.flags 0 true else s.crs.flags } }

/-- CRYSTAL_RUN (R137): the tick moves back at the next tick boundary. -/
def execCrystalRun (s : State) : Host.Outcome State Fault Refusal := .next { s with crs.xtalReady := s.crs.onRc }

/-- RC_TRIM (R139). -/
def execRcTrim (s : State) : Host.Outcome State Fault Refusal := .next <| if s.crs.onRc then s else { s with crs.trimAge := 0 }

/-! ### Warm reset (R129, R584) -/

/-- The computation restarts; `cause` is RST_CAUSE. A session of the store service ends (R189). -/
def warmReset (cause : BitVec 3) (s : State) : State :=
  let s := if s.crs.running then courseStop s else s
  { s with coreA := { s.coreA.restart with sched := s.coreA.sched }, coreB := { s.coreB.restart with sched := s.coreB.sched }
           crs := { s.crs with pend := [], forced := some 0, newEpoch := true }
           isl.rstCause := cause
           img.sess := none }

/-- WARM_RESET (R129). -/
def execWarmReset (_who : Who) (s : State) : Host.Outcome State Fault Refusal :=
  .next <| if s.awake then emit [] (warmReset 4 s) else s

/-! ### Captures and registers io:0x010 to 0x028 -/

/-- R169. -/
def tickCapture (s : State) : State :=
  let c := s.crs
  { s with crs := { c with tick1Cap := (c.tick >>> 16).setWidth 16, tick2Cap := (c.tick >>> 32).setWidth 16, subCap := c.subtick } }

/-- TICK_CAPTURE_READ (R169). -/
def execTickCaptureRead (sub : BitVec 10) (s : State) : Host.Outcome State Fault Refusal :=
  .next ((tickCapture (s.atSub sub)).reply (.word (s.crs.tick.setWidth 16)))

def recPop (s : State) : State := { s with crs.recs := s.crs.recs.drop 1 }

def recMeas (c : CourseEngine) : Word :=
  match c.recs with
  | r :: _ => r.meas
  | [] => 0

/-- CONTRACT_RECORD_POP (R158). -/
def execContractRecordPop (s : State) : Host.Outcome State Fault Refusal := .next ((recPop s).reply (.word (recMeas s.crs)))

def RecKind.code : RecKind → BitVec 2
  | .overrun => 1
  | .skip => 2
  | .stall => 3

def pendWord (c : CourseEngine) (k : Nat) : Word :=
  c.pend.foldl (fun w o => if o.course.toNat / 16 = k then setBit w (o.course.toNat % 16) true else w) 0

def courseVal (a : Nat) (s : State) : Option Word :=
  let c := s.crs
  let late := c.running && (match c.def? c.now with
    | some d => decide (courseElapsed s > d.bound.toNat)
    | none => false)
  if a < 0x010 then none
  else if a = 0x010 then some (bitAt 16 0 c.onRc)
  else if a = 0x011 then some (c.tick.setWidth 16)
  else if a = 0x012 then some c.tick1Cap
  else if a = 0x013 then some c.tick2Cap
  else if a = 0x014 then some (c.subCap.setWidth 16)
  else if a = 0x015 then some (fieldAt 16 0 c.corner ||| (BitVec.ofNat 6 (c.table.length - 1)).setWidth 16 <<< 2 ||| fieldAt 16 8 c.stallTicks)
  else if a = 0x016 then some (fieldAt 16 0 c.now ||| bitAt 16 6 c.running ||| bitAt 16 7 c.timeUp ||| bitAt 16 8 late)
  else if a = 0x017 then some (if c.running then satOf 16 (courseElapsed s) else c.lastDur)
  else if a = 0x018 then some c.lastDur
  else if a = 0x019 then some (c.stat.setWidth 16)
  else if a = 0x01A then some c.ovrCnt
  else if a = 0x01B then some c.skipCnt
  else if a = 0x01C then some c.lateCnt
  else if a = 0x01D then some c.sleptCnt
  else if a = 0x01E then some c.tuCnt
  else if a = 0x01F then some c.lateMax
  else if a < 0x024 then some (pendWord c (a - 0x020))
  else if a < 0x028 then some (match c.recs with
    | r :: _ =>
      if a = 0x024 then fieldAt 16 0 r.course ||| fieldAt 16 6 r.kind.code ||| fieldAt 16 8 r.flags
      else if a = 0x025 then r.stamp.setWidth 16
      else if a = 0x026 then (r.stamp >>> 16).setWidth 16
      else r.meas
    | [] => 0)
  else if a = 0x028 then some (BitVec.ofNat 16 c.recs.length)
  else none

def courseSide (a : Nat) (s : State) : State :=
  if a = 0x011 then tickCapture s
  else if a = 0x01A then { s with crs.ovrCnt := 0 }
  else if a = 0x01B then { s with crs.skipCnt := 0 }
  else if a = 0x01C then { s with crs.lateCnt := 0 }
  else if a = 0x01D then { s with crs.sleptCnt := 0 }
  else if a = 0x01E then { s with crs.tuCnt := 0 }
  else if a = 0x01F then { s with crs.lateMax := 0 }
  else if a = 0x027 then recPop s
  else s

def coursePut (a : Nat) (v : Word) (s : State) : State :=
  if a = 0x019 then { s with crs.stat := s.crs.stat &&& ~~~(v.setWidth 5) } else s

end Machine
end Sys2Proof
end

