-- ==== Sys2Proof/Machine/Pins.lean ====
section
/-!
DEFINITION. What happens at the pins, and their registers (15_pins.md).
-/
namespace Sys2Proof
namespace Machine

def PinBank.idx : PinBank → Nat
  | .a => 0
  | .b => 1
  | .c => 2

/-- PIN_INPUT_CHANGE (R420). -/
def execPinInputChange (pin : BitVec 6) (level : Bool) (s : State) : Host.Outcome State Fault Refusal :=
  .next <| if pin.toNat < 48 then emit [] { s with pin.pad := setBit s.pin.pad pin.toNat level } else s

/-- A write of an output word by a core changes the bits of pins it owns (R418). -/
def outPut (g : Nat) (c : CoreId) (v : Word) (s : State) : State :=
  { s with pin.out := groupPut s.pin.out g (ownMask s.pin g c) v }

/-- A write of an enable word (R419). -/
def oePut (g : Nat) (c : CoreId) (v : Word) (s : State) : State :=
  { s with pin.oe := groupPut s.pin.oe g (oeMask s.pin g c) v }

/-- A write that the open session's trust forbids: it would change an owned trusted bit (R529, R530). The Hinge is held to it
whoever's name it uses. -/
def trustBlocks (s : State) (who : Who) (g : Nat) (old new : Word) : Bool :=
  let own := match who with
    | .hinge => trustMask s.pin g
    | .coreA => trustMask s.pin g &&& ownMask s.pin g .a
    | .coreB => trustMask s.pin g &&& ownMask s.pin g .b
  s.hng.session && (((old ^^^ new) &&& own) != 0)

/-- PIN_OUTPUT_WRITE (R418). -/
def execPinOutputWrite (who : Who) (g : PinBank) (v : BitVec 16) (s : State) : Host.Outcome State Fault Refusal :=
  .next <|
    let k := PinBank.idx g
    if s.powered && !trustBlocks s who k (groupGet s.pin.out k) v then emit [] (outPut k (s.actsAs who) v s) else s

/-- PIN_ENABLE_WRITE (R419). -/
def execPinEnableWrite (who : Who) (g : PinBank) (v : BitVec 16) (s : State) : Host.Outcome State Fault Refusal :=
  .next <|
    let k := PinBank.idx g
    if s.powered && !trustBlocks s who k (groupGet s.pin.oe k) v then emit [] (oePut k (s.actsAs who) v s) else s

/-- VIO_RETURN (R414). -/
def execVioReturn (bank : PinBank) (s : State) : Host.Outcome State Fault Refusal :=
  .next <| emit [] { s with pin.vioOk := setBit s.pin.vioOk (PinBank.idx bank) true }

/-! ### Registers io:0x080 to 0x0FF -/

/-- An input word (R420). -/
def inWord (s : State) (g : Nat) : Word :=
  (List.range 16).foldl (fun w k => w ||| bitAt 16 k (pinInput s (16 * g + k))) 0

def pinVal (a : Nat) (s : State) : Option Word :=
  let p := s.pin
  if 0x080 ≤ a ∧ a < 0x083 then some (groupGet p.out (a - 0x080))
  else if 0x084 ≤ a ∧ a < 0x087 then some (inWord s (a - 0x084))
  else if 0x088 ≤ a ∧ a < 0x08B then some (groupGet p.oe (a - 0x088))
  else if a = 0x090 then some (p.mapConf.setWidth 16)
  else if a = 0x091 then some (p.mapMiss.setWidth 16)
  else if a = 0x092 then some (fieldAt 16 0 p.vioOk ||| bitAt 16 3 p.cfgBad ||| bitAt 16 4 p.rcv)
  else if 0x0A0 ≤ a ∧ a < 0x100 then
    let it := vat 0 p.items ((a - 0x0A0) / 2)
    some (if a % 2 = 0 then it.setWidth 16 else (it >>> 16).setWidth 16)
  else none

/-- A write to a pin register by a core, or by the Hinge in a core's name. -/
def pinPut (a : Nat) (v : Word) (c : CoreId) (s : State) : State :=
  if 0x080 ≤ a ∧ a < 0x083 then outPut (a - 0x080) c v s
  else if 0x088 ≤ a ∧ a < 0x08B then oePut (a - 0x088) c v s
  else if a = 0x092 then { s with pin.cfgBad := s.pin.cfgBad && !v.getLsbD 3 }
  else s

end Machine
end Sys2Proof
end

