-- ==== Sys2Proof/Machine/Rtc.lean ====
section
/-!
DEFINITION. The calendar clock, its alarm and the backup bytes (19_rtc.md).
-/
namespace Sys2Proof
namespace Machine

/-- A year under the Gregorian rules; year is counted from 2000, and 2100 is no leap year (R509). -/
def leapYear (y : Nat) : Bool := y % 4 == 0 && (y % 100 != 0 || y % 400 == 0)

def monthDays (y m : Nat) : Nat :=
  if m = 2 then (if leapYear y then 29 else 28)
  else if m = 4 ∨ m = 6 ∨ m = 9 ∨ m = 11 then 30 else 31

/-- Days from 2000-01-01 to a date. -/
def dayNumber (y m d : Nat) : Nat :=
  ((List.range y).map fun k => if leapYear k then 366 else 365).sum + ((List.range (m - 1)).map fun k => monthDays y (k + 1)).sum + (d - 1)

/-- Day of the week, 1 Monday to 7 Sunday (R513); 2000-01-01 was a Saturday. -/
def dayOfWeek (t : CalTime) : BitVec 3 := BitVec.ofNat 3 ((dayNumber t.year.toNat t.mon.toNat t.day.toNat + 5) % 7 + 1)

/-- The last value, at which the calendar holds (R509). -/
def calEnd (t : CalTime) : Bool :=
  t.year == 199 && t.mon == 12 && t.day == 31 && t.hour == 23 && t.min == 59 && t.sec == 59 && t.sub == 1023

/-- A whole second later. -/
def nextSecond (t : CalTime) : CalTime :=
  if t.sec.toNat < 59 then { t with sub := 0, sec := t.sec + 1 }
  else if t.min.toNat < 59 then { t with sub := 0, sec := 0, min := t.min + 1 }
  else if t.hour.toNat < 23 then { t with sub := 0, sec := 0, min := 0, hour := t.hour + 1 }
  else if t.day.toNat < monthDays t.year.toNat t.mon.toNat then { t with sub := 0, sec := 0, min := 0, hour := 0, day := t.day + 1 }
  else if t.mon.toNat < 12 then { t with sub := 0, sec := 0, min := 0, hour := 0, day := 1, mon := t.mon + 1 }
  else { t with sub := 0, sec := 0, min := 0, hour := 0, day := 1, mon := 1, year := t.year + 1 }

/-- 1/1024 s later; the last value holds. -/
def nextSub (t : CalTime) : CalTime :=
  if calEnd t then t else if t.sub = 1023 then nextSecond t else { t with sub := t.sub + 1 }

/-! ### Register words of a calendar value -/

def calTime0 (t : CalTime) : Word := fieldAt 16 0 t.sec ||| fieldAt 16 8 t.min
def calTime1 (t : CalTime) : Word := fieldAt 16 0 t.hour ||| fieldAt 16 8 (dayOfWeek t)
def calDate (t : CalTime) : Word := fieldAt 16 0 t.day ||| fieldAt 16 8 t.mon

/-- The alarm's enabled fields agree with the calendar (R514). -/
def almMatch (r : Rtc) : Bool :=
  let t := r.now
  (!r.amsk.getLsbD 0 || t.sec == r.alm0.setWidth 6) && (!r.amsk.getLsbD 1 || t.min == (r.alm0 >>> 8).setWidth 6) &&
  (!r.amsk.getLsbD 2 || t.hour == r.alm1.setWidth 5) && (!r.amsk.getLsbD 3 || t.day == r.alm2.setWidth 5) &&
  (!r.amsk.getLsbD 4 || t.mon == (r.alm2 >>> 8).setWidth 4) && (!r.amsk.getLsbD 5 || dayOfWeek t == (r.alm1 >>> 8).setWidth 3)

/-- Cycles counted beside the 32 of step k of a trim window: N of them spread evenly over the 32 768 steps (R510). -/
def trimCycles (n : Int) (k : Nat) : Int := (n * (k + 1)) / 32768 - (n * k) / 32768

/-- One advance of the calendar, with its pulses and its alarm (R514, R515). -/
def calAdvance (s : State) : State :=
  let t := s.rtc.now
  let t' := nextSub t
  if t' = t then s else
  let s := { s with rtc.now := t' }
  if t'.sub = 0 then
    let s := if s.rtc.almEn && almMatch s.rtc && !s.rtc.alm then fire 8 { s with rtc.alm := true } else s
    emit (0x31 :: if t'.sec = 0 then [0x32] else []) s
  else s

/-- Advances for each 32 cycles the divider has reached. -/
def calDivide : Nat → State → State
  | 0, s => s
  | f + 1, s => if s.rtc.div ≥ 32 then calDivide f (calAdvance { s with rtc.div := s.rtc.div - 32 }) else s

/-- CALENDAR_TICK (R509 to R511): 32 cycles of the oscillation that drives the tick; trim acts while that is the crystal. -/
def execCalendarTick (s : State) : Host.Outcome State Fault Refusal :=
  .next <|
    let r := s.rtc
    if s.crs.onRc then calDivide 2 { s with rtc.div := r.div + 32 }
    else
      let extra := trimCycles r.trimWin.toInt r.win
      let last := decide (r.win + 1 ≥ 32768)
      calDivide 3 { s with rtc := { r with div := (((r.div : Int) + 32 + extra).toNat), win := if last then 0 else r.win + 1,
                                           trimWin := if last then r.trim else r.trimWin } }

/-! ### Loading and capture -/

/-- A number held between limits. -/
def limit (lo hi n : Nat) : Nat := if n < lo then lo else if n > hi then hi else n

/-- The values of CAL_SET, corrected (R513). -/
def calSet (r : Rtc) : CalTime :=
  let year := limit 0 199 (r.set4.toNat % 256)
  let mon := limit 1 12 (r.set3.toNat / 256 % 16)
  let day := limit 1 (monthDays year mon) (limit 1 31 (r.set3.toNat % 32))
  { sub := r.set0.setWidth 10, sec := BitVec.ofNat 6 (limit 0 59 (r.set1.toNat % 64)),
    min := BitVec.ofNat 6 (limit 0 59 (r.set1.toNat / 256 % 64)), hour := BitVec.ofNat 5 (limit 0 23 (r.set2.toNat % 32)),
    day := BitVec.ofNat 5 day, mon := BitVec.ofNat 4 mon, year := BitVec.ofNat 8 year }

/-- LOAD (R513): the divider and the trim window start from zero. -/
def calLoad (s : State) : State :=
  { s with rtc := { s.rtc with now := calSet s.rtc, div := 0, win := 0, trimWin := s.rtc.trim } }

/-- CALENDAR_LOAD. -/
def execCalendarLoad (_who : Who) (s : State) : Host.Outcome State Fault Refusal := .next (calLoad s)

/-- A read of CAL_SUB captures the other words (R512). -/
def calCapture (s : State) : State := { s with rtc.cap := s.rtc.now }

/-- CALENDAR_CAPTURE. -/
def execCalendarCapture (s : State) : Host.Outcome State Fault Refusal :=
  .next <| (calCapture s).reply (.word (s.rtc.now.sub.setWidth 16))

/-- The signed N of a written word, held to ±537 (R510). -/
def trimOf (v : Word) : BitVec 11 :=
  let n := (v.setWidth 11).toInt
  BitVec.ofInt 11 (if n > 537 then 537 else if n < -537 then -537 else n)

/-! ### Registers io:0x440 to 0x45F -/

def rtcVal (a : Nat) (s : State) : Option Word :=
  let r := s.rtc
  if a = 0x440 then some (r.now.sub.setWidth 16)
  else if a = 0x441 then some (calTime0 r.cap)
  else if a = 0x442 then some (calTime1 r.cap)
  else if a = 0x443 then some (calDate r.cap)
  else if a = 0x444 then some (r.cap.year.setWidth 16)
  else if a = 0x445 then some r.set0
  else if a = 0x446 then some r.set1
  else if a = 0x447 then some r.set2
  else if a = 0x448 then some r.set3
  else if a = 0x449 then some r.set4
  else if a = 0x44A then some (bitAt 16 1 r.almEn)
  else if a = 0x44B then some (r.trim.setWidth 16)
  else if a = 0x44C then some r.alm0
  else if a = 0x44D then some r.alm1
  else if a = 0x44E then some r.alm2
  else if a = 0x44F then some (r.amsk.setWidth 16)
  else if a = 0x450 then some (bitAt 16 0 r.alm)
  else if 0x458 ≤ a ∧ a < 0x460 then some (vat 0 r.bkp (a - 0x458))
  else none

def rtcSide (a : Nat) (s : State) : State := if a = 0x440 then calCapture s else s

def rtcPut (a : Nat) (v : Word) (s : State) : State :=
  if a = 0x445 then { s with rtc.set0 := v &&& 0x03FF }
  else if a = 0x446 then { s with rtc.set1 := v &&& 0x3F3F }
  else if a = 0x447 then { s with rtc.set2 := v &&& 0x071F }
  else if a = 0x448 then { s with rtc.set3 := v &&& 0x0F1F }
  else if a = 0x449 then { s with rtc.set4 := v &&& 0x00FF }
  else if a = 0x44A then
    let s := { s with rtc.almEn := v.getLsbD 1 }
    if v.getLsbD 0 then calLoad s else s
  else if a = 0x44B then { s with rtc.trim := trimOf v }
  else if a = 0x44C then { s with rtc.alm0 := v &&& 0x3F3F }
  else if a = 0x44D then { s with rtc.alm1 := v &&& 0x071F }
  else if a = 0x44E then { s with rtc.alm2 := v &&& 0x0F1F }
  else if a = 0x44F then { s with rtc.amsk := v.setWidth 6 }
  else if a = 0x450 then { s with rtc.alm := s.rtc.alm && !v.getLsbD 0 }
  else if 0x458 ≤ a ∧ a < 0x460 then { s with rtc.bkp := s.rtc.bkp.set! (a - 0x458) v }
  else s

end Machine
end Sys2Proof
end

