-- ==== Sys2Proof/Machine/Sill.lean ====
section
/-!
DEFINITION. The Sill: sample instants, autoranging, the shunt queue, auxiliary results and thresholds (18_sill_afe.md).
-/
namespace Sys2Proof
namespace Machine

/-! ### Load (R489, R507, R508) -/

/-- Conversion time t_c at a corner N, L, S, in 0.1 us (R488). -/
def sillTc (corner : BitVec 2) : Nat := if corner = 2 then 55 else if corner = 3 then 580 else 9

/-- The landing bound of R488 with OVS codes a and b, in 1/160 us. -/
def sillBound (tc a b : Nat) : Nat := ((2 ^ a + 2 ^ b + 1) * tc + 10) * 16

/-- OVS_AUX, then OVS_SH, is halved until the bound fits PER (R489). -/
def sillHalve (tc per : Nat) : Nat → Nat → Nat → Nat × Nat
  | 0, a, b => (a, b)
  | f + 1, a, b =>
    if sillBound tc a b ≤ per * 10 then (a, b)
    else if b > 0 then sillHalve tc per f a (b - 1)
    else if a > 0 then sillHalve tc per f (a - 1) b
    else (a, b)

/-- The settings as the part uses them. -/
def SillCfg.checked (c : SillCfg) (corner : BitVec 2) : SillCfg :=
  if c.per = 0 then c else
  let tc := sillTc corner
  let (a, b) := sillHalve tc c.per.toNat 16 (min c.ovsSh.toNat 6) (min c.ovsAux.toNat 6)
  let need := (sillBound tc a b + 9) / 10
  let per := if sillBound tc a b ≤ c.per.toNat * 10 then c.per else satOf 16 need
  let rmin := if c.rmin.toNat > c.rmax.toNat then c.rmax else c.rmin
  { c with ovsSh := BitVec.ofNat 3 a, ovsAux := BitVec.ofNat 3 b, per := per, rmin := rmin,
           bad := c.bad || c.aux.any (fun ch => decide (ch.toNat > 9)) || decide (c.rmin.toNat > c.rmax.toNat) ||
             per != c.per || a != c.ovsSh.toNat || b != c.ovsAux.toNat }

/-- A section is loaded and instants can be taken (R173). -/
def Sill.present (x : Sill) : Bool := x.cfg.per != 0

/-- The main-domain part at its start: the image's settings, an empty queue, count 0, range RMAX (R494, R496, R507). -/
def Sill.restart (x : Sill) : Sill :=
  { Sill.reset with
    cfg := x.cfg, run := x.cfg.run, auto := x.cfg.auto, rangeCtl := x.cfg.range, range := x.cfg.rmax, lastRange := x.cfg.rmax,
    auxT := vgen 8 fun i => fieldAt 16 0 (x.cfg.aux.getD i 0)
    sat := x.sat, fault := x.fault, mv := x.mv, qin := x.qin, qout := x.qout, qinHiCap := x.qinHiCap, qoutHiCap := x.qoutHiCap }

/-- The Sill as a cold start or a SEALED wake loads it: totals 0, faults cleared. -/
def Sill.load (c : SillCfg) : Sill := { (Sill.restart { Sill.reset with cfg := c }) with cfgBad := c.bad }

/-- A wake from LATCHED: the next shunt sample is RESUME and SETTLE (R507). -/
def Sill.thaw (x : Sill) : Sill := { x with resume := true }

/-! ### Thresholds (R501, R502) -/

/-- The values a sample stands for, from `inf` to `sup`, over a common denominator. -/
structure SampleRange where
  inf : Int
  sup : Int
  den : Int

def clampInt (lo hi x : Int) : Int := if x < lo then lo else if x > hi then hi else x

/-- A code of SH in range r expressed in range t, saturated to the signed 16-bit range (R501). -/
def shScale (c : Int) (r t : Nat) : SampleRange :=
  if r ≥ t then
    let v := clampInt (-32768) 32767 (c * 4 ^ (r - t))
    { inf := v, sup := v, den := 1 }
  else { inf := c, sup := c, den := 4 ^ (t - r) }

/-- A CLIP sample stands for every value past its limit in its sign (R502). -/
def shClipRange (x : SampleRange) (positive : Bool) : SampleRange :=
  if positive then { x with sup := 32767 * x.den } else { x with inf := -32768 * x.den }

/-- Every value of the sample is beyond, or back. -/
def thrBeyond (above : Bool) (level : Int) (x : SampleRange) : Bool :=
  if above then decide (x.inf ≥ level * x.den) else decide (x.sup ≤ level * x.den)

def thrBack (above : Bool) (level hyst : Int) (x : SampleRange) : Bool :=
  if above then decide (x.sup < (level - hyst) * x.den) else decide (x.inf > (level + hyst) * x.den)

/-- A threshold after a sample of its channel. A CLIP sample that is neither counts nor breaks a run. -/
def thrStep (c : ThrCfg) (signed clip : Bool) (x : SampleRange) (t : Thr) : Thr :=
  let level : Int := if signed then c.level.toInt else c.level.toNat
  let n := c.count.toNat + 1
  if thrBeyond c.above level x then
    { t with back := 0, beyond := t.beyond + 1, on := t.on || decide (t.beyond + 1 ≥ n) }
  else if thrBack c.above level c.hyst.toNat x then
    { t with beyond := 0, back := t.back + 1, on := t.on && decide (t.back + 1 < n) }
  else if clip then t
  else { t with beyond := 0, back := 0 }

/-- Every threshold of a channel after its sample; `x` gives the values in a threshold's own terms. -/
def thrAll (ch : BitVec 4) (signed clip : Bool) (x : ThrCfg → SampleRange) (s : Sill) : Sill :=
  { s with thr := vgen 8 fun i =>
      let c := vat ThrCfg.off s.cfg.thr i
      let t := vat { on := false, beyond := 0, back := 0 } s.thr i
      if c.ch = some ch then thrStep c signed clip (x c) t else t }

def thrClear (s : Sill) : Sill := { s with thr := Vector.replicate 8 { on := false, beyond := 0, back := 0 } }

/-- A plain sample of one value. -/
def plainSample (v : Int) (_ : ThrCfg) : SampleRange := { inf := v, sup := v, den := 1 }

/-! ### Samples -/

/-- A mean rounded to the nearest code; a tie goes to either neighbour, which the spec leaves open (R488). -/
def roundMean (l : List Int) : Int :=
  let n : Int := l.length
  let sum := l.sum
  if n = 0 then 0
  else if 2 * (sum % n) < n then sum / n
  else if 2 * (sum % n) > n then sum / n + 1
  else divOpen sum l.length

/-- A shunt entry enters the queue, or is lost (R495). -/
def shPush (code tag : Word) (x : Sill) : Sill :=
  if x.queue.length ≥ 64 then { x with lost := satInc x.lost, ovf := true } else { x with queue := x.queue ++ [(code, tag)] }

/-- A tag (R493). -/
def shTag (range : BitVec 3) (settle clip miss resume : Bool) (seq : BitVec 32) : Word :=
  fieldAt 16 0 range ||| bitAt 16 3 settle ||| bitAt 16 4 clip ||| bitAt 16 5 miss ||| bitAt 16 6 resume |||
  fieldAt 16 7 (seq.setWidth 9)

/-- The range of the next sample after a sample in range r (R496). -/
def autorange (miss clip settle : Bool) (code : Int) (x : Sill) : Sill :=
  if !x.auto then x
  else if miss then { x with low := 0 }
  else if clip then
    if x.range.toNat < x.cfg.rmax.toNat then { x with low := 0, range := x.cfg.rmax, settle := true, swcnt := satInc x.swcnt }
    else { x with low := 0 }
  else if !settle && decide (code.natAbs < 4096) then
    if x.low + 1 = 8 && decide (x.range.toNat > x.cfg.rmin.toNat) then
      { x with low := 0, range := x.range - 1, settle := true, swcnt := satInc x.swcnt }
    else { x with low := x.low + 1 }
  else { x with low := 0 }

/-- The range a fixed setting names: 6 and 7 stand for RMAX (R498). -/
def fixedRange (x : Sill) : BitVec 3 := if x.rangeCtl.toNat ≥ 6 then x.cfg.rmax else x.rangeCtl

/-- The next auxiliary entry at or after n that names a channel; entries of reserved codes are skipped (R499). -/
def auxFrom (l : List (BitVec 4)) (n : Nat) : Option Nat :=
  let k := l.length
  ((List.range k).map fun i => (n + i) % k).find? fun i => decide ((l.getD i 0).toNat ≤ 9)

/-- An instant that is not taken (R490). -/
def sillMiss (x : Sill) : Sill :=
  let x := { x with misscnt := satInc x.misscnt, miss := true }
  if x.cfg.shOn then autorange true false false 0 { (shPush 0 (shTag x.range false false true false x.seq) x) with seq := x.seq + 1 } else x

/-- An instant that starts a burst (R488, R494, R498). -/
def sillStart (tick : BitVec 48) (sub : BitVec 10) (x : Sill) : Sill :=
  let range := if x.auto then x.range else fixedRange x
  let x := if range = x.range then x else { x with range := range, swcnt := satInc x.swcnt, settle := true }
  let a := auxFrom x.cfg.aux x.auxNext
  let b : SillBurst := { range := range, seq := x.seq, settle := x.settle || x.resume, resume := x.resume, shunt := x.cfg.shOn,
                         aux := a, temp := x.tempDue }
  let x := { x with burst := some b, tempDue := false, auxNext := match a with
    | some i => (i + 1) % x.cfg.aux.length
    | none => x.auxNext }
  if x.cfg.shOn then
    let x := if x.resume then { x with rseq := x.seq, rtick := tick.setWidth 32, rsub := sub } else x
    { x with seq := x.seq + 1, resume := false, settle := false }
  else x

/-- Instants are being taken (R494, R500). -/
def Sill.instants (x : Sill) : Bool := x.present && x.run

/-- SILL_SAMPLE_INSTANT (R488, R490). -/
def execSillSampleInstant (sub : BitVec 10) (s : State) : Host.Outcome State Fault Refusal :=
  .next <|
    let s := s.atSub sub
    if s.awake && s.sill.instants then
      if s.sill.burst.isSome then { s with sill := sillMiss s.sill } else { s with sill := sillStart s.crs.tick sub s.sill }
    else s

/-- The shunt sample of a burst lands (R491 to R496, R502). `clip`: a conversion reached the positive or the negative limit. -/
def shLand (b : SillBurst) (conv : List Word) (clip : Option Bool) (cmBad : Bool) (x : Sill) : Sill :=
  let pos := if cmBad then true else clip.getD true
  let isClip := cmBad || clip.isSome
  let v : Int := if isClip then (if pos then 32767 else -32768) else roundMean (conv.map BitVec.toInt)
  let code := BitVec.ofInt 16 v
  let x := shPush code (shTag b.range b.settle isClip false b.resume b.seq) { x with cm := x.cm || cmBad, lastRange := b.range }
  let x := autorange false isClip b.settle v x
  thrAll 0xF true isClip (fun c =>
    let r := shScale v b.range.toNat c.trange.toNat
    if isClip then shClipRange r pos else r) x

/-- The auxiliary sample of a burst lands (R499). -/
def auxLand (n : Nat) (conv : List Word) (x : Sill) : Sill :=
  let ch := x.cfg.aux.getD n 0
  let signed := ch == 9
  let v := roundMean (conv.map fun (w : Word) => if signed then w.toInt else (w.toNat : Int))
  let x := { x with aux := x.aux.set! n (BitVec.ofInt 16 v), auxCnt := x.auxCnt.set! n (vat 0 x.auxCnt n + 1) }
  thrAll ch signed false (plainSample v) x

/-- A TEMP conversion lands (R500). -/
def tempLand (t : Word) (x : Sill) : Sill :=
  thrAll 9 true false (plainSample t.toInt) { x with temp := t, tempValid := true }

/-- SILL_BURST_LAND (R488 to R502). -/
def execSillBurstLand (sh : List (BitVec 16)) (shClip : Option Bool) (cmBad : Bool) (aux : List (BitVec 16))
    (temp : Option (BitVec 16)) (s : State) : Host.Outcome State Fault Refusal :=
  .next <|
    match s.sill.burst with
    | some b =>
      if s.mainOn then
        let x := { s.sill with burst := none }
        let x := if b.shunt then shLand b sh shClip cmBad x else x
        let x := match b.aux with
          | some n => auxLand n aux x
          | none => x
        let x := if b.temp then tempLand (temp.getD x.temp) x else x
        let x := if x.run then x else thrClear x
        emit [] { s with sill := x }
      else s
    | none => s

/-- SILL_TEMP_LAND (R500): while no instants are taken, TEMP is converted alone once a tick. -/
def execSillTempLand (t : BitVec 16) (s : State) : Host.Outcome State Fault Refusal :=
  .next <|
    if s.mainOn && s.sill.tempDue && !s.sill.instants then emit [] { s with sill := tempLand t { s.sill with tempDue := false } } else s

/-! ### Registers io:0x400 to 0x435 -/

/-- A read of SILL_SH_DATA (R495): the code, and the state with the tag captured. -/
def shPop (x : Sill) : Word × Sill :=
  match x.queue with
  | [] => (0, { x with tagCap := 7 })
  | (c, t) :: r => (c, { x with queue := r, tagCap := t })

/-- SILL_SHUNT_POP. -/
def execSillShuntPop (s : State) : Host.Outcome State Fault Refusal :=
  .next <| ({ s with sill := (shPop s.sill).2 }).reply (.word (shPop s.sill).1)

/-- A write of SILL_CTL (R494, R498, R502). -/
def sillCtl (v : Word) (x : Sill) : Sill :=
  let run := v.getLsbD 0
  let auto := v.getLsbD 1
  let range : BitVec 3 := (v >>> 2).setWidth 3
  let x := { x with settle := x.settle || auto != x.auto || range != x.rangeCtl, resume := x.resume || (run != x.run),
                    run := run, auto := auto, rangeCtl := range }
  if run then x else thrClear x

/-- The core that owns SILL_CTL, if the SILL section names one. -/
def sillOwner (s : State) : Option CoreId :=
  if s.sill.cfg.owner = 1 then some .a else if s.sill.cfg.owner = 2 then some .b else none

/-- SILL_CTL_WRITE. -/
def execSillCtlWrite (who : Who) (v : BitVec 16) (s : State) : Host.Outcome State Fault Refusal :=
  .next <| if sillOwner s = some (s.actsAs who) then emit [] { s with sill := sillCtl v s.sill } else s

/-- A read of SILL_AUXn captures SILL_AUXTn (R499). -/
def auxCapture (n : Nat) (x : Sill) : Sill :=
  { x with auxT := x.auxT.set! n (fieldAt 16 0 (x.cfg.aux.getD n 0) ||| fieldAt 16 4 (vat 0 x.auxCnt n)) }

/-- SILL_AUX_CAPTURE. -/
def execSillAuxCapture (n : BitVec 3) (s : State) : Host.Outcome State Fault Refusal :=
  .next <| ({ s with sill := auxCapture n.toNat s.sill }).reply (.word (vat 0 s.sill.aux n.toNat))

def rseqCapture (x : Sill) : Sill := { x with rseqHiCap := (x.rseq >>> 16).setWidth 16 }
def rtickCapture (x : Sill) : Sill := { x with rtickHiCap := (x.rtick >>> 16).setWidth 16, rsubCap := x.rsub }

/-- SILL_RESUME_CAPTURE (R494): a read of RSEQ_LO, or with `hi` of RTICK_LO. -/
def execSillResumeCapture (hi : Bool) (s : State) : Host.Outcome State Fault Refusal :=
  .next <|
    if hi then ({ s with sill := rtickCapture s.sill }).reply (.word (s.sill.rtick.setWidth 16))
    else ({ s with sill := rseqCapture s.sill }).reply (.word (s.sill.rseq.setWidth 16))

def qinCapture (x : Sill) : Sill := { x with qinHiCap := (x.qin >>> 16).setWidth 16 }
def qoutCapture (x : Sill) : Sill := { x with qoutHiCap := (x.qout >>> 16).setWidth 16 }

/-- STORE_CHARGE_CAPTURE (R504): a read of QIN_LO, or with `hi` of QOUT_LO. -/
def execStoreChargeCapture (hi : Bool) (s : State) : Host.Outcome State Fault Refusal :=
  .next <|
    if hi then ({ s with sill := qoutCapture s.sill }).reply (.word (s.sill.qout.setWidth 16))
    else ({ s with sill := qinCapture s.sill }).reply (.word (s.sill.qin.setWidth 16))

def sillVal (a : Nat) (s : State) : Option Word :=
  let x := s.sill
  if a = 0x400 then some (bitAt 16 0 x.cfgBad ||| bitAt 16 1 x.ovf ||| bitAt 16 2 x.cm ||| bitAt 16 3 x.miss)
  else if a = 0x401 then some (bitAt 16 0 x.run ||| bitAt 16 1 x.auto ||| fieldAt 16 2 x.rangeCtl)
  else if a = 0x402 then some (shPop x).1
  else if a = 0x403 then some x.tagCap
  else if a = 0x404 then some (BitVec.ofNat 16 x.queue.length)
  else if a = 0x405 then some x.lost
  else if a = 0x406 then some (x.rseq.setWidth 16)
  else if a = 0x407 then some x.rseqHiCap
  else if a = 0x408 then some (x.rtick.setWidth 16)
  else if a = 0x409 then some x.rtickHiCap
  else if a = 0x40A then some (x.rsubCap.setWidth 16)
  else if a = 0x40B then some (x.lastRange.setWidth 16)
  else if a = 0x40C then some x.swcnt
  else if a = 0x40D then some x.misscnt
  else if 0x410 ≤ a ∧ a < 0x418 then some (vat 0 x.aux (a - 0x410))
  else if 0x418 ≤ a ∧ a < 0x420 then some (vat 0 x.auxT (a - 0x418))
  else if a = 0x420 then some x.temp
  else if a = 0x421 then some ((List.range 8).foldl (fun w i => w ||| bitAt 16 i (vat { on := false, beyond := 0, back := 0 } x.thr i).on) 0)
  else if a = 0x424 then some x.cfg.per
  else if a = 0x425 then some (fieldAt 16 0 x.cfg.ovsSh ||| fieldAt 16 3 x.cfg.ovsAux ||| fieldAt 16 6 x.cfg.rmin |||
    fieldAt 16 9 x.cfg.rmax ||| (BitVec.ofNat 16 x.cfg.aux.length) <<< 12)
  else if a = 0x426 then some (bitAt 16 0 x.cfg.shOn)
  else if a = 0x427 then some (x.cfg.owner.setWidth 16)
  else if a = 0x428 ∨ a = 0x429 then some 0
  else if a = 0x430 then some (bitAt 16 0 x.sat ||| bitAt 16 1 x.fault)
  else if a = 0x431 then some x.mv
  else if a = 0x432 then some (x.qin.setWidth 16)
  else if a = 0x433 then some x.qinHiCap
  else if a = 0x434 then some (x.qout.setWidth 16)
  else if a = 0x435 then some x.qoutHiCap
  else none

def sillSide (a : Nat) (s : State) : State :=
  if a = 0x402 then { s with sill := (shPop s.sill).2 }
  else if a = 0x405 then { s with sill.lost := 0 }
  else if a = 0x406 then { s with sill := rseqCapture s.sill }
  else if a = 0x408 then { s with sill := rtickCapture s.sill }
  else if a = 0x40C then { s with sill.swcnt := 0 }
  else if a = 0x40D then { s with sill.misscnt := 0 }
  else if 0x410 ≤ a ∧ a < 0x418 then { s with sill := auxCapture (a - 0x410) s.sill }
  else if a = 0x432 then { s with sill := qinCapture s.sill }
  else if a = 0x434 then { s with sill := qoutCapture s.sill }
  else s

def sillPut (a : Nat) (v : Word) (s : State) : State :=
  if a = 0x400 then { s with sill.cfgBad := s.sill.cfgBad && !v.getLsbD 0, sill.ovf := s.sill.ovf && !v.getLsbD 1,
                             sill.cm := s.sill.cm && !v.getLsbD 2, sill.miss := s.sill.miss && !v.getLsbD 3 }
  else if a = 0x401 then { s with sill := sillCtl v s.sill }
  else s

end Machine
end Sys2Proof
end

