-- ==== Sys2Proof/Machine/Io.lean ====
section
/-!
DEFINITION. I/O space as a whole: which addresses are mapped, their values, what reading and writing them does, who owns them;
and the Tie's main lane (10_memory_map.md, R289 to R299; 00_scope.md, R17 to R20).
-/
namespace Sys2Proof
namespace Machine

/-! ### Blocks without a chapter of their own here -/

/-- Codes of a slot's STATE, as R180 has them less 1. -/
def SlotSt.code : SlotSt → BitVec 3
  | .empty => 0
  | .writing => 1
  | .staged => 2
  | .active => 3
  | .failed => 4
  | .standby => 5

def PortId.code : PortId → BitVec 2
  | .s => 0
  | .q => 1
  | .u => 2

def Store.slot (x : Store) (n : Bool) : Slot := if n then x.slot1 else x.slot0

def slotWrites (x : Slot) : Word := x.writes.getD 0xFFFF

/-- io:0x000 to 0x00B. -/
def imgVal (a : Nat) (s : State) : Option Word :=
  let x := s.img
  if a = 0x000 then some (bitAt 16 0 (x.active.getD false) ||| bitAt 16 1 x.fallback ||| bitAt 16 2 x.swapped ||| fieldAt 16 3 x.failReason |||
    bitAt 16 6 x.failSlot ||| bitAt 16 7 x.selfSigned ||| bitAt 16 8 x.enc)
  else if a = 0x001 then some (match x.active with
    | some n => (x.slot n).seq.setWidth 16
    | none => 0)
  else if a < 0x006 then some ((x.build >>> (16 * (a - 2))).setWidth 16)
  else if a = 0x006 then some (x.secVer.setWidth 16)
  else if a = 0x007 then some ((x.secVer >>> 16).setWidth 16)
  else if a = 0x008 then some (fieldAt 16 0 x.slot0.st.code ||| fieldAt 16 3 x.slot1.st.code |||
    bitAt 16 6 (x.slot0.st == .staged || x.slot1.st == .staged) ||| bitAt 16 7 x.sess.isSome |||
    fieldAt 16 8 (match x.sess with
      | some e => PortId.code e.port
      | none => 0))
  else if a = 0x009 then some (slotWrites x.slot0)
  else if a = 0x00A then some (slotWrites x.slot1)
  else if a = 0x00B then some (x.updPorts.setWidth 16)
  else none

/-- SNAP_FLT of a core (R304). -/
def SnapFlt.word (f : SnapFlt) : Word :=
  fieldAt 16 0 f.index ||| fieldAt 16 4 f.reason ||| bitAt 16 7 f.set ||| fieldAt 16 8 f.unit ||| fieldAt 16 12 f.kind

def LateFault.word0 (f : LateFault) : Word := fieldAt 16 0 f.addr ||| fieldAt 16 12 f.outcome ||| bitAt 16 15 f.bitw
def LateFault.word2 (f : LateFault) : Word := fieldAt 16 0 f.stamp ||| fieldAt 16 14 f.who

/-- io:0x029 to 0x02D and 0x038 to 0x03E, with the windows' selectors. -/
def memVal (a : Nat) (s : State) : Option Word :=
  let m := s.mem
  if a = 0x029 then some m.snapA.word
  else if a = 0x02A then some m.snapA.addr
  else if a = 0x02B then some m.snapB.word
  else if a = 0x02C then some m.snapB.addr
  else if a = 0x02D then some s.tie.kfail
  else if a = 0x038 then some (bitAt 16 0 m.ce ||| bitAt 16 1 m.ue ||| fieldAt 16 2 m.ueSrc)
  else if a = 0x039 then some m.eccAddr
  else if a = 0x03A then some m.ceCnt
  else if a = 0x03B then some (BitVec.ofNat 16 s.tie.lf.length ||| bitAt 16 4 s.tie.lost ||| bitAt 16 5 (!s.tie.post.isEmpty))
  else if a = 0x03C then some ((s.tie.lf.head?.map LateFault.word0).getD 0)
  else if a = 0x03D then some ((s.tie.lf.head?.map (·.data)).getD 0)
  else if a = 0x03E then some ((s.tie.lf.head?.map LateFault.word2).getD 0)
  else if a = 0x180 then some (m.ashWinA.setWidth 16)
  else if a = 0x181 then some (m.ashWinB.setWidth 16)
  else if a = 0x200 then some (m.vaultWinA.setWidth 16)
  else if a = 0x201 then some (m.vaultWinB.setWidth 16)
  else none

/-- A read of TIE_LF2 removes the oldest entry (R298). -/
def tieLfPop (s : State) : State := { s with tie.lf := s.tie.lf.drop 1 }

/-- TIE_LATE_FAULT_POP. -/
def execTieLateFaultPop (s : State) : Host.Outcome State Fault Refusal :=
  .next ((tieLfPop s).reply (.word ((memVal 0x03E s).getD 0)))

def memSide (a : Nat) (s : State) : State :=
  if a = 0x02D then { s with tie.kfail := 0 }
  else if a = 0x03A then { s with mem.ceCnt := 0 }
  else if a = 0x03E then tieLfPop s
  else s

def SnapFlt.put (f : SnapFlt) (v : Word) : SnapFlt := { f with set := f.set && !v.getLsbD 7 }

def memPut (a : Nat) (v : Word) (s : State) : State :=
  if a = 0x029 then { s with mem.snapA := s.mem.snapA.put v }
  else if a = 0x02B then { s with mem.snapB := s.mem.snapB.put v }
  else if a = 0x038 then { s with mem.ce := s.mem.ce && !v.getLsbD 0, mem.ue := s.mem.ue && !v.getLsbD 1 }
  else if a = 0x03B then { s with tie.lost := s.tie.lost && !v.getLsbD 4 }
  else if a = 0x180 then { s with mem.ashWinA := v.setWidth 2 }
  else if a = 0x181 then { s with mem.ashWinB := v.setWidth 2 }
  else if a = 0x200 then { s with mem.vaultWinA := v.setWidth 10 }
  else if a = 0x201 then { s with mem.vaultWinB := v.setWidth 10 }
  else s

/-- AU_CFG, AU_STAT, AU_ABN of a core by offset (09_arithmetic_unit.md). -/
def auVal (u : Au) (o : Nat) : Option Word :=
  if o = 0 then some (fieldAt 16 0 u.rm ||| bitAt 16 2 u.ftz)
  else if o = 1 then some (bitAt 16 0 (u.flight.any (·.iter)) ||| bitAt 16 1 u.idz ||| bitAt 16 2 u.iov ||| bitAt 16 3 u.abn)
  else if o = 2 then some u.abnCnt
  else none

def auSide (u : Au) (o : Nat) : Au := if o = 2 then { u with abnCnt := 0 } else u

def auPut (u : Au) (o : Nat) (v : Word) : Au :=
  if o = 0 then { u with rm := v.setWidth 2 }
  else if o = 1 then { u with idz := u.idz && !v.getLsbD 1, iov := u.iov && !v.getLsbD 2, abn := u.abn && !v.getLsbD 3 }
  else u

/-! ### The map (R208, R289, R290) -/

/-- Addresses of the Derzor side. -/
def derzorRange (a : Nat) : Bool := (0x040 ≤ a && decide (a < 0x074)) || (0x380 ≤ a && decide (a < 0x400))

/-- What a read of an address returns, for the core it is made as: `none` where no block maps it. -/
def ioVal (c : CoreId) (a : Nat) (s : State) : Option Word :=
  if a < 0x010 then imgVal a s
  else if a < 0x029 then courseVal a s
  else if a < 0x030 then memVal a s
  else if a < 0x038 then coreVal c (s.core c) a
  else if a < 0x040 then memVal a s
  else if a < 0x060 then porterVal a s
  else if a < 0x070 then energyVal a s
  else if a < 0x074 then porterVal a s
  else if a < 0x080 then powerVal a s
  else if a < 0x100 then pinVal a s
  else if a < 0x180 then mortarVal a s
  else if a < 0x182 then memVal a s
  else if a < 0x200 then ashVal a s
  else if a < 0x202 then memVal a s
  else if a < 0x280 then vaultVal a s
  else if a < 0x2B0 then portVal a s
  else if a < 0x300 then pcVal a s
  else if a < 0x380 then touchVal a s
  else if a < 0x400 then paneVal a s
  else if a < 0x440 then sillVal a s
  else if a < 0x460 then rtcVal a s
  else if a < 0x480 then secVal a s
  else if a < 0x488 then auVal s.coreA.au (a - 0x480)
  else if a < 0x4C0 then auVal s.coreB.au (a - 0x488)
  else none

def ioMapped (a : Nat) (s : State) : Bool := (ioVal .a a s).isSome

/-- What a read does besides (R17): RC fields clear, captures are taken. -/
def ioSide (c : CoreId) (a : Nat) (s : State) : State :=
  if a < 0x010 then s
  else if a < 0x029 then courseSide a s
  else if a < 0x030 then memSide a s
  else if a < 0x038 then s.setCore c (coreSide (s.core c) a)
  else if a < 0x040 then memSide a s
  else if a < 0x060 then porterSide a s
  else if a < 0x070 then energySide a s
  else if a < 0x074 then porterSide a s
  else if a < 0x080 then powerSide a s
  else if a < 0x180 then s
  else if a < 0x182 then s
  else if a < 0x200 then ashSide a s
  else if a < 0x280 then vaultSide a s
  else if a < 0x2B0 then portSide a s
  else if a < 0x300 then pcSide a s
  else if a < 0x380 then touchSide a s
  else if a < 0x400 then paneSide a s
  else if a < 0x440 then sillSide a s
  else if a < 0x460 then rtcSide a s
  else if a < 0x480 then secSide a s
  else if a < 0x488 then s.setCore .a { s.coreA with au := auSide s.coreA.au (a - 0x480) }
  else if a < 0x4C0 then s.setCore .b { s.coreB with au := auSide s.coreB.au (a - 0x488) }
  else s

/-- RST_CTL (R129). -/
def resetPut (v : Word) (s : State) : State := if v = 0x5EA1 then warmReset 4 s else s

/-- A whole word written, field by field under the access codes (R17, R18). -/
def ioPut (who : Who) (a : Nat) (v : Word) (s : State) : State :=
  let c := s.actsAs who
  if a < 0x010 then s
  else if a < 0x029 then coursePut a v s
  else if a < 0x030 then memPut a v s
  else if a < 0x038 then s.setCore c (corePut (s.core c) a v)
  else if a < 0x040 then memPut a v s
  else if a < 0x060 then porterPut a v s
  else if a < 0x070 then energyPut a v s
  else if a < 0x074 then porterPut a v s
  else if a = 0x07E then resetPut v s
  else if a < 0x080 then powerPut a v s
  else if a < 0x100 then pinPut a v c s
  else if a < 0x180 then mortarPut a v s
  else if a < 0x182 then memPut a v s
  else if a < 0x200 then ashPut a v s
  else if a < 0x202 then memPut a v s
  else if a < 0x280 then vaultPut a v s
  else if a < 0x2B0 then portPut a v s
  else if a < 0x300 then pcPut a v s
  else if a < 0x380 then touchPut a v s
  else if a < 0x400 then orReject a v who s (panePut a v s)
  else if a < 0x440 then sillPut a v s
  else if a < 0x460 then rtcPut a v s
  else if a < 0x480 then secPut a v s
  else if a < 0x488 then s.setCore .a { s.coreA with au := auPut s.coreA.au (a - 0x480) v }
  else if a < 0x4C0 then s.setCore .b { s.coreB with au := auPut s.coreB.au (a - 0x488) v }
  else s

/-! ### Single bits (R209) -/

def inR (lo hi a : Nat) : Bool := decide (lo ≤ a) && decide (a ≤ hi)

/-- The bits of a word that are RW fields: what a write of one bit leaves as it stands. -/
def rwMask (a : Nat) : Word :=
  if a = 0x067 then 0x0003
  else if a = 0x075 then 0x001F
  else if a = 0x076 then 0x0FFF
  else if inR 0x080 0x082 a || inR 0x088 0x08A a || inR 0x104 0x107 a || inR 0x182 0x187 a || inR 0x192 0x197 a then 0xFFFF
  else if a = 0x180 ∨ a = 0x181 then 0x0003
  else if a = 0x188 ∨ a = 0x198 then 0x01FF
  else if a = 0x200 ∨ a = 0x201 then 0x03FF
  else if a = 0x208 ∨ a = 0x210 then 0xFFFF
  else if a = 0x209 ∨ a = 0x211 then 0x0F7F
  else if a = 0x2B6 then 0x0001
  else if a = 0x2BA then 0x01FF
  else if inR 0x2C4 0x2D3 a then 0x047F
  else if a = 0x301 then 0x0001
  else if a = 0x340 then 0x03FF
  else if a = 0x386 then 0x0003
  else if inR 0x388 0x38B a then 0x00FF
  else if inR 0x3C0 0x3FF a then 0xFFFF
  else if a = 0x401 then 0x001F
  else if inR 0x445 0x449 a || inR 0x44B 0x44F a || inR 0x458 0x45F a then 0xFFFF
  else if a = 0x44A then 0x0002
  else if a = 0x46C ∨ a = 0x472 then 0x0007
  else if inR 0x46D 0x470 a || inR 0x473 0x476 a then 0xFFFF
  else if a = 0x480 ∨ a = 0x488 then 0x0003
  else 0

/-- The word write that writing b to bit n of an address amounts to: RW fields as they stand, no other bit written 1. -/
def bitWord (c : CoreId) (a : Nat) (n : BitVec 4) (b : Bool) (s : State) : Word :=
  setBit ((ioVal c a s).getD 0 &&& rwMask a) n.toNat b

/-! ### Ownership (R227, R587) and trust (R529) -/

/-- The block registers marked as owned: `some o` with the core that owns them, if any. -/
def ioOwned (a : Nat) (s : State) : Option (Option CoreId) :=
  if a = 0x029 ∨ a = 0x02A ∨ a = 0x180 ∨ a = 0x200 ∨ a = 0x480 ∨ a = 0x481 then some (some .a)
  else if a = 0x02B ∨ a = 0x02C ∨ a = 0x181 ∨ a = 0x201 ∨ a = 0x488 ∨ a = 0x489 then some (some .b)
  else if inR 0x182 0x1FF a then (ashOwner a).map some
  else if inR 0x202 0x27F a then (appendOwner a).map some
  else if inR 0x280 0x2AF a then portOwned a s
  else if inR 0x2B0 0x2FF a then pcOwnedReg a s
  else if a = 0x301 then some (some (touchOwner s))
  else if a = 0x381 ∨ a = 0x386 || inR 0x388 0x38B a || inR 0x3C0 0x3FF a then some (some (paneOwner s))
  else if a = 0x401 then some (sillOwner s)
  else if inR 0x46C 0x471 a then some (some .a)
  else if inR 0x472 0x477 a then some (some .b)
  else none

/-- A core's write is against R227. -/
def ioForeign (c : CoreId) (a : Nat) (s : State) : Bool :=
  match ioOwned a s with
  | some o => o != some c
  | none => false

/-- The group of an output word, and of an enable word. -/
def outGroup (a : Nat) : Option Nat := if inR 0x080 0x082 a then some (a - 0x080) else none
def oeGroup (a : Nat) : Option Nat := if inR 0x088 0x08A a then some (a - 0x088) else none

/-- What TRUST forbids a writer of a whole word, by DETAIL (R529, R530). -/
def ioTrust (who : Who) (a : Nat) (v : Word) (s : State) : Option (BitVec 4) :=
  match outGroup a with
  | some g => if trustBlocks s who g (groupGet s.pin.out g) v then some 1 else none
  | none =>
    match oeGroup a with
    | some g => if trustBlocks s who g (groupGet s.pin.oe g) v then some 2 else none
    | none => none

/-- REGISTER_WRITE (R17, R18): at the register itself, for the core that may make it. -/
def execRegisterWrite (who : Who) (a : BitVec 12) (v : BitVec 16) (s : State) : Host.Outcome State Fault Refusal :=
  .next <|
    let n := a.toNat
    if s.awake && ioMapped n s && !ioForeign (s.actsAs who) n s && (ioTrust who n v s).isNone then emit [] (ioPut who n v s) else s

/-! ### The main lane (R295 to R298) -/

/-- The late-fault entry of a posted write. -/
def Posted.fault (p : Posted) (outcome : BitVec 3) (tick : BitVec 48) : LateFault :=
  { addr := p.addr, outcome := outcome
    bitw := (match p.data with
      | .word _ => false
      | .bit _ _ => true)
    data := (match p.data with
      | .word v => v
      | .bit n b => n.setWidth 16 ||| bitAt 16 4 b)
    stamp := tick.setWidth 14, who := p.who.code }

/-- A Derzor-side write is posted, or ends FULL at once (R297). -/
def tiePost (p : Posted) (s : State) : State :=
  if s.tie.post.length ≥ 8 then s.lateFault (p.fault 0 s.crs.tick) else { s with tie.post := s.tie.post ++ [p] }

/-- The word that a posted write puts on the lane: a bit write leaves the RW fields beside it as they stand. -/
def postedWord (p : Posted) (s : State) : Word :=
  match p.data with
  | .word v => v
  | .bit n b => bitWord (s.actsAs p.who) p.addr.toNat n b s

/-- A posted write reaches its register, or is rejected there (R297). -/
def derzorWrite (p : Posted) (s : State) : State :=
  let a := p.addr.toNat
  let v := postedWord p s
  if a < 0x380 then ioPut p.who a v s
  else match panePut a v s with
    | some t => t
    | none => s.lateFault (p.fault 3 s.crs.tick)

/-- The access a core waits for has one posted write less ahead of it. -/
def Busy.advance : Busy → Busy
  | .read d a n => .read d a (n - 1)
  | .snap d l n => .snap d l (n - 1)

def Core.advance (k : Core) : Core := { k with busy := k.busy.map Busy.advance }

/-- The oldest posted write has ended. -/
def tieDone (s : State) : State :=
  { s with tie.post := s.tie.post.drop 1, coreA := s.coreA.advance, coreB := s.coreB.advance,
           hng.reading := s.hng.reading.map fun e => (e.1, e.2 - 1) }

/-- TIE_WRITE_DELIVER (R296, R297); `parity`: the transfer fails its check twice. -/
def execTieWriteDeliver (parity : Bool) (s : State) : Host.Outcome State Fault Refusal :=
  .next <|
    match s.tie.post with
    | p :: _ =>
      if s.mainOn then
        let s := tieDone s
        if parity then s.lateFault (p.fault 1 s.crs.tick) else emit [] (derzorWrite p s)
      else s
    | [] => s

/-- TIE_WRITE_TIMEOUT (R297): whether the write took effect is left open. -/
def execTieWriteTimeout (s : State) : Host.Outcome State Fault Refusal :=
  .next <|
    match s.tie.post with
    | p :: _ =>
      if s.mainOn then
        let took := Config.freeBit s.free
        let s := tieDone { s with free := s.free + 1 }
        let s := s.lateFault (p.fault 2 s.crs.tick)
        if took then emit [] (derzorWrite p s) else s
      else s
    | [] => s

/-- The late-fault entry of a failed read (R296). -/
def readFault (who : Who) (a : BitVec 12) (f : TieFail) (s : State) : State :=
  s.lateWord a.toNat (match f with
    | .parity => 4
    | .timeout => 5) 0 who

/-- A Derzor-side read ends: its value, or 0 with a late fault. The Hinge's leaves RC fields as they stand under NORC (R535). -/
def tieRead (who : Who) (a : BitVec 12) (fail : Option TieFail) (s : State) : Word × State :=
  match fail with
  | none => ((ioVal (s.actsAs who) a.toNat s).getD 0, if who = .hinge && s.hng.norc then s else emit [] (ioSide (s.actsAs who) a.toNat s))
  | some f => (0, readFault who a f s)

/-- The core whose read ends. -/
def coreReadEnd (c : CoreId) (fail : Option TieFail) (s : State) : State :=
  match (s.core c).busy with
  | some (.read d a 0) =>
    let (v, s) := tieRead c.who a fail s
    s.setCore c { s.core c with k := (s.core c).k.set d.toFin v, busy := none }.stepEnd
  | _ => s

/-- The Hinge's read ends: its result is held for the repeat (R533). -/
def hingeReadEnd (fail : Option TieFail) (s : State) : State :=
  match s.hng.reading with
  | some (a, 0) =>
    let (v, s) := tieRead .hinge (a.setWidth 12) fail s
    { s with hng.reading := none, hng.held := if s.hng.dropRead then none else some (a, v), hng.dropRead := false }
  | _ => s

/-- TIE_READ_COMPLETE (R296). -/
def execTieReadComplete (who : Who) (fail : Option TieFail) (s : State) : Host.Outcome State Fault Refusal :=
  .next <|
    if !s.mainOn then s
    else match who with
      | .coreA => coreReadEnd .a fail s
      | .coreB => coreReadEnd .b fail s
      | .hinge => hingeReadEnd fail s

end Machine
end Sys2Proof
end

