-- ==== Sys2Proof/Machine/Flags.lean ====
section
/-!
DEFINITION. Results and flags of the integer and logic instructions, and the tests of branches (R203, R238, R239, R245).
-/
namespace Sys2Proof
namespace Machine

/-- What an instruction leaves: its 16-bit result, C and V. -/
structure Res where
  val : Word
  c : Bool
  v : Bool
  deriving DecidableEq, Repr

/-- A bit as a number. -/
def b2n (b : Bool) : Nat := if b then 1 else 0

/-- a + b + c: carry out of bit 15, and signed overflow of the sum (R203, R239). -/
def addRes (a b : Word) (c : Bool) : Res :=
  let r := BitVec.ofNat 16 (a.toNat + b.toNat + b2n c)
  { val := r, c := decide (0x10000 ≤ a.toNat + b.toNat + b2n c), v := decide (r.toInt ≠ a.toInt + b.toInt + (b2n c : Int)) }

/-- a − b − br: C is 1 when there is no borrow, and signed overflow of the difference (R203, R239). -/
def subRes (a b : Word) (br : Bool) : Res :=
  let r := BitVec.ofNat 16 (a.toNat + 0x20000 - b.toNat - b2n br)
  { val := r, c := decide (b.toNat + b2n br ≤ a.toNat), v := decide (r.toInt ≠ a.toInt - b.toInt - (b2n br : Int)) }

/-- Shifts and rotates (R238): the register and the last bit shifted out, which stays as it was when the count is 0 (R239). -/
def shlRes (a : Word) (n : BitVec 4) (c : Bool) : Word × Bool :=
  (a <<< n.toNat, if n = 0 then c else a.getLsbD (16 - n.toNat))

def shrRes (a : Word) (n : BitVec 4) (c : Bool) : Word × Bool :=
  (a >>> n.toNat, if n = 0 then c else a.getLsbD (n.toNat - 1))

def sarRes (a : Word) (n : BitVec 4) (c : Bool) : Word × Bool :=
  (a.sshiftRight n.toNat, if n = 0 then c else a.getLsbD (n.toNat - 1))

def rolRes (a : Word) (n : BitVec 4) (c : Bool) : Word × Bool :=
  let r := a.rotateLeft n.toNat
  (r, if n = 0 then c else r.getLsbD 0)

/-- Z and N of a result (R203). -/
def Core.setZN (k : Core) (r : Word) : Core := { k with z := r == 0, n := r.msb }

/-- All four flags. -/
def Core.setFlags (k : Core) (r : Res) : Core := { k.setZN r.val with c := r.c, v := r.v }

/-- ST as a program reads it (R203). -/
def Core.stWord (k : Core) : Word := bitAt 16 0 k.z ||| bitAt 16 1 k.n ||| bitAt 16 2 k.c ||| bitAt 16 3 k.v

/-- ST as MTS S0 writes it (R255). -/
def Core.putSt (k : Core) (w : Word) : Core := { k with z := w.getLsbD 0, n := w.getLsbD 1, c := w.getLsbD 2, v := w.getLsbD 3 }

/-- The condition of a branch (R245). -/
def Core.holds (k : Core) : Cond → Bool
  | .eq => k.z
  | .ne => !k.z
  | .hs => k.c
  | .lo => !k.c
  | .mi => k.n
  | .pl => !k.n
  | .vs => k.v
  | .vc => !k.v
  | .hi => k.c && !k.z
  | .ls => !k.c || k.z
  | .ge => k.n == k.v
  | .lt => k.n != k.v
  | .gt => !k.z && k.n == k.v
  | .le => k.z || k.n != k.v
  | .al => true

end Machine
end Sys2Proof
end

