-- ==== Sys2Proof/Machine/Operands.lean ====
section
/-!
DEFINITION. Operands of core instructions: registers, immediates, addresses, special registers (R234 to R244, R255).
-/
namespace Sys2Proof
namespace Machine

/-- A general register read, and written. -/
def Core.reg (k : Core) (d : Reg) : Word := k.k.get d.toFin
def Core.put (k : Core) (d : Reg) (v : Word) : Core := { k with k := k.k.set d.toFin v }

/-- An 8-bit immediate or offset, and an 11-bit offset, sign-extended. -/
def sext8 (i : BitVec 8) : Word := i.signExtend 16
def sext11 (i : BitVec 11) : Word := i.signExtend 16

/-- The address of LD and ST, [Kb + 2u] (R240). -/
def Core.wordAt (k : Core) (b : Reg) (u : BitVec 4) : Word := k.reg b + 2 * u.setWidth 16
/-- The address of LDB and STB, [Kb + u]. -/
def Core.byteAt (k : Core) (b : Reg) (u : BitVec 4) : Word := k.reg b + u.setWidth 16
/-- The address of the displaced forms, [Kb + v]. -/
def Core.dispAt (k : Core) (b : Reg) (v : Word) : Word := k.reg b + v
/-- The I/O address that a register names (R243). -/
def Core.ioAt (k : Core) (s : Reg) : BitVec 12 := (k.reg s).setWidth 12

/-- The requester that a core is to the Porter (R74). -/
def coreReq : CoreId → Requester
  | .a => .coreA
  | .b => .coreB

/-- PG with its live bit (R226). -/
def pgWord (c : CoreId) (s : State) : Word :=
  fieldAt 16 0 (s.core c).pg ||| bitAt 16 8 (s.por.deferred.any fun d => d.req == coreReq c)

/-- A special register as MFS reads it (R255); 9 to 15 are undefined. -/
def specialVal (c : CoreId) (n : BitVec 4) (s : State) : Option Word :=
  let k := s.core c
  if n = 0 then some k.stWord
  else if n = 1 then some k.mh
  else if n = 2 then some k.ml
  else if n = 3 then some k.qt
  else if n = 4 then some k.rm
  else if n = 5 then some k.fr
  else if n = 6 then some (fieldAt 16 0 k.ff)
  else if n = 7 then some k.ev
  else if n = 8 then some (pgWord c s)
  else none

/-- A special register as MTS writes it (R255); MH and ML enter the accumulator's chain (R248). -/
def Core.putSpecial (k : Core) (n : BitVec 4) (v : Word) : Core :=
  if n = 0 then k.putSt v
  else if n = 1 then { k with mh := v, au := { k.au with acc := v ++ (k.au.acc.setWidth 16) } }
  else if n = 2 then { k with ml := v, au := { k.au with acc := ((k.au.acc >>> 16).setWidth 16 : Word) ++ v } }
  else if n = 6 then { k with ff := v.setWidth 5 }
  else k

end Machine
end Sys2Proof
end

