-- ==== Sys2Proof/Machine/Issue.lean ====
section
/-!
DEFINITION. How a core issues an instruction: results that have arrived land, the ranked checks, the delay slot, slots and
fetches counted (07_core_model.md, 08_instruction_set.md; R260 to R268).
-/
namespace Sys2Proof
namespace Machine

/-! ### Arithmetic results land (R261, R264, R265) -/

/-- One result reaches its registers, which never go back to an earlier-issued one's; its flags are ORed into FF in any case. -/
def landOne (k : Core) (r : AuRes) : Core :=
  let u := { k.au with idz := k.au.idz || r.idz, iov := k.au.iov || r.iov }
  let last := r.iter && (u.frIter.map (·.1)) == some r.seq
  let u := if last then { u with frIter := none, frHang := false, frLinks := [] } else u
  let k := { k with ff := k.ff ||| r.ff, au := u }
  match r.dst with
  | .ml v => if u.seqMl ≤ r.seq then { k with ml := v, au := { u with seqMl := r.seq } } else k
  | .mh v => if u.seqMh ≤ r.seq then { k with mh := v, au := { u with seqMh := r.seq } } else k
  | .acc v =>
    let k := if u.seqMl ≤ r.seq then { k with ml := v.setWidth 16, au := { u with seqMl := r.seq } } else k
    if u.seqMh ≤ r.seq then { k with mh := (v >>> 16).setWidth 16, au := { k.au with seqMh := r.seq } } else k
  | .qtrm q m => if u.seqQr ≤ r.seq then { k with qt := q, rm := m, au := { u with seqQr := r.seq } } else k
  | .fr v => if u.seqFr ≤ r.seq then { k with fr := v, au := { u with seqFr := r.seq } } else k
  | .flags z n c v => { k with z := z, n := n, c := c, v := v }

/-- The results whose latency is over land, in issue order. -/
def Core.landDue (k : Core) : Core :=
  let due := k.au.flight.filter fun r => r.left == 0
  due.foldl landOne { k with au := { k.au with flight := k.au.flight.filter fun r => r.left != 0 } }

/-- Every result in flight lands, soonest first (R256). -/
def Core.landAll (k : Core) : Core :=
  (List.range 16).foldl (fun k n =>
    (k.au.flight.filter fun r => r.left == n).foldl landOne { k with au := { k.au with flight := k.au.flight.filter fun r => r.left != n } }) k

/-- Slots that the core has spent (R257, R260). -/
def Core.spend (k : Core) (n : Nat) : Core :=
  { k with au := { k.au with flight := k.au.flight.map fun r => { r with left := r.left - n } } }

/-! ### Issue -/

/-- The core issues: the part is awake, the core runs and waits for no access (R213). -/
def issuing (c : CoreId) (s : State) : Bool := s.awake && (s.core c).st == .running && (s.core c).busy.isNone

/-- Words fetched: the instruction's, and one past a delay slot that is discarded (R217, R219). -/
def Core.fetched (k : Core) (words : Nat) (discarded : Bool) : Core :=
  { k with fcnt := k.fcnt + BitVec.ofNat 32 (words + b2n discarded) }

/-- A delay slot with an extension word moves the return address of its CALL (R216). -/
def Core.growReturn (k : Core) (words : Nat) : Core :=
  if k.call && k.xfer.isSome && words = 2 then { k with rs := k.rs.set (k.rsP + 7).val (k.rs.get (k.rsP + 7) + 1) (k.rsP + 7).isLt } else k

/-- A transfer before this instruction takes effect, and the counter moves on (R214). -/
def Core.advancePc (k : Core) (words : Nat) : Core :=
  let taken := match k.xfer with
    | some (some _) => true
    | _ => false
  { (k.growReturn words).fetched words taken with
    pc := match k.xfer with
      | some (some t) => t
      | _ => k.pc + BitVec.ofNat 16 words
    xfer := none, call := false }

/-- The instruction traps: one slot, and an empty one before the trap door (R228, R260). -/
def issueTrap (c : CoreId) (t : Trap) (words : Nat) (s : State) : State :=
  let k := s.core c
  s.setCore c ((((k.growReturn words).trap t words).fetched words k.xfer.isSome).spend 2).stepEnd

/-- What an instruction does: it traps, or leaves a state and adds slots to its words. -/
inductive Effect where
  | trap (t : Trap)
  | done (s : State) (extra : Nat)

/-- The checks that come before every other (R229): ILLEGAL, then FETCH on core B. -/
def issueCheck (c : CoreId) (words : Nat) (ill : Core → Option (BitVec 4)) (k : Core) : Option Trap :=
  match ill k with
  | some d => some (Trap.illegal d)
  | none =>
    if c.isB && 0x2000 ≤ k.pc.toNat then some (Trap.fetch k.pc)
    else if c.isB && words = 2 && k.pc = 0x1FFF then some (Trap.fetch 0x2000)
    else none

/-- An instruction issues. `body` gets the state with the program counter moved on. -/
def issue (c : CoreId) (words : Nat) (ill : Core → Option (BitVec 4)) (body : State → Effect) (s : State) : State :=
  if issuing c s then
    let s := s.setCore c (s.core c).landDue
    match issueCheck c words ill (s.core c) with
    | some t => issueTrap c t words s
    | none =>
      match body (s.setCore c ((s.core c).advancePc words)) with
      | .trap t => issueTrap c t words s
      | .done t extra => t.setCore c ((t.core c).spend (words + extra)).stepEnd
  else s

/-- Instructions that are legal everywhere. -/
def legal : Core → Option (BitVec 4) := fun _ => none

/-- Instructions that are illegal in a delay slot (R215). -/
def noSlot : Core → Option (BitVec 4) := fun k => if k.xfer.isSome then some 1 else none

/-- Special-register numbers 9 to 15 are undefined (R255). -/
def special (n : BitVec 4) : Core → Option (BitVec 4) := fun _ => if 9 ≤ n.toNat then some 0 else none

/-- An instruction that changes its core alone. -/
def onCore (c : CoreId) (f : Core → Core) (s : State) : Effect := .done (s.setCore c (f (s.core c))) 0

/-! ### Early reads under schedule check (R280) -/

/-- A result in flight that special register n receives. -/
def AuRes.aims (r : AuRes) (n : BitVec 4) : Bool :=
  match r.dst with
  | .ml _ => n == 2
  | .mh _ => n == 1
  | .acc _ => n == 1 || n == 2
  | .qtrm _ _ => n == 3 || n == 4
  | .fr _ => n == 5 || n == 6
  | .flags _ _ _ _ => n == 0 || n == 6

/-- A read of special register n before its result lands traps in schedule-check mode. -/
def early (c : CoreId) (n : BitVec 4) (f : State → Effect) (s : State) : Effect :=
  if (s.core c).sched && (s.core c).au.flight.any (fun r => r.aims n) then .trap (Trap.sched n) else f s

end Machine
end Sys2Proof
end

