-- ==== Sys2Proof/Machine/Data.lean ====
section
/-!
DEFINITION. Data and instruction space as a core reaches them, and the snapshot gather (10_memory_map.md, R282 to R305).
-/
namespace Sys2Proof
namespace Machine

/-! ### Data space (R282, R283) -/

/-- A byte access that R283 calls unmapped. -/
def dataUnmapped (write : Bool) (a : Nat) : Bool :=
  (inR 0xD000 0xDFFF a && decide (10 ≤ a % 16)) || (write && (inR 0xE000 0xEFFF a || (inR 0xF000 0xFFFF a && decide (a % 0x400 < 0x200))))

/-- An access to a mailbox that the core does not own (R227, R587). -/
def dataForeign (c : CoreId) (a : Nat) (s : State) : Bool :=
  inR 0xF000 0xFFFF a && mailboxOwner s ((a - 0xF000) / 0x400) != some c

/-- The page and byte that the Vault window shows (R292, R293). -/
def vaultWinByte (c : CoreId) (a : Nat) (s : State) : Byte :=
  let g := if c.isB then s.mem.vaultWinB else s.mem.vaultWinA
  pageByte s.vlt (BitVec.ofNat 14 (16 * g.toNat + (a - 0xE000) / 256)) (a % 256)

/-- A byte read by a reader with a core's windows. -/
def dataReadB (r : Reader) (c : CoreId) (a : Nat) (s : State) : Byte × State :=
  if inR 0xD000 0xDFFF a then slotRead (winEntry s c a) (a % 16) s
  else if inR 0xE000 0xEFFF a then (vaultWinByte c a s, s)
  else sramReadB r a s

/-- A word read at an even address. -/
def dataReadW (r : Reader) (c : CoreId) (a : Nat) (s : State) : Word × State :=
  if inR 0xD000 0xEFFF a then
    let (lo, s) := dataReadB r c a s
    let (hi, s) := dataReadB r c (a + 1) s
    (word2 lo hi, s)
  else sramRead r a s

/-- A write into an out half that holds a posted message or a service's reply is ignored (R394). -/
def outHeld (a : Nat) (s : State) : Bool :=
  let k := (a - 0xF000) / 0x400
  let p := if k = 0 then s.prt.s else if k = 1 then s.prt.q else s.prt.u
  inR 0xF000 0xFBFF a && (p.posted || p.svc)

/-- A byte stored. -/
def dataWriteB (r : Reader) (c : CoreId) (a : Nat) (v : Byte) (s : State) : State :=
  if inR 0xD000 0xDFFF a then stageWrite c (winEntry s c a) (a % 16) [v] s
  else if outHeld a s then s
  else sramWriteB r a v s

/-- A word stored at an even address. -/
def dataWriteW (c : CoreId) (a : Nat) (v : Word) (s : State) : State :=
  if inR 0xD000 0xDFFF a then stageWrite c (winEntry s c a) (a % 16) [loB v, hiB v] s
  else if outHeld a s then s
  else sramWrite a v s

/-! ### Instruction space (R179, R205) -/

/-- The word at i:n of the slot the part runs from. -/
def codeWord (s : State) (n : Word) : Word :=
  match s.img.active with
  | some k =>
    let m := (s.img.slot k).code
    word2 (Bytes.read 0xFF m (2 * n.toNat)) (Bytes.read 0xFF m (2 * n.toNat + 1))
  | none => 0xFFFF

/-! ### The snapshot gather (R300 to R304) -/

/-- An element descriptor (R300): KIND, units, whether a reserved bit is 1, ADDR. -/
structure SnapElem where
  kind : BitVec 2
  units : Nat
  bad : Bool
  addr : Nat
  deriving DecidableEq, Repr

def SnapElem.size (e : SnapElem) : Nat := if e.kind = 0 then e.units else 2 * e.units

/-- Address of a unit. -/
def SnapElem.at (e : SnapElem) (i : Nat) : Nat := if e.kind = 1 then e.addr + 2 * i else e.addr + i

/-- The last address a unit occupies. -/
def SnapElem.last (e : SnapElem) (i : Nat) : Nat := if e.kind = 1 then e.addr + 2 * i + 1 else e.addr + i

def SnapElem.top (e : SnapElem) : Nat := if e.kind = 2 then 0xFFF else 0xFFFF

def snapElem (b : List Byte) : SnapElem :=
  let b0 := b.getD 0 0
  { kind := b0.setWidth 2, units := (b0 >>> 4).toNat + 1, bad := ((b0 >>> 2).setWidth 2 : BitVec 2) != 0 || b.getD 1 0 != 0
    addr := ofLe (b.drop 2) }

/-- The first unit that meets a test. -/
def SnapElem.first (e : SnapElem) (f : Nat → Bool) : Option Nat := (List.range e.units).find? f

/-- A unit is unmapped (R283; R208 whatever IO_TRAP). -/
def SnapElem.unmapped (e : SnapElem) (s : State) (i : Nat) : Bool :=
  if e.kind = 0 then dataUnmapped false (e.at i)
  else if e.kind = 1 then dataUnmapped false (e.at i) || dataUnmapped false (e.at i + 1)
  else if e.kind = 2 then !ioMapped (e.at i) s
  else false

def SnapElem.foreign (e : SnapElem) (c : CoreId) (s : State) (i : Nat) : Bool :=
  (e.kind == 0 || e.kind == 1) && dataForeign c (e.at i) s

/-- The first check of R301 that an element meets: unit and reason. `got`: bytes captured so far. -/
def SnapElem.check (e : SnapElem) (c : CoreId) (got : Nat) (s : State) : Option (Nat × BitVec 3) :=
  if e.bad then some (0, 1)
  else if e.kind = 2 ∧ 0x1000 ≤ e.addr then some (0, 2)
  else match e.first fun i => decide (e.top < e.last i) with
    | some i => some (i, 2)
    | none =>
      if e.kind = 1 ∧ e.addr % 2 = 1 then some (0, 3)
      else if 224 < got + e.size then
        (e.first fun i => decide (224 < got + (if e.kind = 0 then i + 1 else 2 * (i + 1)))).map fun i => (i, 4)
      else match e.first (e.unmapped s) with
        | some i => some (i, 5)
        | none => (e.first (e.foreign c s)).map fun i => (i, 6)

/-- A unit read, with every side effect of LDB, LD, IN or LDP (R303). -/
def snapUnit (c : CoreId) (e : SnapElem) (i : Nat) (s : State) : List Byte × State :=
  let a := e.at i
  if e.kind = 0 then
    let (b, s) := dataReadB (.core c) c a s
    ([b], s)
  else
    let (w, s) := if e.kind = 1 then dataReadW (.core c) c a s
      else if e.kind = 2 then ((ioVal c a s).getD 0, ioSide c a s)
      else (codeWord s (BitVec.ofNat 16 a), s)
    ([loB w, hiB w], s)

/-- How a gather stands: bytes captured, elements captured, Derzor-side reads so far, whether an element faulted, and the slots
spent (R257). -/
structure Gather where
  bytes : List Byte
  valid : Nat
  tie : Nat
  bad : Bool
  slots : Nat
  deriving DecidableEq, Repr

def State.putSnapFlt (s : State) (c : CoreId) (f : SnapFlt) : State :=
  match c with
  | .a => { s with mem.snapA := f }
  | .b => { s with mem.snapB := f }

/-- An element faults (R304). -/
def snapFault (c : CoreId) (index : Nat) (e : SnapElem) (i : Nat) (reason : BitVec 3) (s : State) : State :=
  s.putSnapFlt c { index := BitVec.ofNat 4 index, reason := reason, set := true, unit := BitVec.ofNat 4 i, kind := e.kind,
                   addr := BitVec.ofNat 16 (e.at i) }

/-- Slots that reading a unit adds (R258). -/
def SnapElem.unitSlots (e : SnapElem) (i : Nat) : Nat :=
  let a := e.at i
  if e.kind = 3 then 1
  else if e.kind = 2 then (if derzorRange a then 10 else 0)
  else if inR 0xD000 0xDFFF a then 1
  else if inR 0xE000 0xEFFF a then 3
  else 0

/-- Slots of an element of which n units were read (R257). -/
def SnapElem.slots (e : SnapElem) (n : Nat) : Nat := 2 + ((List.range n).map e.unitSlots).foldl (· + ·) 0

/-- The units of an element in address order, up to the Derzor-side read that fails: bytes, reads made, the failing unit. -/
def snapUnits (c : CoreId) (e : SnapElem) (fail : Option Nat) : List Nat → Nat → State → List Byte × Nat × Option Nat × State
  | [], t, s => ([], t, none, s)
  | i :: l, t, s =>
    let far := e.kind == 2 && derzorRange (e.at i)
    if far && fail == some t then ([], t + 1, some i, s)
    else
      let (b, s) := snapUnit c e i s
      let (r, t, f, s) := snapUnits c e fail l (if far then t + 1 else t) s
      (b ++ r, t, f, s)

/-- The elements in list order, up to the first that faults (R302). -/
def snapElems (c : CoreId) (fail : Option Nat) : List SnapElem → Gather → State → Gather × State
  | [], g, s => (g, s)
  | e :: l, g, s =>
    match e.check c g.bytes.length s with
    | some (i, why) => ({ g with bad := true, slots := g.slots + 2 }, snapFault c g.valid e i why s)
    | none =>
      match snapUnits c e fail (List.range e.units) g.tie s with
      | (_, t, some i, s) => ({ g with bad := true, tie := t, slots := g.slots + e.slots (i + 1) }, snapFault c g.valid e i 7 s)
      | (b, t, none, s) => snapElems c fail l { g with bytes := g.bytes ++ b, valid := g.valid + 1, tie := t, slots := g.slots + e.slots e.units } s

/-- The descriptors of a list, n of them. -/
def snapList : Nat → List Byte → List SnapElem
  | 0, _ => []
  | n + 1, b => snapElem (b.take 4) :: snapList n (b.drop 4)

/-- Whether the header names a list: no reserved bit, N at most 16. -/
def snapHeaderOk (h : Word) : Bool := (h &&& 0xF0E0) == 0 && decide (h.toNat % 32 ≤ 16)

/-- Bytes that a list occupies (R300). -/
def snapListBytes (h : Word) : Nat := if h.toNat % 32 ≤ 16 then 2 + 4 * (h.toNat % 32) else 2

/-- Any byte of the list lies outside d:0x0000 to 0xCFFF: the first such byte (R254). -/
def snapOutside (a : Nat) (s : State) : Option Nat :=
  if 0xD000 ≤ a then some a
  else if 0xD000 < a + snapListBytes (sramWord s.mem a) then some 0xD000
  else none

/-- A record that was accepted takes its final bytes, in the queue and in the chain's segment. -/
def vReplace (seq : BitVec 32) (flags : Byte) (body : List Byte) (v : Vault) : Vault :=
  let f := fun (l : List Byte) => (l.take 2) ++ [BitVec.ofNat 8 (8 + body.length), l.getD 3 0 ||| flags] ++ (l.drop 4).take 4 ++ body
  { v with queue := v.queue.map (fun r => if r.seq = seq then { r with bytes := f r.bytes, copying := false } else r)
           seg := v.seg.map (fun e => if e.1 = seq then (e.1, f e.2) else e)
           macs := v.macs.map fun m => { m with seg := m.seg.map (fun e => if e.1 = seq then (e.1, f e.2) else e) } }

/-- The bytes of the list read as LD reads them: whole words, each checked (R285). -/
def snapRead (c : CoreId) : Nat → Nat → State → List Byte × State
  | 0, _, s => ([], s)
  | n + 1, a, s =>
    let (w, s) := sramRead (.core c) a s
    let (l, s) := snapRead c n (a + 2) s
    (loB w :: hiB w :: l, s)

/-- A header fault (R302, R304): its KIND is left open. -/
def snapHeaderFault (c : CoreId) (list : Word) (s : State) : State :=
  { s with free := s.free + 1 }.putSnapFlt c
    { index := 0, reason := 1, set := true, unit := 0xF, kind := (Config.freeWord s.free).setWidth 2, addr := list }

/-- The gather of R302: the result word of R254, and the slots beyond SNAP's own. -/
def snapRun (c : CoreId) (list : Word) (fail : Option Nat) (s : State) : Word × Nat × State :=
  let (h, s) := sramRead (.core c) list.toNat s
  let ok := snapHeaderOk h
  let s := if ok then s else snapHeaderFault c list s
  let n := if ok then h.toNat % 32 else 0
  let (b, s) := snapRead c (2 * n) (list.toNat + 2) s
  let es := snapList n b
  let room := min 224 ((es.map SnapElem.size).foldl (· + ·) 0)
  match offer true 0x82 ((h >>> 8).setWidth 4) (bitAt 8 2 c.isB) 0 (12 + room) (List.replicate (4 + room) 0) true s with
  | (.accepted seq, s) =>
    let (g, s) := snapElems c fail es { bytes := [], valid := 0, tie := 0, bad := !ok, slots := 2 } s
    let body := [loB list, hiB list, BitVec.ofNat 8 g.valid, 0] ++ g.bytes
    (BitVec.ofNat 16 g.valid ||| bitAt 16 5 g.bad, g.slots, { s with vlt := vReplace seq (bitAt 8 1 g.bad) body s.vlt })
  | (_, s) => (0x40, 2, s)

/-- Whether a list names a Derzor-side register: its gather waits for the writes posted before it (R296). -/
def snapFar (list : Word) (s : State) : Bool :=
  let h := sramWord s.mem list.toNat
  let n := if snapHeaderOk h then h.toNat % 32 else 0
  (snapList n (Bytes.readN 0 s.mem.bytes (list.toNat + 2) (4 * n))).any fun e =>
    e.kind == 2 && (List.range e.units).any fun i => derzorRange (e.at i)

/-- SNAP_COMPLETE (R302). `fail`: which of the gather's Derzor-side reads fails, counted from 0. -/
def execSnapComplete (c : CoreId) (fail : Option Nat) (s : State) : Host.Outcome State Fault Refusal :=
  .next <|
    match (s.core c).busy with
    | some (.snap d list ahead) =>
      if s.mainOn && (ahead == 0 || !snapFar list s) then
        let (w, n, s) := snapRun c list fail s
        emit [] (s.setCore c ({ (s.core c).put d w with busy := none }.spend n).stepEnd)
      else s
    | _ => s

end Machine
end Sys2Proof
end

