-- ==== Sys2Proof/Machine/Access.lean ====
section
/-!
DEFINITION. Data-space, instruction-space, I/O and bit instructions (08_instruction_set.md, R240 to R243; R205 to R211, R227).
-/
namespace Sys2Proof
namespace Machine

/-! ### Data space -/

/-- Slots that a data access adds (R258). -/
def accessSlots (a : Nat) : Nat := if inR 0xD000 0xDFFF a then 1 else if inR 0xE000 0xEFFF a then 3 else 0

/-- The trap of a data access at an even address, or of a byte (R229): unmapped, then another's mailbox. -/
def dataTrap (c : CoreId) (write : Bool) (a : Word) (s : State) : Option Trap :=
  if dataUnmapped write a.toNat then some (Trap.unmapped a)
  else if dataForeign c a.toNat s then some (Trap.ownerMailbox a)
  else none

/-- The trap of a word access (R206, R241); a word whose high byte alone is unmapped is unmapped. -/
def wordTrap (c : CoreId) (write : Bool) (a : Word) (s : State) : Option Trap :=
  if a.getLsbD 0 then some (Trap.misalign a)
  else if dataUnmapped write (a.toNat + 1) then some (Trap.unmapped a)
  else dataTrap c write a s

/-- A register receives what a block returned. -/
def regIn (c : CoreId) (d : Reg) (r : Word × State) : State := r.2.setCore c ((r.2.core c).put d r.1)

/-- LD at an address. -/
def loadWord (c : CoreId) (d : Reg) (a : Core → Word) (s : State) : Effect :=
  let a := a (s.core c)
  match wordTrap c false a s with
  | some t => .trap t
  | none => .done (regIn c d (dataReadW (.core c) c a.toNat s)) (accessSlots a.toNat)

/-- LDB at an address. -/
def loadByte (c : CoreId) (d : Reg) (a : Core → Word) (s : State) : Effect :=
  let a := a (s.core c)
  match dataTrap c false a s with
  | some t => .trap t
  | none =>
    let r := dataReadB (.core c) c a.toNat s
    .done (regIn c d (r.1.setWidth 16, r.2)) (accessSlots a.toNat)

/-- ST at an address. -/
def storeWord (c : CoreId) (d : Reg) (a : Core → Word) (s : State) : Effect :=
  let v := (s.core c).reg d
  let a := a (s.core c)
  match wordTrap c true a s with
  | some t => .trap t
  | none => .done (dataWriteW c a.toNat v s) (accessSlots a.toNat)

/-- STB at an address. -/
def storeByte (c : CoreId) (d : Reg) (a : Core → Word) (s : State) : Effect :=
  let v := loB ((s.core c).reg d)
  let a := a (s.core c)
  match dataTrap c true a s with
  | some t => .trap t
  | none => .done (dataWriteB (.core c) c a.toNat v s) (accessSlots a.toNat)

/-- LDP at an address (R205): it never traps on it. -/
def loadCode (c : CoreId) (d : Reg) (a : Core → Word) (s : State) : Effect :=
  .done (regIn c d (codeWord s (a (s.core c)), s)) 1

/-! ### I/O space -/

/-- An access to an address that no block maps (R208). -/
def ioUnmapped (c : CoreId) (write : Bool) (a : BitVec 12) (s : State) (t : State) : Effect :=
  if (s.core c).ioTrap then .trap (Trap.unmappedIo write a) else .done t 0

/-- IN (R208, R211). A Derzor-side read waits for the lane, and counts ten slots (R260). -/
def inWordOp (c : CoreId) (d : Reg) (a : Core → BitVec 12) (s : State) : Effect :=
  let a := a (s.core c)
  if !ioMapped a.toNat s then ioUnmapped c false a s (regIn c d (0, s))
  else if derzorRange a.toNat then
    .done (s.setCore c { s.core c with busy := some (.read d a s.tie.post.length) }) 10
  else .done (emit [] (regIn c d ((ioVal c a.toNat s).getD 0, ioSide c a.toNat s))) 0

/-- OUT (R209, R211, R227, R529). -/
def outWordOp (c : CoreId) (d : Reg) (a : Core → BitVec 12) (s : State) : Effect :=
  let v := (s.core c).reg d
  let a := a (s.core c)
  if !ioMapped a.toNat s then ioUnmapped c true a s s
  else if ioForeign c a.toNat s then .trap (Trap.ownerReg a)
  else match ioTrust c.who a.toNat v s with
    | some why => .trap (Trap.trust why a)
    | none =>
      if derzorRange a.toNat then .done (tiePost { addr := a, data := .word v, who := c.who } s) 0
      else .done (emit [] (ioPut c.who a.toNat v s)) 0

/-- SETB and CLRB on a bit of an output or enable word: the pin's owner and its trust (R227, R529). -/
def pinBitTrap (c : CoreId) (a : BitVec 12) (n : BitVec 4) (b : Bool) (s : State) : Option Trap :=
  match outGroup a.toNat with
  | some g =>
    if !(ownMask s.pin g c).getLsbD n.toNat then some (Trap.ownerPin a)
    else if s.hng.session && (trustMask s.pin g).getLsbD n.toNat then some (Trap.trust 0 a)
    else none
  | none =>
    match oeGroup a.toNat with
    | some g =>
      if !(ownMask s.pin g c).getLsbD n.toNat then some (Trap.ownerPin a)
      else if trustBlocks s c.who g (groupGet s.pin.oe g) (setBit (groupGet s.pin.oe g) n.toNat b) then some (Trap.trust 2 a)
      else none
    | none => none

/-- SETB and CLRB (R209 to R211). -/
def bitOp (c : CoreId) (n : BitVec 4) (b : Bool) (a : Core → BitVec 12) (s : State) : Effect :=
  let a := a (s.core c)
  if !ioMapped a.toNat s then ioUnmapped c true a s s
  else match pinBitTrap c a n b s with
    | some t => .trap t
    | none =>
      if ioForeign c a.toNat s then .trap (Trap.ownerReg a)
      else if derzorRange a.toNat then .done (tiePost { addr := a, data := .bit n b, who := c.who } s) 0
      else .done (emit [] (ioPut c.who a.toNat (bitWord c a.toNat n b s) s)) 0

/-! ### The instructions -/

/-- LD (R240). -/
def execCLd (c : CoreId) (d b : Reg) (u : BitVec 4) (s : State) : Host.Outcome State Fault Refusal :=
  .next (issue c 1 legal (loadWord c d fun k => k.wordAt b u) s)

/-- ST (R240). -/
def execCSt (c : CoreId) (d b : Reg) (u : BitVec 4) (s : State) : Host.Outcome State Fault Refusal :=
  .next (issue c 1 legal (storeWord c d fun k => k.wordAt b u) s)

/-- LDB (R240). -/
def execCLdb (c : CoreId) (d b : Reg) (u : BitVec 4) (s : State) : Host.Outcome State Fault Refusal :=
  .next (issue c 1 legal (loadByte c d fun k => k.byteAt b u) s)

/-- STB (R240). -/
def execCStb (c : CoreId) (d b : Reg) (u : BitVec 4) (s : State) : Host.Outcome State Fault Refusal :=
  .next (issue c 1 legal (storeByte c d fun k => k.byteAt b u) s)

/-- LDX (R240). -/
def execCLdx (c : CoreId) (d b : Reg) (v : Word) (s : State) : Host.Outcome State Fault Refusal :=
  .next (issue c 2 legal (loadWord c d fun k => k.dispAt b v) s)

/-- STX (R240). -/
def execCStx (c : CoreId) (d b : Reg) (v : Word) (s : State) : Host.Outcome State Fault Refusal :=
  .next (issue c 2 legal (storeWord c d fun k => k.dispAt b v) s)

/-- LDBX (R240). -/
def execCLdbx (c : CoreId) (d b : Reg) (v : Word) (s : State) : Host.Outcome State Fault Refusal :=
  .next (issue c 2 legal (loadByte c d fun k => k.dispAt b v) s)

/-- STBX (R240). -/
def execCStbx (c : CoreId) (d b : Reg) (v : Word) (s : State) : Host.Outcome State Fault Refusal :=
  .next (issue c 2 legal (storeByte c d fun k => k.dispAt b v) s)

/-- LDP (R240). -/
def execCLdp (c : CoreId) (d x : Reg) (s : State) : Host.Outcome State Fault Refusal :=
  .next (issue c 1 legal (loadCode c d fun k => k.reg x) s)

/-- LDPX (R240). -/
def execCLdpx (c : CoreId) (d b : Reg) (v : Word) (s : State) : Host.Outcome State Fault Refusal :=
  .next (issue c 2 legal (loadCode c d fun k => k.dispAt b v) s)

/-- IN (R242). -/
def execCIn (c : CoreId) (d x : Reg) (s : State) : Host.Outcome State Fault Refusal :=
  .next (issue c 1 legal (inWordOp c d fun k => k.ioAt x) s)

/-- OUT (R242). -/
def execCOut (c : CoreId) (d x : Reg) (s : State) : Host.Outcome State Fault Refusal :=
  .next (issue c 1 legal (outWordOp c d fun k => k.ioAt x) s)

/-- IN_IMM (R242). -/
def execCInImm (c : CoreId) (d : Reg) (a : BitVec 12) (s : State) : Host.Outcome State Fault Refusal :=
  .next (issue c 2 legal (inWordOp c d fun _ => a) s)

/-- OUT_IMM (R242). -/
def execCOutImm (c : CoreId) (d : Reg) (a : BitVec 12) (s : State) : Host.Outcome State Fault Refusal :=
  .next (issue c 2 legal (outWordOp c d fun _ => a) s)

/-- SETB_IMM (R242). -/
def execCSetbImm (c : CoreId) (n : BitVec 4) (a : BitVec 12) (s : State) : Host.Outcome State Fault Refusal :=
  .next (issue c 2 legal (bitOp c n true fun _ => a) s)

/-- CLRB_IMM (R242). -/
def execCClrbImm (c : CoreId) (n : BitVec 4) (a : BitVec 12) (s : State) : Host.Outcome State Fault Refusal :=
  .next (issue c 2 legal (bitOp c n false fun _ => a) s)

/-- SETB (R242). -/
def execCSetb (c : CoreId) (n : BitVec 4) (x : Reg) (s : State) : Host.Outcome State Fault Refusal :=
  .next (issue c 1 legal (bitOp c n true fun k => k.ioAt x) s)

/-- CLRB (R242). -/
def execCClrb (c : CoreId) (n : BitVec 4) (x : Reg) (s : State) : Host.Outcome State Fault Refusal :=
  .next (issue c 1 legal (bitOp c n false fun k => k.ioAt x) s)

end Machine
end Sys2Proof
end

