-- ==== Sys2Proof/Machine/Alu.lean ====
section
/-!
DEFINITION. The integer and logic instructions (08_instruction_set.md, R238, R239).
-/
namespace Sys2Proof
namespace Machine

/-! ### The shapes of R239's rows -/

/-- A result written with all four flags. -/
def Core.arith (k : Core) (d : Reg) (r : Res) : Core := (k.setFlags r).put d r.val

/-- A result written with Z and N alone. -/
def Core.logic (k : Core) (d : Reg) (r : Word) : Core := (k.setZN r).put d r

/-- A shift or rotate: V is unchanged. -/
def Core.shift (k : Core) (d : Reg) (f : Word → BitVec 4 → Bool → Word × Bool) (n : BitVec 4) : Core :=
  let r := f (k.reg d) n k.c
  { (k.setZN r.1) with c := r.2 }.put d r.1

/-- ADD (R238). -/
def execCAdd (c : CoreId) (d x y : Reg) (s : State) : Host.Outcome State Fault Refusal :=
  .next (issue c 1 legal (onCore c fun k => k.arith d (addRes (k.reg x) (k.reg y) false)) s)

/-- SUB (R238). -/
def execCSub (c : CoreId) (d x y : Reg) (s : State) : Host.Outcome State Fault Refusal :=
  .next (issue c 1 legal (onCore c fun k => k.arith d (subRes (k.reg x) (k.reg y) false)) s)

/-- MOV (R238). -/
def execCMov (c : CoreId) (d x : Reg) (s : State) : Host.Outcome State Fault Refusal :=
  .next (issue c 1 legal (onCore c fun k => k.put d (k.reg x)) s)

/-- AND (R238). -/
def execCAnd (c : CoreId) (d x : Reg) (s : State) : Host.Outcome State Fault Refusal :=
  .next (issue c 1 legal (onCore c fun k => k.logic d (k.reg d &&& k.reg x)) s)

/-- OR (R238). -/
def execCOr (c : CoreId) (d x : Reg) (s : State) : Host.Outcome State Fault Refusal :=
  .next (issue c 1 legal (onCore c fun k => k.logic d (k.reg d ||| k.reg x)) s)

/-- XOR (R238). -/
def execCXor (c : CoreId) (d x : Reg) (s : State) : Host.Outcome State Fault Refusal :=
  .next (issue c 1 legal (onCore c fun k => k.logic d (k.reg d ^^^ k.reg x)) s)

/-- ADC: an early read of C traps SCHED, as R280 has it (R238). -/
def execCAdc (c : CoreId) (d x : Reg) (s : State) : Host.Outcome State Fault Refusal :=
  .next (issue c 1 legal (early c 0 (onCore c fun k => k.arith d (addRes (k.reg d) (k.reg x) k.c))) s)

/-- SBC (R238). -/
def execCSbc (c : CoreId) (d x : Reg) (s : State) : Host.Outcome State Fault Refusal :=
  .next (issue c 1 legal (early c 0 (onCore c fun k => k.arith d (subRes (k.reg d) (k.reg x) (!k.c)))) s)

/-- CMP (R238). -/
def execCCmp (c : CoreId) (d x : Reg) (s : State) : Host.Outcome State Fault Refusal :=
  .next (issue c 1 legal (onCore c fun k => k.setFlags (subRes (k.reg d) (k.reg x) false)) s)

/-- TST (R238). -/
def execCTst (c : CoreId) (d x : Reg) (s : State) : Host.Outcome State Fault Refusal :=
  .next (issue c 1 legal (onCore c fun k => k.setZN (k.reg d &&& k.reg x)) s)

/-- NOT (R238). -/
def execCNot (c : CoreId) (d x : Reg) (s : State) : Host.Outcome State Fault Refusal :=
  .next (issue c 1 legal (onCore c fun k => k.logic d (~~~(k.reg x))) s)

/-- NEG (R238). -/
def execCNeg (c : CoreId) (d x : Reg) (s : State) : Host.Outcome State Fault Refusal :=
  .next (issue c 1 legal (onCore c fun k => k.arith d (subRes 0 (k.reg x) false)) s)

/-- SHL (R238). -/
def execCShl (c : CoreId) (d x : Reg) (s : State) : Host.Outcome State Fault Refusal :=
  .next (issue c 1 legal (onCore c fun k => k.shift d shlRes ((k.reg x).setWidth 4)) s)

/-- SHR (R238). -/
def execCShr (c : CoreId) (d x : Reg) (s : State) : Host.Outcome State Fault Refusal :=
  .next (issue c 1 legal (onCore c fun k => k.shift d shrRes ((k.reg x).setWidth 4)) s)

/-- SAR (R238). -/
def execCSar (c : CoreId) (d x : Reg) (s : State) : Host.Outcome State Fault Refusal :=
  .next (issue c 1 legal (onCore c fun k => k.shift d sarRes ((k.reg x).setWidth 4)) s)

/-- ROL (R238). -/
def execCRol (c : CoreId) (d x : Reg) (s : State) : Host.Outcome State Fault Refusal :=
  .next (issue c 1 legal (onCore c fun k => k.shift d rolRes ((k.reg x).setWidth 4)) s)

/-- SWPB (R238). -/
def execCSwpb (c : CoreId) (d x : Reg) (s : State) : Host.Outcome State Fault Refusal :=
  .next (issue c 1 legal (onCore c fun k => k.logic d (loB (k.reg x) ++ hiB (k.reg x))) s)

/-- SEXB (R238). -/
def execCSexb (c : CoreId) (d x : Reg) (s : State) : Host.Outcome State Fault Refusal :=
  .next (issue c 1 legal (onCore c fun k => k.logic d (sext8 (loB (k.reg x)))) s)

/-- LDI (R238). -/
def execCLdi (c : CoreId) (d : Reg) (i : BitVec 8) (s : State) : Host.Outcome State Fault Refusal :=
  .next (issue c 1 legal (onCore c fun k => k.put d (sext8 i)) s)

/-- ADDI (R238). -/
def execCAddi (c : CoreId) (d : Reg) (i : BitVec 8) (s : State) : Host.Outcome State Fault Refusal :=
  .next (issue c 1 legal (onCore c fun k => k.arith d (addRes (k.reg d) (sext8 i) false)) s)

/-- SHLI (R238). -/
def execCShli (c : CoreId) (d : Reg) (n : BitVec 4) (s : State) : Host.Outcome State Fault Refusal :=
  .next (issue c 1 legal (onCore c fun k => k.shift d shlRes n) s)

/-- SHRI (R238). -/
def execCShri (c : CoreId) (d : Reg) (n : BitVec 4) (s : State) : Host.Outcome State Fault Refusal :=
  .next (issue c 1 legal (onCore c fun k => k.shift d shrRes n) s)

/-- SARI (R238). -/
def execCSari (c : CoreId) (d : Reg) (n : BitVec 4) (s : State) : Host.Outcome State Fault Refusal :=
  .next (issue c 1 legal (onCore c fun k => k.shift d sarRes n) s)

/-- ROLI (R238). -/
def execCRoli (c : CoreId) (d : Reg) (n : BitVec 4) (s : State) : Host.Outcome State Fault Refusal :=
  .next (issue c 1 legal (onCore c fun k => k.shift d rolRes n) s)

/-- LDW (R238). -/
def execCLdw (c : CoreId) (d : Reg) (v : Word) (s : State) : Host.Outcome State Fault Refusal :=
  .next (issue c 2 legal (onCore c fun k => k.put d v) s)

/-- ADDW (R238). -/
def execCAddw (c : CoreId) (d x : Reg) (v : Word) (s : State) : Host.Outcome State Fault Refusal :=
  .next (issue c 2 legal (onCore c fun k => k.arith d (addRes (k.reg x) v false)) s)

/-- ANDW (R238). -/
def execCAndw (c : CoreId) (d x : Reg) (v : Word) (s : State) : Host.Outcome State Fault Refusal :=
  .next (issue c 2 legal (onCore c fun k => k.logic d (k.reg x &&& v)) s)

/-- ORW (R238). -/
def execCOrw (c : CoreId) (d x : Reg) (v : Word) (s : State) : Host.Outcome State Fault Refusal :=
  .next (issue c 2 legal (onCore c fun k => k.logic d (k.reg x ||| v)) s)

/-- XORW (R238). -/
def execCXorw (c : CoreId) (d x : Reg) (v : Word) (s : State) : Host.Outcome State Fault Refusal :=
  .next (issue c 2 legal (onCore c fun k => k.logic d (k.reg x ^^^ v)) s)

/-- CMPW (R238). -/
def execCCmpw (c : CoreId) (x : Reg) (v : Word) (s : State) : Host.Outcome State Fault Refusal :=
  .next (issue c 2 legal (onCore c fun k => k.setFlags (subRes (k.reg x) v false)) s)

end Machine
end Sys2Proof
end

