-- ==== Sys2Proof/Machine/Binary16.lean ====
section
/-!
DEFINITION. binary16 arithmetic: exact results, rounding, flags, flush-to-zero, conversions (09_arithmetic_unit.md, R271 to R279).
-/
namespace Sys2Proof
namespace Machine

/-- FF flags: NX, UF, OF, DZ, NV from bit 0. -/
def ffNX : BitVec 5 := 1
def ffUF : BitVec 5 := 2
def ffOF : BitVec 5 := 4
def ffDZ : BitVec 5 := 8
def ffNV : BitVec 5 := 16

/-- The canonical quiet NaN (R272). -/
def qNaN : Word := 0x7E00

/-- A binary16 value: NaN (signalling or not), infinity, or ±m × 2^e. -/
inductive F16 where
  | nan (sig : Bool)
  | inf (s : Bool)
  | fin (s : Bool) (m : Nat) (e : Int)
  deriving DecidableEq, Repr

/-- The value that a word holds (R271); under FTZ a subnormal is a zero of its sign (R276). -/
def unpack (ftz : Bool) (w : Word) : F16 :=
  let s := w.msb
  let e := (w >>> 10).toNat % 32
  let f := w.toNat % 1024
  if e = 31 then (if f = 0 then .inf s else .nan (decide (f < 512)))
  else if e = 0 then (if ftz then .fin s 0 (-24) else .fin s f (-24))
  else .fin s (1024 + f) ((e : Int) - 25)

def packInf (s : Bool) : Word := if s then 0xFC00 else 0x7C00
def packZero (s : Bool) : Word := if s then 0x8000 else 0
def signOf (s : Bool) (w : Word) : Word := w ||| packZero s

/-- Rounding modes of AU_CFG.RM (R273): whether a magnitude is rounded away from zero. `odd`: its last bit; `half`: the rest
against one half; `rest`: it is not 0. -/
def roundUp (rm : BitVec 2) (s odd : Bool) (half : Ordering) (rest : Bool) : Bool :=
  if rm = 0 then (match half with
    | .gt => true
    | .eq => odd
    | .lt => false)
  else if rm = 1 then false
  else if rm = 2 then s && rest
  else !s && rest

/-- m × 2^e, with more beyond it when `sticky`, in units of 2^q: the whole units and whether rounding adds one; second, exact. -/
def roundTo (rm : BitVec 2) (s : Bool) (m : Nat) (e : Int) (sticky : Bool) (q : Int) : Nat × Bool :=
  if q ≤ e then
    let u := m * 2 ^ (e - q).toNat
    (if roundUp rm s (u % 2 == 1) .lt sticky then u + 1 else u, !sticky)
  else
    let d := 2 ^ (q - e).toNat
    let u := m / d
    let r := m % d
    let half := if 2 * r < d then .lt else if 2 * r = d then (if sticky then .gt else .eq) else .gt
    let rest := sticky || r != 0
    (if roundUp rm s (u % 2 == 1) half rest then u + 1 else u, !rest)

/-- The overflow result of a mode (R273). -/
def overflow (rm : BitVec 2) (s : Bool) : Word :=
  if rm = 0 || (rm = 2 && s) || (rm = 3 && !s) then packInf s else signOf s 0x7BFF

/-- The word for u × 2^q, q ≥ −24, u at most 2048. -/
def packFin (s : Bool) (u : Nat) (q : Int) : Word :=
  signOf s (if u = 2048 then BitVec.ofNat 16 (((q + 26).toNat) * 1024)
    else if u < 1024 then BitVec.ofNat 16 u
    else BitVec.ofNat 16 ((q + 25).toNat * 1024 + (u - 1024)))

/-- An exact result ±(m × 2^e and more), not zero, rounded and delivered (R273, R274, R276). -/
def deliver16 (rm : BitVec 2) (ftz s : Bool) (m : Nat) (e : Int) (sticky : Bool) : Word × BitVec 5 :=
  let tiny := decide ((m.log2 : Int) + e < -14)
  if tiny && ftz then (packZero s, ffUF ||| ffNX)
  else
    let q := max ((m.log2 : Int) + e - 10) (-24)
    let (u, exact) := roundTo rm s m e sticky q
    if 2047 < u && 5 ≤ q || 5 < q then (overflow rm s, ffOF ||| ffNX)
    else (packFin s u q, if exact then 0 else if tiny then ffUF ||| ffNX else ffNX)

/-- A NaN among the operands: NV where one is signalling (R274). -/
def nanOut (sig : Bool) : Word × BitVec 5 := (qNaN, if sig then ffNV else 0)

def F16.isNan : F16 → Bool
  | .nan _ => true
  | _ => false

def F16.isSig : F16 → Bool
  | .nan s => s
  | _ => false

def F16.neg : F16 → F16
  | .nan s => .nan s
  | .inf s => .inf (!s)
  | .fin s m e => .fin (!s) m e

/-- The sign of an exact zero sum (R275). -/
def zeroSum (rm : BitVec 2) (s t : Bool) : Bool := if s = t then s else rm == 2

/-- A finite value over a common unit. -/
def scaled (s : Bool) (m : Nat) (e g : Int) : Int := (if s then -1 else 1) * ((m * 2 ^ (e - g).toNat : Nat) : Int)

/-- The sum of two exact values, rounded once. -/
def sumFin (rm : BitVec 2) (ftz s : Bool) (m : Nat) (e : Int) (t : Bool) (n : Nat) (f : Int) : Word × BitVec 5 :=
  let g := min e f
  let r := scaled s m e g + scaled t n f g
  if r = 0 then (packZero (if m = 0 && n = 0 then zeroSum rm s t else rm == 2), 0)
  else deliver16 rm ftz (decide (r < 0)) r.natAbs g false

/-- A sum (FADD, FSUB and the sum of FFMA). -/
def add16 (rm : BitVec 2) (ftz : Bool) (x y : F16) : Word × BitVec 5 :=
  match x, y with
  | .nan s, y => nanOut (s || y.isSig)
  | _, .nan t => nanOut t
  | .inf s, .inf t => if s = t then (packInf s, 0) else (qNaN, ffNV)
  | .inf s, .fin _ _ _ => (packInf s, 0)
  | .fin _ _ _, .inf t => (packInf t, 0)
  | .fin s m e, .fin t n f => sumFin rm ftz s m e t n f

/-- The exact product of two operands that are no NaNs: `none` for 0 × ∞. -/
def prod16 (x y : F16) : Option F16 :=
  match x, y with
  | .inf s, .inf t => some (.inf (s != t))
  | .inf s, .fin t n _ => if n = 0 then none else some (.inf (s != t))
  | .fin s m _, .inf t => if m = 0 then none else some (.inf (s != t))
  | .fin s m e, .fin t n f => some (.fin (s != t) (m * n) (e + f))
  | _, _ => none

def mul16 (rm : BitVec 2) (ftz : Bool) (x y : F16) : Word × BitVec 5 :=
  if x.isNan || y.isNan then nanOut (x.isSig || y.isSig)
  else match prod16 x y with
    | none => (qNaN, ffNV)
    | some (.fin s m e) => if m = 0 then (packZero s, 0) else deliver16 rm ftz s m e false
    | some (.inf s) => (packInf s, 0)
    | some (.nan _) => (qNaN, 0)

/-- x × y + z with one rounding; 0 × ∞ is invalid whatever z is (R274). -/
def fma16 (rm : BitVec 2) (ftz : Bool) (x y z : F16) : Word × BitVec 5 :=
  if x.isNan || y.isNan then nanOut (x.isSig || y.isSig || z.isSig)
  else match prod16 x y with
    | none => (qNaN, ffNV)
    | some p => add16 rm ftz p z

def div16 (rm : BitVec 2) (ftz : Bool) (x y : F16) : Word × BitVec 5 :=
  match x, y with
  | .nan s, y => nanOut (s || y.isSig)
  | _, .nan t => nanOut t
  | .inf _, .inf _ => (qNaN, ffNV)
  | .inf s, .fin t _ _ => (packInf (s != t), 0)
  | .fin s _ _, .inf t => (packZero (s != t), 0)
  | .fin s m e, .fin t n f =>
    if n = 0 then (if m = 0 then (qNaN, ffNV) else (packInf (s != t), ffDZ))
    else if m = 0 then (packZero (s != t), 0)
    else deliver16 rm ftz (s != t) (m * 2 ^ 30 / n) (e - f - 30) (m * 2 ^ 30 % n != 0)

/-- The integer square root by bits, from bit `k` down. -/
def isqrtBits (n : Nat) : Nat → Nat → Nat
  | 0, r => r
  | k + 1, r => if (r + 2 ^ k) * (r + 2 ^ k) ≤ n then isqrtBits n k (r + 2 ^ k) else isqrtBits n k r

def sqrt16 (rm : BitVec 2) (ftz : Bool) (x : F16) : Word × BitVec 5 :=
  match x with
  | .nan s => nanOut s
  | .inf s => if s then (qNaN, ffNV) else (packInf false, 0)
  | .fin s m e =>
    if m = 0 then (packZero s, 0)
    else if s then (qNaN, ffNV)
    else
      let sh : Nat := if e % 2 = 0 then 40 else 41
      let n := m * 2 ^ sh
      let r := isqrtBits n 32 0
      deliver16 rm ftz false r ((e - sh) / 2) (r * r != n)

/-- An integer as binary16 (kinds 0 and 1, R278). -/
def ofInt16 (rm : BitVec 2) (i : Int) : Word × BitVec 5 := if i = 0 then (0, 0) else deliver16 rm false (decide (i < 0)) i.natAbs 0 false

/-- A finite value rounded to an integer, and whether it was one. -/
def toIntegral (rm : BitVec 2) (s : Bool) (m : Nat) (e : Int) : Int × Bool :=
  let (u, exact) := roundTo rm s m e false 0
  (if s then -(u : Int) else u, exact)

/-- Kinds 2 and 3 (R278), with the integer range and what infinities give. -/
def toInt16 (rm : BitVec 2) (lo hi : Int) (below above : Word) (x : F16) : Word × BitVec 5 :=
  match x with
  | .nan _ => (0, ffNV)
  | .inf s => (if s then below else above, ffNV)
  | .fin s m e =>
    let (i, exact) := toIntegral rm s m e
    if i < lo then (below, ffNV)
    else if hi < i then (above, ffNV)
    else (BitVec.ofInt 16 i, if exact then 0 else ffNX)

/-- Kind 4 (R278): a zero result keeps the operand's sign. -/
def integral16 (rm : BitVec 2) (ftz : Bool) (x : F16) : Word × BitVec 5 :=
  match x with
  | .nan s => nanOut s
  | .inf s => (packInf s, 0)
  | .fin s m e =>
    let (u, exact) := roundTo rm s m e false 0
    if u = 0 then (packZero s, if exact then 0 else ffNX)
    else ((deliver16 rm ftz s u 0 false).1, if exact then 0 else ffNX)

def cvt16 (rm : BitVec 2) (ftz : Bool) (k : FcvtKind) (w : Word) : Word × BitVec 5 :=
  match k with
  | .ofInt => ofInt16 rm w.toInt
  | .ofUint => ofInt16 rm (w.toNat : Int)
  | .toInt => toInt16 rm (-32768) 32767 0x8000 0x7FFF (unpack ftz w)
  | .toUint => toInt16 rm 0 65535 0 0xFFFF (unpack ftz w)
  | .integral => integral16 rm ftz (unpack ftz w)

/-- The order of two values that are no NaNs; +0 and −0 are equal (R249). -/
def cmp16 (x y : F16) : Ordering :=
  match x, y with
  | .inf s, .inf t => if s = t then .eq else if s then .lt else .gt
  | .inf s, _ => if s then .lt else .gt
  | _, .inf t => if t then .gt else .lt
  | .fin s m e, .fin t n f => compare (scaled s m e (min e f)) (scaled t n f (min e f))
  | _, _ => .eq

/-- FCMP's Z, N, C, V and its flag in FF (R249, R277). -/
def fcmp16 (ftz : Bool) (a b : Word) : (Bool × Bool × Bool × Bool) × BitVec 5 :=
  let x := unpack ftz a
  let y := unpack ftz b
  if x.isNan || y.isNan then ((false, false, false, true), if x.isSig || y.isSig then ffNV else 0)
  else match cmp16 x y with
    | .eq => ((true, false, true, false), 0)
    | .gt => ((false, false, true, false), 0)
    | .lt => ((false, true, false, false), 0)

end Machine
end Sys2Proof
end

