-- ==== Sys2Proof/Machine/ArithUnit.lean ====
section
/-!
DEFINITION. The arithmetic-unit instructions: results, latencies, the accumulators, the iterative stage (09_arithmetic_unit.md,
R247 to R249, R260 to R269).
-/
namespace Sys2Proof
namespace Machine

/-! ### The unit -/

/-- A result starts on its way (R260). -/
def Core.start (k : Core) (left : Nat) (dst : AuDst) (ff : BitVec 5) : Core :=
  let r : AuRes := { seq := k.issued, left := left, dst := dst, ff := ff, idz := false, iov := false, iter := false }
  { k with au := { k.au with flight := k.au.flight ++ [r] } }

/-- One more arithmetic instruction has issued. -/
def Core.count (k : Core) : Core := { k with issued := k.issued + 1 }

/-- FR's chain takes a result that hangs on nothing (R248). -/
def Core.chainFr (k : Core) (v : Word) : Core := { k with au := { k.au with frAcc := v, frHang := false } }

/-- A pipelined binary16 result for FR. -/
def Core.startFr (k : Core) (left : Nat) (r : Word × BitVec 5) : Core := ((k.start left (.fr r.1) r.2).chainFr r.1).count

/-- An FFMA whose accumulator changes after it issued: its result on the way, or where FR holds it (R248). -/
def refold (ftz : Bool) (k : Core) (acc : Word) (l : FmaLink) : Core × Word :=
  let (v, ff) := fma16 l.mode ftz (unpack ftz l.x) (unpack ftz l.y) (unpack ftz acc)
  if k.au.flight.any (fun r => r.seq == l.seq) then
    ({ k with au := { k.au with flight := k.au.flight.map fun r => if r.seq = l.seq then { r with dst := .fr v, ff := ff } else r } }, v)
  else if k.au.seqFr = l.seq then ({ k with fr := v, ff := k.ff ||| ff }, v)
  else (k, v)

def refoldAll (ftz : Bool) : List FmaLink → Core → Word → Core × Word
  | [], k, acc => (k, acc)
  | l :: r, k, acc =>
    let (k, v) := refold ftz k acc l
    refoldAll ftz r k v

/-- The chain of FR skips an abandoned FDIV or FSQRT (R248). -/
def Core.unchain (k : Core) : Core :=
  match k.au.frIter with
  | some (_, base) =>
    let (k', v) := refoldAll k.au.ftz k.au.frLinks k base
    { k' with au := { k'.au with frAcc := if k.au.frHang then v else k.au.frAcc, frHang := false, frIter := none, frLinks := [] } }
  | none => k

/-- The iterative stage takes a new operation: the one in progress is abandoned (R268). -/
def Core.abandon (k : Core) : Core :=
  if k.au.flight.any (·.iter) then
    let k := k.unchain
    { k with au := { k.au with flight := k.au.flight.filter (fun r => !r.iter), abn := true, abnCnt := satInc k.au.abnCnt } }
  else k

/-- A result of the iterative stage starts on its way. -/
def Core.startIter (k : Core) (left : Nat) (dst : AuDst) (ff : BitVec 5) (idz iov : Bool) : Core :=
  let r : AuRes := { seq := k.issued, left := left, dst := dst, ff := ff, idz := idz, iov := iov, iter := true }
  { k with au := { k.au with flight := k.au.flight ++ [r] } }

/-! ### Integer operations (R269) -/

/-- A 32-bit product. -/
def mulU (a b : Word) : BitVec 32 := a.setWidth 32 * b.setWidth 32
def mulS (a b : Word) : BitVec 32 := a.signExtend 32 * b.signExtend 32

/-- MUL and MULS: ML and MH arrive apart. -/
def Core.mulOp (k : Core) (p : BitVec 32) : Core :=
  let k := (k.start 2 (.ml (p.setWidth 16)) 0).start 3 (.mh ((p >>> 16).setWidth 16)) 0
  { k with au := { k.au with acc := p } }.count

/-- MAC and MACU. -/
def Core.macOp (k : Core) (p : BitVec 32) : Core :=
  let v := k.au.acc + p
  let k := k.start 3 (.acc v) 0
  { k with au := { k.au with acc := v } }.count

/-- Quotient, remainder, IDZ, IOV. -/
def divU (a b : Word) : Word × Word × Bool × Bool := if b = 0 then (0xFFFF, a, true, false) else (a / b, a % b, false, false)

def divS (a b : Word) : Word × Word × Bool × Bool :=
  if b = 0 then (0xFFFF, a, true, false)
  else (a.sdiv b, a.srem b, false, a == 0x8000 && b == 0xFFFF)

def Core.divOp (k : Core) (r : Word × Word × Bool × Bool) : Core :=
  (k.abandon.startIter 10 (.qtrm r.1 r.2.1) 0 r.2.2.1 r.2.2.2).count

/-! ### binary16 operations -/

/-- An operand of a binary16 operation. -/
def Core.f16 (k : Core) (x : Reg) : F16 := unpack k.au.ftz (k.reg x)

/-- FDIV and FSQRT: a result that may still be abandoned. -/
def Core.iterFr (k : Core) (r : Word × BitVec 5) : Core :=
  let k := k.abandon
  let n := k.issued
  let k := (k.startIter 12 (.fr r.1) r.2 false false).count
  { k with au := { k.au with frIter := some (n, k.au.frAcc), frAcc := r.1, frHang := true, frLinks := [] } }

/-- FFMA onto the accumulator in program order (R248). -/
def Core.fmaOp (k : Core) (x y : Reg) : Core :=
  let r := fma16 k.au.rm k.au.ftz (k.f16 x) (k.f16 y) (unpack k.au.ftz k.au.frAcc)
  let n := k.issued
  let k := (k.start 5 (.fr r.1) r.2).count
  { k with au := { k.au with
      frAcc := r.1
      frLinks := if k.au.frHang then k.au.frLinks ++ [{ seq := n, x := k.reg x, y := k.reg y, mode := k.au.rm }] else k.au.frLinks } }

/-- FCMP: flags at +2 (R249). -/
def Core.cmpOp (k : Core) (x y : Reg) : Core :=
  let r := fcmp16 k.au.ftz (k.reg x) (k.reg y)
  (k.start 2 (.flags r.1.1 r.1.2.1 r.1.2.2.1 r.1.2.2.2) r.2).count

/-! ### The instructions -/

/-- MUL (R247, R269). -/
def execCMul (c : CoreId) (x y : Reg) (s : State) : Host.Outcome State Fault Refusal :=
  .next (issue c 1 legal (onCore c fun k => k.mulOp (mulU (k.reg x) (k.reg y))) s)

/-- MULS (R247, R269). -/
def execCMuls (c : CoreId) (x y : Reg) (s : State) : Host.Outcome State Fault Refusal :=
  .next (issue c 1 legal (onCore c fun k => k.mulOp (mulS (k.reg x) (k.reg y))) s)

/-- MAC (R248, R269). -/
def execCMac (c : CoreId) (x y : Reg) (s : State) : Host.Outcome State Fault Refusal :=
  .next (issue c 1 legal (onCore c fun k => k.macOp (mulS (k.reg x) (k.reg y))) s)

/-- MACU (R248, R269). -/
def execCMacu (c : CoreId) (x y : Reg) (s : State) : Host.Outcome State Fault Refusal :=
  .next (issue c 1 legal (onCore c fun k => k.macOp (mulU (k.reg x) (k.reg y))) s)

/-- DIV (R268, R269). -/
def execCDiv (c : CoreId) (x y : Reg) (s : State) : Host.Outcome State Fault Refusal :=
  .next (issue c 1 legal (onCore c fun k => k.divOp (divU (k.reg x) (k.reg y))) s)

/-- DIVS (R268, R269). -/
def execCDivs (c : CoreId) (x y : Reg) (s : State) : Host.Outcome State Fault Refusal :=
  .next (issue c 1 legal (onCore c fun k => k.divOp (divS (k.reg x) (k.reg y))) s)

/-- FADD (R247). -/
def execCFadd (c : CoreId) (x y : Reg) (s : State) : Host.Outcome State Fault Refusal :=
  .next (issue c 1 legal (onCore c fun k => k.startFr 4 (add16 k.au.rm k.au.ftz (k.f16 x) (k.f16 y))) s)

/-- FSUB (R247). -/
def execCFsub (c : CoreId) (x y : Reg) (s : State) : Host.Outcome State Fault Refusal :=
  .next (issue c 1 legal (onCore c fun k => k.startFr 4 (add16 k.au.rm k.au.ftz (k.f16 x) (k.f16 y).neg)) s)

/-- FMUL (R247). -/
def execCFmul (c : CoreId) (x y : Reg) (s : State) : Host.Outcome State Fault Refusal :=
  .next (issue c 1 legal (onCore c fun k => k.startFr 4 (mul16 k.au.rm k.au.ftz (k.f16 x) (k.f16 y))) s)

/-- FFMA (R248). -/
def execCFfma (c : CoreId) (x y : Reg) (s : State) : Host.Outcome State Fault Refusal :=
  .next (issue c 1 legal (onCore c fun k => k.fmaOp x y) s)

/-- FDIV (R268, R274). -/
def execCFdiv (c : CoreId) (x y : Reg) (s : State) : Host.Outcome State Fault Refusal :=
  .next (issue c 1 legal (onCore c fun k => k.iterFr (div16 k.au.rm k.au.ftz (k.f16 x) (k.f16 y))) s)

/-- FSQRT (R268, R274). -/
def execCFsqrt (c : CoreId) (x : Reg) (s : State) : Host.Outcome State Fault Refusal :=
  .next (issue c 1 legal (onCore c fun k => k.iterFr (sqrt16 k.au.rm k.au.ftz (k.f16 x))) s)

/-- FCVT (R278). -/
def execCFcvt (c : CoreId) (x : Reg) (f : FcvtKind) (s : State) : Host.Outcome State Fault Refusal :=
  .next (issue c 1 legal (onCore c fun k => k.startFr 3 (cvt16 k.au.rm k.au.ftz f (k.reg x))) s)

/-- FCMP (R249, R277). -/
def execCFcmp (c : CoreId) (x y : Reg) (s : State) : Host.Outcome State Fault Refusal :=
  .next (issue c 1 legal (onCore c fun k => k.cmpOp x y) s)

/-- AU_RESULT_LAND (R260, R264): results whose slots are over reach their registers. -/
def execAuResultLand (c : CoreId) (s : State) : Host.Outcome State Fault Refusal :=
  .next (s.setCore c (s.core c).landDue)

end Machine
end Sys2Proof
end

