-- ==== Sys2Proof/Machine/Image.lean ====
section
/-!
DEFINITION. The image stream as a slot holds it, and its checks in order (06_structure_image.md, R170 to R183, R191 to R197,
R582).
-/
namespace Sys2Proof
namespace Machine

/-! ### Reading a stream -/

/-- n bytes at an offset, and a number of n bytes, least significant first (R12). -/
def bytesAt (m : List Byte) (o n : Nat) : List Byte := (m.drop o).take n
def leAt (m : List Byte) (o n : Nat) : Nat := ofLe (bytesAt m o n)
def byteAt0 (m : List Byte) (o : Nat) : Byte := m.getD o 0
def zeroAt (m : List Byte) (o n : Nat) : Bool := (bytesAt m o n).all (· == 0)

/-- A section table entry as stored (R172). -/
structure Sect where
  type : Nat
  enc : Bool
  eflags : Byte
  off : Nat
  len : Nat
  clean : Bool
  deriving DecidableEq, Repr

def sectAt (m : List Byte) (k : Nat) : Sect :=
  let b := 0x40 + 16 * k
  { type := (byteAt0 m b).toNat, enc := (byteAt0 m (b + 1)).getLsbD 0, eflags := byteAt0 m (b + 1), off := leAt m (b + 4) 4,
    len := leAt m (b + 8) 4, clean := zeroAt m (b + 2) 2 && zeroAt m (b + 12) 4 && (byteAt0 m (b + 1)) &&& 0xFE == 0 }

/-- Entries of the table: SECT_COUNT of them (R171). -/
def sectCount (m : List Byte) : Nat := leAt m 0x0C 2
def sects (m : List Byte) : List Sect := (List.range (min 13 (sectCount m))).map (sectAt m)

/-- Offset of a section's body from its header (R174). -/
def Sect.lead (e : Sect) : Nat := if e.enc then 44 else 16
def Sect.bodyOff (e : Sect) : Nat := e.off + e.lead
def Sect.bodyLen (e : Sect) : Nat := e.len - e.lead
def Sect.body (m : List Byte) (e : Sect) : List Byte := bytesAt m e.bodyOff e.bodyLen

/-! ### Where a slot holds a stream (R179) -/

/-- The CODE body's place in the stream, as the table that stands in the structure region has it: offset and length. -/
def codeSpan (x : Slot) : Option (Nat × Nat) :=
  let m := Bytes.readN 0xFF x.str 0 0x110
  if sectCount m ≤ 13 then ((sects m).find? fun e => e.type == 6).map fun e => (e.bodyOff, e.bodyLen) else none

/-- The byte of the stream at an offset. -/
def Slot.byte (x : Slot) (span : Option (Nat × Nat)) (o : Nat) : Byte :=
  match span with
  | some (b, l) =>
    if o < b then Bytes.read 0xFF x.str o
    else if o < b + l then Bytes.read 0xFF x.code (o - b)
    else Bytes.read 0xFF x.str (o - l)
  | none => Bytes.read 0xFF x.str o

def Slot.streamLen (x : Slot) : Nat := ofLe (Bytes.readN 0xFF x.str 8 4)

/-- The stream as stored, up to IMAGE_LEN. -/
def Slot.stream (x : Slot) : List Byte := (List.range (min 196576 x.streamLen)).map (x.byte (codeSpan x))

/-- The digest of R125. -/
def Slot.digest (x : Slot) : BitVec 32 := crc32 x.stream

/-! ### Reasons (IMG_STAT.FAIL_REASON) -/

def badHeader : BitVec 3 := 1
def badTable : BitVec 3 := 2
def badKey : BitVec 3 := 3
def badSignature : BitVec 3 := 4
def badDecrypt : BitVec 3 := 5
def badRollback : BitVec 3 := 6
def badField : BitVec 3 := 7

/-! ### HEADER and TABLE (R197) -/

def headerOk (m : List Byte) : Bool :=
  let n := leAt m 8 4
  bytesAt m 0 4 == [0x4C, 0x4E, 0x54, 0x4C] && leAt m 4 2 == 2 && leAt m 6 2 == 0x40 && leAt m 0x0E 2 == 0x40 &&
    leAt m 0x10 4 == 0x7216 && decide (8 ≤ n) && decide (n ≤ 196576) && n % 8 == 0 && leAt m 0x20 4 + 128 == n &&
    leAt m 0x28 2 / 2 == 0 && zeroAt m 0x2A 18 && leAt m 0x3C 4 == (crc32 (bytesAt m 0 0x3C)).toNat

/-- A section header that agrees with its entry (R174). -/
def sectHeaderOk (m : List Byte) (e : Sect) : Bool :=
  let h := bytesAt m e.off 16
  h.length == 16 && (byteAt0 h 0).toNat == e.type && byteAt0 h 1 == 1 && leAt h 2 2 == (if e.enc then 1 else 0) && zeroAt h 12 4 &&
    e.len == e.lead + leAt h 4 4

/-- The sections in order, with the pad bytes before each; `o`: where the one before ends. -/
def layoutOk (m : List Byte) (sig : Nat) : Nat → List Sect → Bool
  | o, [] => decide (o ≤ sig) && zeroAt m o (sig - o)
  | o, e :: l => e.off % 4 == 0 && decide (o ≤ e.off) && zeroAt m o (e.off - o) && decide (e.off + e.len ≤ sig) && layoutOk m sig (e.off + e.len) l

def tableOk (m : List Byte) : Bool :=
  let es := sects m
  let sig := m.length - 128
  let code := (es.filter fun e => e.type == 6).map Sect.bodyLen
  decide (5 ≤ sectCount m) && decide (sectCount m ≤ 13) && es.all (fun e => e.clean && decide (1 ≤ e.type) && decide (e.type ≤ 13)) &&
    decide ((es.map (·.type)).Nodup) && layoutOk m sig (0x40 + 16 * sectCount m) es && es.all (sectHeaderOk m) &&
    code.all (fun n => decide (2 ≤ n) && n % 2 == 0 && decide (n ≤ 131072)) && decide (m.length - code.sum ≤ 65504)

/-! ### KEY, ROLLBACK, DECRYPT, SIGNATURE (R175 to R178) -/

/-- A public key as the lifecycle accepts it. -/
def keyOk (x : Sec) (m : List Byte) : Bool :=
  match x.lc with
  | .retired => false
  | .factory => !keyHashSet x || sha256 (bytesAt m (m.length - 128) 64) == keyHash x
  | .locked => sha256 (bytesAt m (m.length - 128) 64) == keyHash x

def rollbackOk (x : Sec) (m : List Byte) : Bool := decide ((verFloor x).toNat ≤ leAt m 0x14 4)

/-- The key stream of GCM over a body (R175). -/
def gcmXor (key iv body : List Byte) : List Byte :=
  (chunks 16 (body.length / 16 + 1) body).zipIdx.flatMap fun (b, i) => xorL b (aesEnc key (gcmCtr iv (i + 2)))

def Sect.nonce (m : List Byte) (e : Sect) : List Byte := bytesAt m (e.off + 16) 12
def Sect.tag (m : List Byte) (e : Sect) : List Byte := bytesAt m (e.off + 28) 16

/-- A body as plaintext: CODE stands in the slot decrypted (R176), its tag is over the ciphertext. -/
def plainBody (x : Sec) (m : List Byte) (e : Sect) : Option (List Byte) :=
  let b := e.body m
  if !e.enc then some b
  else if !imgKeySet x then none
  else
    let head := bytesAt m e.off 16
    if e.type = 6 then gcmOpen (imgKey x) (e.nonce m) head (gcmXor (imgKey x) (e.nonce m) b) (e.tag m)
    else gcmOpen (imgKey x) (e.nonce m) head b (e.tag m)

/-- The sections' bodies as plaintext, by type; `none` where one does not decrypt. -/
def plainBodies (x : Sec) (m : List Byte) : List Sect → Option (List (Nat × List Byte))
  | [] => some []
  | e :: l =>
    match plainBody x m e, plainBodies x m l with
    | some b, some r => some ((e.type, b) :: r)
    | _, _ => none

/-- The stream with a body replaced. -/
def putBody (m : List Byte) (e : Sect) (b : List Byte) : List Byte := m.take e.bodyOff ++ b ++ m.drop (e.bodyOff + e.bodyLen)

/-- The stream that the signature covers (R177). -/
def signedStream (m : List Byte) (ps : List (Nat × List Byte)) : List Byte :=
  let m' := (sects m).foldl (fun m e => match ps.find? (fun p => p.1 == e.type) with
    | some p => putBody m e p.2
    | none => m) m
  m'.take (m.length - 128)

def signatureOk (m : List Byte) (ps : List (Nat × List Byte)) : Bool :=
  let b := m.drop (m.length - 128)
  ecdsaVerify (leAt b 0 32) (leAt b 32 32) (leAt b 64 32) (leAt b 96 32) (sha256 (signedStream m ps))

/-! ### FIELD (R191 to R197) -/

/-- A section's COUNT and ITEM_LEN. -/
def sectItems (m : List Byte) (e : Sect) : Nat × Nat := (leAt m (e.off + 8) 2, leAt m (e.off + 10) 2)

/-- The words of a list of bytes. -/
def words : List Byte → List Word
  | a :: b :: l => word2 a b :: words l
  | _ => []

/-- DATAINIT records: address and bytes; `none` where one breaks R196. -/
def dataRecords : Nat → List Byte → Option (List (Nat × List Byte))
  | 0, [] => some []
  | 0, _ => none
  | n + 1, b =>
    let a := leAt b 0 2
    let l := leAt b 2 2
    let size := 4 + l + l % 2
    if l = 0 || 4096 < l || 0xD000 < a + l || b.length < size || !zeroAt b (4 + l) (l % 2) then none
    else (dataRecords n (b.drop size)).map ((a, bytesAt b 4 l) :: ·)

/-- A course record's task lists, core A's and core B's (R192). -/
def courseTasks (r : List Byte) : List Word × List Word :=
  let n := (byteAt0 r 0x0A).toNat
  ((words (bytesAt r 0x40 16)).take (n % 16), (words (bytesAt r 0x50 16)).take (n / 16))

def courseRecords (b : List Byte) : List (List Byte) := (List.range ((b.length - 24) / 96)).map fun k => bytesAt b (24 + 96 * k) 96

/-- An address that core B can issue from (R200). -/
def coreBAddr (w : Word) : Bool := decide (w.toNat ≤ 0x1FFF)

def fieldOf (e : Sect) (m b : List Byte) : Bool :=
  let (n, l) := sectItems m e
  if e.type = 1 then n == 48 && l == 4 && b.length == 192
  else if e.type = 3 then
    let ix := (List.range n).map fun k => leAt b (8 + 16 * k) 2
    l == 16 && b.length == 8 + 16 * n && decide (n ≤ 1024) && ix.all (fun i => decide (i ≤ 1023)) && decide ix.Nodup
  else if e.type = 4 then
    let last := (byteAt0 b 1).toNat
    decide (last ≤ 63) && n == last + 1 && l == 96 && b.length == 24 + 96 * n && coreBAddr (BitVec.ofNat 16 (leAt b 6 2)) &&
      (courseRecords b).all fun r =>
        let k := (byteAt0 r 0x0A).toNat
        decide (k % 16 ≤ 8) && decide (k / 16 ≤ 8) && (courseTasks r).2.all coreBAddr
  else if e.type = 5 then n == 1 && l == 52 && b.length == 52
  else if e.type = 7 then l == 0 && (dataRecords n b).isSome
  else if e.type = 13 then n == 1 && l == 8 && b.length == 8 && coreBAddr (BitVec.ofNat 16 (leAt b 4 2))
  else true

def fieldsOk (m : List Byte) (ps : List (Nat × List Byte)) : Bool :=
  [1, 4, 5, 6, 13].all (fun t => (ps.map (·.1)).contains t) &&
    (sects m).all fun e => match ps.find? (fun p => p.1 == e.type) with
      | some p => fieldOf e m p.2
      | none => false

/-! ### The verification of a slot (R182 steps 2 to 4, R582) -/

/-- The first reason that a stream breaks, or its plaintext bodies. `signed`: with key, version and signature (R125). -/
def verifyStream (x : Sec) (signed : Bool) (n : Nat) (m : List Byte) : BitVec 3 ⊕ List (Nat × List Byte) :=
  if n ≠ m.length || !headerOk m then .inl badHeader
  else if !tableOk m then .inl badTable
  else if signed && !keyOk x m then .inl badKey
  else if signed && !rollbackOk x m then .inl badRollback
  else match plainBodies x m (sects m) with
    | none => .inl badDecrypt
    | some ps =>
      if signed && !signatureOk m ps then .inl badSignature
      else if !fieldsOk m ps then .inl badField
      else .inr ps

def verifySlot (x : Sec) (signed : Bool) (k : Slot) : BitVec 3 ⊕ List (Nat × List Byte) := verifyStream x signed k.streamLen k.stream

end Machine
end Sys2Proof
end

