-- ==== Sys2Proof/Machine/Boot.lean ====
section
/-!
DEFINITION. What the boot ROM loads from an image, and the boot itself (06_structure_image.md, R180 to R185, R191 to R198, R588;
R67, R125, R126, R143).
-/
namespace Sys2Proof
namespace Machine

/-- The plaintext body of a section, by type. -/
def bodyOf (ps : List (Nat × List Byte)) (t : Nat) : Option (List Byte) := (ps.find? fun p => p.1 == t).map (·.2)

def bodyOr (ps : List (Nat × List Byte)) (t : Nat) : List Byte := (bodyOf ps t).getD []

def wordAt (m : List Byte) (o : Nat) : Word := BitVec.ofNat 16 (leAt m o 2)

/-! ### COURSE (R192, R198) -/

/-- A window, and whether its offsets are inconsistent. -/
def loadWindow (r : List Byte) (o : Nat) : Window × Bool :=
  let a := wordAt r o
  let b := wordAt r (o + 2)
  if a = 0xFFFF then ({ never := true, openUs := a, closeUs := none }, false)
  else if b = 0xFFFF then ({ never := false, openUs := a, closeUs := none }, false)
  else if b.toNat < a.toNat then ({ never := true, openUs := a, closeUs := none }, true)
  else ({ never := false, openUs := a, closeUs := some b }, false)

/-- A course record, and whether a field of it was replaced (R198). -/
def loadCourse (r : List Byte) : CourseDef × Bool :=
  let st := byteAt0 r 0
  let event := st.getLsbD 0
  let edge : BitVec 2 := (st >>> 1).setWidth 2
  let period := wordAt r 2
  let phase := wordAt r 4
  let badPhase := !event && period != 0 && decide (period.toNat ≤ phase.toNat)
  let bound := wordAt r 6
  let bound' := if bound = 0 then 0xFFFF else bound
  let tail := wordAt r 8
  let sleep : BitVec 3 := (byteAt0 r 0x0B).setWidth 3
  let (tv, bv) := loadWindow r 0x28
  let (tt, bt) := loadWindow r 0x2C
  let (tp, bp) := loadWindow r 0x30
  let (ta, tb) := courseTasks r
  ({ event := event, line := (byteAt0 r 1).setWidth 6, rising := edge = 0 || edge = 2, falling := edge = 1 || edge = 2
     period := period, phase := if badPhase then phase % period else phase, bound := bound'
     tail := if bound'.toNat < tail.toNat then bound' else tail, tasksA := ta, tasksB := tb, sleep := sleep
     noTick := (byteAt0 r 0x0B).getLsbD 3, banks := (wordAt r 0x0C).setWidth 12, ashShare := wordAt r 0x0E
     resv := vgen 8 fun k => if k = 7 then 0 else byteAt0 r (0x10 + k)
     mortSet := BitVec.ofNat 64 (leAt r 0x18 8), mortClr := BitVec.ofNat 64 (leAt r 0x20 8), winVault := tv, winTouch := tt, winPane := tp },
   (event && edge = 3) || (!event && period = 0) || badPhase || bound = 0 || decide (bound'.toNat < tail.toNat) ||
     sleep = 0 || decide (6 ≤ sleep.toNat) || bv || bt || bp || byteAt0 r 0x17 != 0)

/-- The course engine at the first course of an image. -/
def loadCourses (b : List Byte) (floor : BitVec 7) : CourseEngine :=
  let cs := (courseRecords b).map loadCourse
  let c0 := byteAt0 b 0
  let corner : BitVec 2 := if decide (1 ≤ c0.toNat ∧ c0.toNat ≤ 3) then c0.setWidth 2 else 0
  let map := bytesAt b 8 12
  let bad := corner = 0 || cs.any (·.2) || map.any (fun e => e.getLsbD 7 && decide (cs.length ≤ (e.setWidth 6 : BitVec 6).toNat)) ||
    decide (floor.toNat < (cornerCode corner).toNat) || (corner = 3 && cs.any fun c => !c.1.tasksA.isEmpty)
  { CourseEngine.reset with
    corner := corner, stallTicks := byteAt0 b 2, wakeMode0 := (byteAt0 b 3).setWidth 2, wakeMode1 := ((byteAt0 b 3) >>> 2).setWidth 2
    doorA := wordAt b 4, doorB := wordAt b 6, wakeMap := map, table := cs.map (·.1), stat := bitAt 5 4 bad }

/-! ### PORTER (R193, R66) -/

/-- A VOUT3 mode code, and whether it is reserved. -/
def loadVout (c : BitVec 2) (barred : Bool) : VoutMode × Bool :=
  if c = 3 || (c = 2 && barred) then (.off, true) else (voutOfCode c, false)

/-- The energy entry's settings, and whether a code was reserved: the start-up value stays in force for it. -/
def loadEntry (b : List Byte) : EntryCfg × Bool :=
  let d := EntryCfg.startup
  let e := wordAt b 0
  let h := wordAt b 2
  let c := wordAt b 4
  let v := byteAt0 b 6
  let tgt : BitVec 5 := e.setWidth 5
  let hv : BitVec 4 := (e >>> 8).setWidth 4
  let k : BitVec 4 := h.setWidth 4
  let (vo, b0) := loadVout (v.setWidth 2) false
  let (vl, b1) := loadVout ((v >>> 2).setWidth 2) false
  let (vs, b2) := loadVout ((v >>> 4).setWidth 2) false
  let (vb, b3) := loadVout ((v >>> 6).setWidth 2) true
  ({ storeTgt := if 24 < tgt.toNat then d.storeTgt else tgt, vehIlim := (e >>> 5).setWidth 3
     hvIlim := if 9 < hv.toNat then d.hvIlim else hv, k := if 8 < k.toNat then d.k else k, period := (h >>> 4).setWidth 2
     chgEn := c.getLsbD 0, cv := (c >>> 1).setWidth 2, cellIlim := (c >>> 3).setWidth 2
     voutOpen := vo, voutLatched := vl, voutShuttered := vs, voutBarred := vb },
   decide (24 < tgt.toNat) || decide (9 < hv.toNat) || decide (8 < k.toNat) || b0 || b1 || b2 || b3)

def loadPorter (b : List Byte) : PorterCfg :=
  { corrPeriod := (byteAt0 b 7).setWidth 2, corrMv := ((byteAt0 b 7) >>> 2).setWidth 3, storeC := wordAt b 8, lgRes := wordAt b 0x0A
    vcFloor := (wordAt b 0x0C).setWidth 7, vcTop := ((wordAt b 0x0C) >>> 8).setWidth 7, vcKhi := wordAt b 0x0E, vcKlo := wordAt b 0x10
    pcls := vgen 8 fun k => (wordAt b (0x14 + 2 * k)).setWidth 10, pcost := vgen 8 fun k => wordAt b (0x24 + 2 * k) }

/-! ### PORTS (R397, R411, R412) -/

def ownerBad (cfg : Word) : Bool := ((cfg >>> 1).setWidth 2 : BitVec 2) == 3

/-- Port Q's settings: a reserved address is replaced by 0x4A (R397). -/
def addrBad (cfg : Word) : Bool :=
  let a : BitVec 7 := (cfg >>> 4).setWidth 7
  decide (a.toNat < 8) || decide (0x78 ≤ a.toNat)

def loadQ (cfg : Word) : Word := if addrBad cfg then (cfg &&& 0xF80F) ||| (0x4A <<< 4) else cfg

/-- A bit-timing field out of range (PC_BTN0 to PC_BTD1). -/
def timingBad (p : PortsCfg) : Bool :=
  let seg1 : BitVec 7 := (p.btn0 >>> 8).setWidth 7
  let seg2 : BitVec 6 := p.btn1.setWidth 6
  let sjw : BitVec 6 := (p.btn1 >>> 8).setWidth 6
  let dseg2 : BitVec 4 := (p.btd0 >>> 10).setWidth 4
  let dsjw : BitVec 4 := p.btd1.setWidth 4
  seg1 == 0 || decide (seg2.toNat < sjw.toNat) || decide (dseg2.toNat < dsjw.toNat)

def baudBad (r : Word) : Bool := decide (r.toNat < 96) || decide (40000 < r.toNat)

def loadPorts (p : PortsCfg) : Ports :=
  { s := PortSt.fresh p.s 0, q := PortSt.fresh (loadQ p.q) 0
    u := { PortSt.fresh p.u p.uBaud with off := baudBad p.uBaud }
    cfgBad := ownerBad p.s || ownerBad p.q || ownerBad p.u || ownerBad p.c || addrBad p.q || baudBad p.uBaud || timingBad p || p.rwin == 0 }

def loadPortC (p : PortsCfg) : PortC :=
  { PortC.reset with cfg := p.c, btn0 := p.btn0, btn1 := p.btn1, btd0 := p.btd0, btd1 := p.btd1, rwin := p.rwin, listen := p.listen,
                     off := timingBad p }

/-! ### ASHLAR (R194, R348) -/

/-- The entry of an item. -/
def loadEntryItem (it : List Byte) : Nat × AshEntry :=
  (leAt it 0 2, { key := BitVec.ofNat 48 (leAt it 4 6), data := wordAt it 0x0A, prio := byteAt0 it 3, tag := (byteAt0 it 0x0C).setWidth 4
                  valid := (byteAt0 it 2).getLsbD 0, parity := true })

/-- Entries that differ from a blank one, in rising order. -/
def loadEntries (b : List Byte) : List (Nat × AshEntry) :=
  ((List.range ((b.length - 8) / 16)).map fun k => loadEntryItem (bytesAt b (8 + 16 * k) 16)).foldl
    (fun r e => sparsePut AshEntry.blank r e.1 e.2) []

def loadAshlar (b : Option (List Byte)) (p : Option PortsCfg) : Ashlar :=
  let es := (b.map loadEntries).getD []
  let banks := (b.map fun b => wordAt b 0).getD 0
  let need := es.any fun e => decide (e.1 < 64) && e.2.valid
  let sel := (p.map (·.c0sel)).getD 0
  { Ashlar.reset with
    entries := es, image := es, testing := 0xFFFF, ch0Banks := if need then banks ||| 1 else banks
    ch1Banks := (b.map fun b => wordAt b 2).getD 0, nomat := (b.map fun b => wordAt b 4).getD 0, scrub := (b.map fun b => byteAt0 b 6).getD 0
    c0m1 := (p.map (·.c0m1)).getD 0, c0m2 := (p.map (·.c0m2)).getD 0, c0sel := if sel = 3 then 0 else sel
    c0pass2 := (p.map (·.c0pass2)).getD false, cfgBad := (need && !banks.getLsbD 0) || sel = 3 }

/-! ### OPTIONS and DATAINIT (R195, R196) -/

def loadOptions (k : Core) (opt : Byte) (door : Word) : Core :=
  { k with rsTrap := opt.getLsbD 0, ioTrap := opt.getLsbD 1, door := door, au := { k.au with ftz := opt.getLsbD 2 } }

/-- The records of DATAINIT over SRAM that reads 0x00. -/
def loadData (n : Nat) (b : List Byte) : Bytes :=
  ((dataRecords n b).getD []).foldl (fun m r => Bytes.writeL 0 m r.1 r.2) []

/-! ### VAULT (R373, R375) -/

def loadVault (x : Sec) (b : Option (List Byte)) (v : Vault) : Vault :=
  match b with
  | some b =>
    let c := Config.vaultSection b
    { v with present := true, cfg := { c with thinN := if c.thinN.toNat < 2 then 2 else c.thinN }
             cfgBad := (c.chain && !otpAny x 0x070 16) || decide (c.thinN.toNat < 2) }
  | none => { v with present := false, cfg := VaultCfg.absent }

/-! ### The whole image (R182 steps 5 and 6) -/

/-- Configuration latches, SRAM and entries take an image's values. -/
def latchImage (ps : List (Nat × List Byte)) (dataCount : Nat) (s : State) : State :=
  let opt := bodyOr ps 13
  let por := bodyOr ps 5
  let ports := (bodyOf ps 12).map Config.portsSection
  let cfg := loadPorter por
  let crs := loadCourses (bodyOr ps 4) cfg.vcFloor
  let (en, enBad) := loadEntry por
  let tch := ((bodyOf ps 9).map Config.touchSection).getD TouchCfg.absent
  let sill := (((bodyOf ps 10).map Config.sillSection).getD SillCfg.absent).checked crs.corner
  let s := { s with
    coreA := loadOptions s.coreA (byteAt0 opt 0) (wordAt opt 2)
    coreB := loadOptions s.coreB (byteAt0 opt 1) (wordAt opt 4)
    crs := { crs with tick := s.crs.tick, subtick := s.crs.subtick, onRc := s.crs.onRc, xtalReady := s.crs.xtalReady, trimAge := s.crs.trimAge
                      forced := some 0, newEpoch := true }
    en := { s.en with cfg := en, stat := if enBad then setBit s.en.stat 11 true else s.en.stat }
    por := { s.por with cfg := cfg, cfgBad := cfg.bad crs.corner }
    pwr.wakeEn := (wordAt (bodyOr ps 4) 0x14).setWidth 12
    mem := { Memory.reset with bytes := loadData dataCount (bodyOr ps 7) }
    prt := (ports.map loadPorts).getD Ports.recovery
    pc := (ports.map loadPortC).getD PortC.reset
    ash := loadAshlar (bodyOf ps 3) ports
    vlt := loadVault s.sec (bodyOf ps 11) s.vlt
    tch := { (Touch.restart { s.tch with cfg := tch }) with cfgBad := tch.bad }
    sent := Sentinel.reset
    pane := s.pane.load (((bodyOf ps 8).map Config.paneSection).getD PaneCfg.absent)
    sill := { (Sill.restart { s.sill with cfg := sill }) with cfgBad := sill.bad }
    img.updPorts := (byteAt0 opt 6).setWidth 3 }
  let items := (List.range 48).map fun n => BitVec.ofNat 32 (leAt (bodyOr ps 1) (4 * n) 4)
  let s := { s with pin := pinsLoad items ports.isSome (fun p => (s.prt.get p).runs) s.pin }
  mortarStart (mortarLoad (((bodyOf ps 2).map Config.mortarSection).getD MortarCfg.absent) s)

/-- The Porter sets the ledger to E_v (R67): from the latest sample of the counter, or a free one where none has come since the start. -/
def setLedger (s : State) : State :=
  let (mv, s) := if s.por.lastSample = 0 then takeFree s else (s.por.lastSample, s)
  ledgerMoved { s with por := { s.por with ledger := energyOf s.por.cfg.farads mv.toNat * 1024 } }

/-- COUNT of the DATAINIT section of a stream. -/
def dataCount (m : List Byte) : Nat := (((sects m).find? fun e => e.type == 7).map fun e => (sectItems m e).1).getD 0

/-- The part runs a slot's image: course 0 is to start (R143), and WAKE_SRC names the sources of a SEALED wake (R124). -/
def runImage (n : Bool) (m : List Byte) (ps : List (Nat × List Byte)) (s : State) : State :=
  let s := latchImage ps (dataCount m) s
  let s := { s with img := { s.img with active := some n, reload := false, order := [], digest := some (crc32 m), secVer := BitVec.ofNat 32 (leAt m 0x14 4)
                                        build := BitVec.ofNat 64 (leAt m 0x18 8), sess := none }
                    pwr := { s.pwr with phase := .awake, wakeSrc := s.isl.fired }
                    isl.fired := 0 }
  emit [] (vout3Wake (setLedger s))

/-! ### The boot (R180, R181, R184) -/

def Store.putSlot (x : Store) (n : Bool) (k : Slot) : Store := if n then { x with slot1 := k } else { x with slot0 := k }

/-- Slots of a state, the higher SEQ first, slot 0 first where they are equal. -/
def slotsIn (x : Store) (st : SlotSt) : List Bool :=
  let l := [false, true].filter fun n => (x.slot n).st == st
  if l.length = 2 && decide (x.slot0.seq.toNat < x.slot1.seq.toNat) then [true, false] else l

/-- The order in which a full boot tries slots. -/
def bootOrder (x : Store) : List Bool := slotsIn x .staged ++ slotsIn x .active ++ slotsIn x .standby ++ slotsIn x .failed

/-- A full boot begins: IMG_STAT shows this boot alone. -/
def fullBoot (s : State) : State :=
  let order := if s.sec.lc = .retired then [] else bootOrder s.img
  { s with img := { s.img with reload := false, order := order, tried := false, fallback := false, swapped := false, failReason := 0
                               failSlot := false, selfSigned := false, enc := false }
           pwr.phase := if order.isEmpty then .noImage else .boot }

/-- A slot fails: its record and IMG_STAT say why. -/
def slotFails (n : Bool) (why : BitVec 3) (s : State) : State :=
  let k := s.img.slot n
  { s with img := { s.img.putSlot n { k with st := .failed, fails := satInc k.fails, reason := why } with
                    order := s.img.order.drop 1, tried := true, failReason := why, failSlot := n }
           pwr.phase := if (s.img.order.drop 1).isEmpty then .noImage else .boot }

/-- A slot passes: the records change, the new ACTIVE one first. -/
def slotPasses (n : Bool) (x : Store) : Store :=
  let k := x.slot n
  let o := x.slot (!n)
  let staged := k.st == .staged
  let top := max x.slot0.seq.toNat x.slot1.seq.toNat
  let x := if k.st = .active then x
    else (x.putSlot n { k with st := .active, seq := BitVec.ofNat 32 (top + 1) }).putSlot (!n) (if o.st = .active then { o with st := .standby } else o)
  { x with fallback := x.tried, swapped := staged }

/-- BOOT_VERIFY_END (R125, R181, R182): the reload of the sealed slot, or the next slot of a full boot. -/
def execBootVerifyEnd (s : State) : Host.Outcome State Fault Refusal :=
  .next <|
    if s.pwr.phase != .boot then s
    else if s.img.reload then
      let n := s.isl.sealSlot
      let k := s.img.slot n
      match verifySlot s.sec false k with
      | .inr ps => if s.isl.digest = some k.digest then runImage n k.stream ps s else { (fullBoot s) with isl.rstCause := 3 }
      | .inl _ => { (fullBoot s) with isl.rstCause := 3 }
    else match s.img.order with
      | n :: _ =>
        let k := s.img.slot n
        match verifySlot s.sec true k with
        | .inl why => slotFails n why s
        | .inr ps =>
          let m := k.stream
          let x := slotPasses n s.img
          runImage n m ps { s with img := { x with selfSigned := !keyHashSet s.sec, enc := (sects m).any (·.enc) } }
      | [] => s

end Machine
end Sys2Proof
end

