-- ==== Sys2Proof/Machine/Service.lean ====
section
/-!
DEFINITION. The store service: messages on slots, their refusals and replies (06_structure_image.md, R186 to R190, R583).
-/
namespace Sys2Proof
namespace Machine

/-! ### Status codes (R188) -/

def svcOk : Byte := 0x00
def svcBusyCode : Byte := 0x01
def svcDenied : Byte := 0x02
def svcState : Byte := 0x03
def svcSize : Byte := 0x04
def svcOrder : Byte := 0x05
def svcWorn : Byte := 0x06
def svcGasp : Byte := 0x07

/-- Messages that belong to a session: OPEN, WRITE, CLOSE, ABORT. -/
def sessionOp (op : Byte) : Bool := op == 0xF2 || op == 0xF3 || op == 0xF4 || op == 0xF6

/-- Messages that need the session open. -/
def insideOp (op : Byte) : Bool := op == 0xF3 || op == 0xF4 || op == 0xF6

/-- A payload's length as R187 gives it. -/
def svcLengthOk (op : Byte) (n : Nat) : Bool :=
  if op = 0xF2 then n == 5
  else if op = 0xF3 then decide (12 ≤ n) && decide (n ≤ 500) && (n - 4) % 8 == 0
  else if op = 0xF5 then n == 1
  else n == 0

/-- The SLOT byte of OPEN and COMMIT. -/
def svcSlotOk (m : SvcMsg) : Bool := if m.opcode = 0xF2 || m.opcode = 0xF5 then decide ((m.payload.getD 0 0).toNat ≤ 1) else true

def svcSlot (m : SvcMsg) : Bool := m.payload.getD 0 0 == 1

/-- The refusals that do not look at slots (R188, R189); the order among them is the model's. -/
def svcRefusal (m : SvcMsg) (s : State) : Option Byte :=
  let x := s.img
  let other := match x.sess with
    | some e => e.port != m.port
    | none => false
  if x.active.isSome && !x.updPorts.getLsbD (portIdx m.port) then some svcDenied
  else if s.sec.lc = .retired && m.opcode != 0xF1 then some svcDenied
  else if s.por.lgActive then some svcGasp
  else if other && sessionOp m.opcode then some svcBusyCode
  else if x.sess.isNone && insideOp m.opcode then some svcState
  else if !svcLengthOk m.opcode m.payload.length then some svcSize
  else if !svcSlotOk m then some svcState
  else none

/-- The message is done: its reply waits for the port's out half (R395). -/
def svcReply (m : SvcMsg) (payload : List Byte) (s : State) : State :=
  { s with img := { s.img with svc := s.img.svc.drop 1, replies := s.img.replies ++ [{ m with payload := payload }] } }

/-- The service carries out the message at the front of its queue, if it has this opcode (R189). -/
def serve (op : Byte) (f : SvcMsg → State → State) (s : State) : Host.Outcome State Fault Refusal :=
  .next <|
    match s.img.svc with
    | m :: _ =>
      if m.opcode = op && (s.mainOn || s.pwr.phase == .noImage) then
        match svcRefusal m s with
        | some why => svcReply m [why] s
        | none => f m s
      else s
    | [] => s

/-! ### QUERY (R583) -/

/-- STATE as a slot state record codes it (R180). -/
def SlotSt.byte (t : SlotSt) : Byte := (SlotSt.code t).setWidth 8 + 1

def slotBlock (k : Slot) : List Byte :=
  let m := k.stream
  let ok := k.streamLen == m.length && headerOk m
  [SlotSt.byte k.st, k.fails, k.reason.setWidth 8, if ok then 1 else 0] ++ beBytes 2 (slotWrites k).toNat ++ [0, 0] ++
    beBytes 4 k.seq.toNat ++ beBytes 4 (if ok then leAt m 0x14 4 else 0) ++ beBytes 8 (if ok then leAt m 0x18 8 else 0)

def queryReply (s : State) : List Byte :=
  [svcOk, (match s.img.active with
    | some n => if n then 1 else 0
    | none => 0xFF), (Lifecycle.code s.sec.lc).setWidth 8, 0] ++ slotBlock s.img.slot0 ++ slotBlock s.img.slot1

/-- SLOT_QUERY. -/
def execSlotQuery (s : State) : Host.Outcome State Fault Refusal := serve 0xF1 (fun m s => svcReply m (queryReply s) s) s

/-! ### OPEN (R187, R190) -/

/-- WRITES has reached 10 000; an unknown count is never worn. -/
def slotWorn (k : Slot) : Bool :=
  match k.writes with
  | some w => decide (10000 ≤ w.toNat)
  | none => false

def slotOpened (k : Slot) : Slot :=
  { k with code := [], str := [], st := .writing
           writes := some (match k.writes with
             | some w => satInc w
             | none => 1) }

def openOp (m : SvcMsg) (s : State) : State :=
  let n := svcSlot m
  let len := ofBe (m.payload.drop 1)
  if s.img.sess.isSome || s.img.active = some n then svcReply m [svcState] s
  else if len < 8 || 196576 < len || len % 8 != 0 then svcReply m [svcSize] s
  else if slotWorn (s.img.slot n) then svcReply m [svcWorn] s
  else
    let x := s.img.putSlot n (slotOpened (s.img.slot n))
    svcReply m [svcOk] { s with img := { x with sess := some { port := m.port, slot := n, len := len, next := 0 } } }

/-- SLOT_OPEN. -/
def execSlotOpen (s : State) : Host.Outcome State Fault Refusal := serve 0xF2 openOp s

/-! ### WRITE (R176, R179, R188) -/

/-- The header and section table as they stand once some bytes at an offset are in. -/
def tableAfter (k : Slot) (off : Nat) (data : List Byte) : List Byte :=
  (Bytes.readN 0xFF k.str 0 0x110).zipIdx.map fun (b, o) => if off ≤ o then data.getD (o - off) b else b

/-- The CODE section of that table. -/
def codeSect (m : List Byte) : Option Sect := if sectCount m ≤ 13 then (sects m).find? fun e => e.type == 6 else none

/-- A byte of the stream goes to the code region, or to the structure region. -/
def placeByte (code : Option Sect) (key nonce : List Byte) (o : Nat) (b : Byte) (k : Slot) : Slot :=
  match code with
  | some e =>
    if o < e.bodyOff then { k with str := Bytes.write 0xFF k.str o b }
    else if o < e.bodyOff + e.bodyLen then
      let i := o - e.bodyOff
      let b' := if e.enc then b ^^^ (aesEnc key (gcmCtr nonce (i / 16 + 2))).getD (i % 16) 0 else b
      { k with code := Bytes.write 0xFF k.code i b' }
    else { k with str := Bytes.write 0xFF k.str (o - e.bodyLen) b }
  | none => { k with str := Bytes.write 0xFF k.str o b }

/-- A byte at an offset has its place within the regions. -/
def placeOk (code : Option Sect) (o : Nat) : Bool :=
  match code with
  | some e =>
    if o < e.bodyOff then decide (o < 65504)
    else if o < e.bodyOff + e.bodyLen then decide (o - e.bodyOff < 131072)
    else decide (o - e.bodyLen < 65504)
  | none => decide (o < 65504)

def placeBytes (code : Option Sect) (key nonce : List Byte) : Nat → List Byte → Slot → Slot
  | _, [], k => k
  | o, b :: l, k => placeBytes code key nonce (o + 1) l (placeByte code key nonce o b k)

/-- The nonce of an encrypted CODE section, from what the slot holds and the bytes that come. -/
def codeNonce (e : Sect) (k : Slot) (off : Nat) (data : List Byte) : List Byte :=
  (List.range 12).map fun i =>
    let o := e.off + 16 + i
    if off ≤ o && decide (o < off + data.length) then data.getD (o - off) 0 else Bytes.read 0xFF k.str o

def writeOp (m : SvcMsg) (s : State) : State :=
  match s.img.sess with
  | some e =>
    let off := ofBe (m.payload.take 4)
    let data := m.payload.drop 4
    let k := s.img.slot e.slot
    let code := codeSect (tableAfter k off data)
    if off ≠ e.next then svcReply m [svcOrder] s
    else if e.len < off + data.length || !((List.range data.length).all fun i => placeOk code (off + i)) then svcReply m [svcSize] s
    else
      let nonce := match code with
        | some c => codeNonce c k off data
        | none => []
      let k := placeBytes code (imgKey s.sec) nonce off data k
      svcReply m [svcOk] { s with img := { s.img.putSlot e.slot k with sess := some { e with next := off + data.length } } }
  | none => s

/-- SLOT_WRITE. -/
def execSlotWrite (s : State) : Host.Outcome State Fault Refusal := serve 0xF3 writeOp s

/-! ### CLOSE, COMMIT, ABORT, UNSTAGE (R186, R187) -/

/-- The slot verified, and the session over. -/
def closeNow (m : SvcMsg) (e : Session) (s : State) : State :=
  let k := s.img.slot e.slot
  match verifySlot s.sec true k with
  | .inr _ => svcReply m [svcOk] { s with img := { s.img.putSlot e.slot { k with st := .standby } with sess := none } }
  | .inl why =>
    svcReply m [0x10 + why.setWidth 8]
      { s with img := { s.img.putSlot e.slot { k with st := .failed, fails := satInc k.fails, reason := why } with sess := none } }

/-- CLOSE waits for the engines (R527). -/
def closeOp (m : SvcMsg) (s : State) : State :=
  match s.img.sess with
  | some e =>
    let s := if s.sec.engine = some .service || s.sec.waiters.contains .service then s else { s with sec := engAsk .service s.sec }
    if s.sec.engine = some .service then
      let s := closeNow m e s
      { s with sec := engDone s.sec }
    else s
  | none => s

/-- SLOT_CLOSE. -/
def execSlotClose (s : State) : Host.Outcome State Fault Refusal := serve 0xF4 closeOp s

/-- A staged slot becomes STANDBY. -/
def Slot.unstaged (k : Slot) : Slot := if k.st = .staged then { k with st := .standby } else k

/-- A boot without an image goes on with the slot just staged (R184, R588). -/
def bootGoesOn (n : Bool) (s : State) : State :=
  if s.pwr.phase = .noImage then
    { s with pwr.phase := .boot, img := { s.img with order := [n], tried := false, reload := false } }
  else s

def commitOp (m : SvcMsg) (s : State) : State :=
  let n := svcSlot m
  if s.img.active = some n || (s.img.slot n).st ≠ .standby then svcReply m [svcState] s
  else
    let x := (s.img.putSlot (!n) (s.img.slot (!n)).unstaged).putSlot n { s.img.slot n with st := .staged }
    bootGoesOn n (svcReply m [svcOk] { s with img := { x with digest := none }, isl.digest := none })

/-- SLOT_COMMIT. -/
def execSlotCommit (s : State) : Host.Outcome State Fault Refusal := serve 0xF5 commitOp s

def abortOp (m : SvcMsg) (s : State) : State :=
  match s.img.sess with
  | some e => svcReply m [svcOk] { s with img := { s.img.putSlot e.slot { s.img.slot e.slot with st := .empty } with sess := none } }
  | none => s

/-- SLOT_ABORT. -/
def execSlotAbort (s : State) : Host.Outcome State Fault Refusal := serve 0xF6 abortOp s

def unstageOp (m : SvcMsg) (s : State) : State :=
  if s.img.slot0.st = .staged || s.img.slot1.st = .staged then
    svcReply m [svcOk] { s with img := { s.img with slot0 := s.img.slot0.unstaged, slot1 := s.img.slot1.unstaged } }
  else svcReply m [svcState] s

/-- SLOT_UNSTAGE. -/
def execSlotUnstage (s : State) : Host.Outcome State Fault Refusal := serve 0xF7 unstageOp s

end Machine
end Sys2Proof
end

