-- ==== Sys2Proof/Machine/Power.lean ====
section
/-!
DEFINITION. Starts, brownout, entry to the sleep states and the wakes (02_energy_entry.md, R59, R64, R65; 04_power_states.md,
R108 to R130; 03_porter.md, R91, R92).
-/
namespace Sys2Proof
namespace Machine

/-! ### Starts (R64, R124, R127, R130) -/

/-- The energy entry at a start: what the comparators say stands, every register and setting is at its start value. -/
def Energy.cold (e : Energy) : Energy :=
  { Energy.reset with
    hvQ := e.hvQ, vehQ := e.vehQ, harvQ := e.harvQ, sel := e.sel, hold := e.hold, selDead := e.selDead, vehOv := e.vehOv, hvOv := e.hvOv
    storeOv := e.storeOv, overTemp := e.overTemp, cellOv := e.cellOv, marginOk := e.marginOk, storeFull := e.storeFull
    precharge := e.precharge, store3v := e.store3v, coldStarter := e.coldStarter, harvPoint := e.harvPoint, pass := e.pass, cellP := e.cellP
    flyback := e.flyback, lineCap := e.lineCap, islandOnCell := e.islandOnCell }

/-- The structure store at a start: slots stay, and the latest boot's report until the next one. -/
def Store.cold (x : Store) : Store :=
  { Store.reset with
    slot0 := x.slot0, slot1 := x.slot1, fallback := x.fallback, swapped := x.swapped, failReason := x.failReason, failSlot := x.failSlot
    selfSigned := x.selfSigned, enc := x.enc, build := x.build, secVer := x.secVer }

/-- The rails rise: every block takes what R130 gives it at a cold start or a SEALED wake. -/
def coldStart (kind : StartKind) (s : State) : State :=
  { s with
    en := s.en.cold, por := Porter.reset, pwr := { Power.reset with phase := .starting, startKind := kind }, crs := CourseEngine.reset
    img := s.img.cold, coreA := Core.reset, coreB := Core.reset, mem := Memory.reset, tie := Tie.reset, mrt := Mortar.reset
    ash := Ashlar.reset, vlt := s.vlt.cold, prt := Ports.recovery, pc := PortC.reset
    pin := { Pins.reset with pad := s.pin.pad, vioOk := s.pin.vioOk }
    tch := Touch.reset, sent := Sentinel.reset, pane := { Pane.reset with good := s.pane.good, offs := s.pane.offs }, sill := Sill.reset
    sec := { Sec.reset with uid := s.sec.uid, lc := s.sec.lc, otp := s.sec.otp }, hng := Hinge.reset }

/-- Which start STORE at 2.50 V begins: a wake from SEALED while a digest is held or a source has fired, else a cold start (R124, R127). -/
def startKindOf (s : State) : StartKind :=
  if s.isl.digest.isSome || s.isl.fired != 0 then .sealed else if s.isl.brown then .brown else .cold

/-- STORE_START_THRESHOLD (R59, R64, R65, R124). -/
def execStoreStartThreshold (s : State) : Host.Outcome State Fault Refusal :=
  .next <|
    match s.pwr.phase with
    | .off => if s.en.sel != .none then coldStart (startKindOf s) s else s
    | .asleep .sealed => if s.en.sel != .none || s.isl.fired != 0 then coldStart (startKindOf s) s else s
    | _ => s

/-- SEALED_WAKE (R124): with STORE below 2.50 V the wake is held. -/
def execSealedWake (src : BitVec 4) (storeOk : Bool) (s : State) : Host.Outcome State Fault Refusal :=
  .next <|
    if s.pwr.phase = .asleep .sealed && sourceArmed .sealed src.toNat s then
      let s := { s with isl.fired := setBit s.isl.fired src.toNat true }
      if storeOk then coldStart .sealed s else { s with isl.sealPend := true }
    else s

/-- RST_CAUSE of a start (R127); 3 is SEALED_FULL (R125). -/
def causeOf (s : State) : BitVec 3 :=
  match s.pwr.startKind with
  | .cold => 0
  | .brown => 1
  | .sealed => if s.isl.digest.isSome && s.sec.lc != .retired then 2 else 3

/-- POWER_GOOD (R64 step 5, R124 step 2, R181). -/
def execPowerGood (s : State) : Host.Outcome State Fault Refusal :=
  .next <|
    if s.pwr.phase = .starting then
      let c := causeOf s
      let s := { s with isl.rstCause := c }
      if c = 2 then { s with pwr.phase := .boot, img.reload := true } else fullBoot s
    else s

/-! ### Brownout and the island's supply (R54, R55, R65, R128, R517) -/

/-- The Derzor domain is powered: a brownout is seen. -/
def State.railsUp (s : State) : Bool := s.pwr.phase != .off && s.pwr.phase != .asleep .sealed

/-- BROWNOUT (R65, R128). -/
def execBrownout (s : State) : Host.Outcome State Fault Refusal :=
  .next <|
    if s.railsUp then
      vout3Apply .off
        { s with isl := { s.isl with brown := true, digest := none, en := 0, mode0 := 0, mode1 := 0, fired := 0 }
                 en.islandOnCell := true, pwr.phase := .off, img.digest := none, img.sess := none }
    else s

/-- BACKUP_ISLAND_RESET (R55, R517): a start from here is a cold start (R131). -/
def execBackupIslandReset (s : State) : Host.Outcome State Fault Refusal :=
  .next { s with isl := Island.reset, rtc := Rtc.reset, pwr.phase := if s.pwr.phase = .asleep .sealed then .off else s.pwr.phase }

/-! ### Entry to LATCHED, SHUTTERED, BARRED (R106, R108, R109, R114 to R116, R164, R165, R299) -/

/-- No operation of R109 runs, and every posted write has ended. -/
def opsIdle (s : State) : Bool :=
  s.vlt.flight.isEmpty && s.sill.burst.isNone && !s.tch.running && !s.sent.running && s.tie.post.isEmpty &&
    !(match s.pc.job with
      | some j => j.sending
      | none => false)

/-- Step 5: the wake router gets the tick of the next course due (R106). -/
def loadWakeTick (s : State) : State :=
  { s with pwr.wakeTick := if s.pwr.entryNoTick then none else (nextTick s.crs).map fun n => BitVec.ofNat 48 n }

/-- Both arithmetic units have delivered what is in flight (R256). -/
def auDelivered (s : State) : State := { s with coreA := s.coreA.landAll, coreB := s.coreB.landAll }

/-- Step 6: the data paths of the ports close (R114, R115, R189, R400). -/
def closePorts (s : State) : State :=
  let full := fun (k : PortSt) => k.posted || k.svc
  { s with pwr.mboxLost := s.pwr.mboxLost || full s.prt.s || full s.prt.q || full s.prt.u
           prt := s.prt.emptied, pc := s.pc.emptied
           img := { s.img with svc := [], replies := [], sess := none } }

/-- Pending occurrences are cleared and counted (R165). -/
def pendSlept (c : CourseEngine) : CourseEngine := { c with pend := [], sleptCnt := satAdd c.sleptCnt c.pend.length }

/-- The target state is reached (step 9). -/
def reachSleep (t : Sleep) (s : State) : State :=
  vout3Sleep t { s with pwr := { s.pwr with phase := .asleep t, last := t.code, sleptAt := s.crs.tick, drainTicks := 0, drainOver := false } }

/-- Steps 5 to 9 for SHUTTERED and BARRED. -/
def gate (t : Sleep) (s : State) : State :=
  let s := closePorts (auDelivered (loadWakeTick (vaultDropLeave (touchWindowClose s))))
  reachSleep t { s with crs := pendSlept s.crs, coreA := { s.coreA with st := .off }, coreB := s.coreB.freeze, tch.pending := false }

/-- SLEEP_ENTRY_GATE (R114). A course that is pending makes TICK fire first, where it is enabled (R164). -/
def execSleepEntryGate (s : State) : Host.Outcome State Fault Refusal :=
  .next <|
    match s.pwr.phase with
    | .entering t =>
      if (t = .shuttered || t = .barred) && drainDone s && opsIdle s then
        let u := tickAtOnce s
        if u.awake then emit [] u else gate t u
      else s
    | _ => s

/-- The freeze of R108. -/
def freezeAll (s : State) : State :=
  let s := auDelivered (loadWakeTick (touchWindowClose s))
  reachSleep .latched { s with coreA := s.coreA.freeze, coreB := s.coreB.freeze, tch.pending := false }

/-- LATCHED_FREEZE (R108, R109, R114). -/
def execLatchedFreeze (s : State) : Host.Outcome State Fault Refusal :=
  .next <|
    if s.pwr.phase = .entering .latched && opsIdle s then
      let u := tickAtOnce s
      if u.awake then emit [] u else freezeAll u
    else s

/-! ### Entry to SEALED (R117, R118, R91, R92) -/

/-- The WAKE_EN bits that the island keeps: WK0, WK1, S, Q, U, ALARM. -/
def islandMask : BitVec 12 := 0x176

/-- Steps 7 to 9; `fired`: what the island holds of sources from the start. -/
def sealNow (reason : BitVec 2) (fired : BitVec 12) (s : State) : State :=
  let isl := { s.isl with digest := s.img.digest, sealSlot := s.img.active.getD false, en := s.pwr.wakeEn &&& islandMask
                          mode0 := s.crs.wakeMode0, mode1 := s.crs.wakeMode1, sealReason := reason, sealPend := false, fired := fired }
  vout3Apply .off { s with isl := isl, en.islandOnCell := true, pwr.phase := .asleep .sealed, img.sess := none }

/-- SEALED_ENTRY (R117). -/
def execSealedEntry (s : State) : Host.Outcome State Fault Refusal :=
  .next <| if s.pwr.phase = .entering .sealed && drainDone s && opsIdle s then sealNow 1 0 (closePorts s) else s

/-- LAST_GASP_SEAL (R91, R117): a source that has qualified during the sequence starts the part again (R92). -/
def execLastGaspSeal (s : State) : Host.Outcome State Fault Refusal :=
  .next <|
    if s.por.lgActive && s.awake && !s.crs.running && gaspDone s then
      sealNow 2 (if s.isl.fired.getLsbD 10 && s.en.best != .none then setBit 0 10 true else 0) s
    else s

/-! ### Waking (R112, R113, R119 to R123, R130, R533) -/

/-- HCK moves: in LATCHED, SHUTTERED and BARRED the Hinge does not answer, and its wake source fires (R533). Without VIOA its lands
are dead. -/
def hingeActivity (s : State) : State := if s.pin.vioOk.getLsbD 0 then fire 11 s else s

/-- HINGE_CLOCK_ACTIVITY. -/
def execHingeClockActivity (s : State) : Host.Outcome State Fault Refusal :=
  .next <|
    let t := hingeActivity s
    if s.mainOn then t else t.reply (.hinge 0xF none)

/-- The wake router's hold is released where it has one. -/
def wakeFin (k : BitVec 3) (r : Requester) (s : State) : State :=
  if s.por.holds.any fun h => h.cls == k && h.req == r then s.fin k r else s

/-- A wake that is denied, or whose deferral runs out (R123). The last gasp's own request, where one runs, goes on. -/
def wakeDenied (t : Sleep) (r : Requester) (s : State) : State :=
  if r = .wakeRouter && s.pwr.latched.getLsbD 0 then
    { s with pwr := { s.pwr with wakeLost := s.pwr.wakeLost ||| (s.pwr.latched &&& 0xFFE), latched := 1 } }
  else { s with pwr := { s.pwr with phase := .asleep t, wakeLost := s.pwr.wakeLost ||| s.pwr.latched, latched := 0 } }

/-- WAKE_LEAVE_ANSWER (R121, R123): the oldest answer for the wake router. -/
def execWakeLeaveAnswer (s : State) : Host.Outcome State Fault Refusal :=
  .next <|
    match takeFirst wakeAnswer s.por.answers with
    | some ((k, r, a), l) =>
      let s := { s with por.answers := l }
      match s.pwr.phase, a with
      | .waking t false, .grant => { s with pwr.phase := .waking t true }
      | .waking t false, .deny _ => wakeDenied t r s
      | .waking _ true, .grant => s
      | _, .grant => s.fin k r
      | _, _ => s
    | none => s

/-- The banks that a wake clears (R112). -/
def clearBanks (keep : BitVec 12) (s : State) : State :=
  (List.range 12).foldl (fun s n => if keep.getLsbD n then s else sramClear (0x1000 + 0x1000 * n) 0x1000 s) s

/-- The main domain returns from SHUTTERED or BARRED with what R130 gives its blocks; the mailboxes are empty. -/
def mainReturns (t : Sleep) (s : State) : State :=
  let s := sramClear 0xF000 0x1000 (clearBanks (if t = .shuttered then s.pwr.slpBanks else 0) s)
  mortarStart { s with
    coreA := s.coreA.restart, coreB := { s.coreB.thaw with sched := false }, ash := s.ash.deepWake, tch := Touch.restart s.tch
    pane := s.pane.wake, sill := Sill.restart s.sill, sec := s.sec.deepSleep, hng := { Hinge.reset with fails := s.hng.fails } }

/-- The wake has completed: WAKE_SRC names its sources. -/
def wakeDone (s : State) : State :=
  vout3Wake { s with pwr := { s.pwr with phase := .awake, wakeSrc := s.pwr.latched, latched := 0, wakeTick := none } }

/-- WAKE_COMPLETE (R121, R122). -/
def execWakeComplete (s : State) : Host.Outcome State Fault Refusal :=
  .next <|
    match s.pwr.phase with
    | .waking .shuttered true => emit [] (wakeDone (mainReturns .shuttered (wakeFin 7 .gaspWake (wakeFin 0 .wakeRouter
        { s with pwr.ashRld := true, crs.forced := mapCourse s.pwr.latched s.crs }))))
    | .waking .barred true => emit [] (wakeDone (mainReturns .barred (wakeFin 7 .gaspWake (wakeFin 0 .wakeRouter
        { s with pwr.ashRld := true, crs.forced := mapCourse s.pwr.latched s.crs }))))
    | _ => s

/-- LATCHED_WAKE_COMPLETE (R110, R120, R122): every handshake resumes, and the schedule where it stood. -/
def execLatchedWakeComplete (s : State) : Host.Outcome State Fault Refusal :=
  .next <|
    match s.pwr.phase with
    | .waking .latched true =>
      emit [] (wakeDone { s with coreA := s.coreA.thaw, coreB := s.coreB.thaw, sill := s.sill.thaw, ash.testing := 0xFFFF, mrt.calDirty := true })
    | _ => s

end Machine
end Sys2Proof
end

