-- ==== Sys2Proof/Machine/Hinge.lean ====
section
/-!
DEFINITION. The Hinge: transactions, sessions, run control, OTP programming and the lifecycle; the engines' jobs as they end
(20_security_hinge.md, R520 to R523, R526, R532 to R544).
-/
namespace Sys2Proof
namespace Machine

/-! ### Statuses and reasons (R533, HSTAT) -/

def hOk : BitVec 4 := 5
def hWait : BitVec 4 := 6
def hFault : BitVec 4 := 9
def hSilent : BitVec 4 := 15

def whyCheck : BitVec 4 := 1
def whyCmd : BitVec 4 := 2
def whySession : BitVec 4 := 3
def whyOwner : BitVec 4 := 4
def whyUnmapped : BitVec 4 := 5
def whyMisalign : BitVec 4 := 6
def whyTrust : BitVec 4 := 7
def whyNotHalted : BitVec 4 := 8
def whyOtp : BitVec 4 := 9
def whyLockout : BitVec 4 := 10
def whySig : BitVec 4 := 11
def whyKey : BitVec 4 := 12
def whyAccess : BitVec 4 := 13

/-- Nothing is done; HSTAT.LASTERR says why. -/
def hingeFault (why : BitVec 4) (s : State) : State := { s with hng.lasterr := why, out := .hinge hFault none }

def hingeOk (s : State) : State := s.reply (.hinge hOk none)
def hingeData (v : Word) (s : State) : State := s.reply (.hinge hOk (some v))
def hingeWait (s : State) : State := s.reply (.hinge hWait none)

/-- The first course after a start has begun; a warm reset is no start. -/
def hingeLive (s : State) : Bool := !s.crs.newEpoch || decide (4 ≤ s.isl.rstCause.toNat)

/-- A transaction that is not a repeat of a read discards that read's result (R533). -/
def dropHeld (s : State) : State := { s with hng := { s.hng with held := none, dropRead := s.hng.reading.isSome } }

/-- A transaction: HCK moves, and the Hinge answers or stays silent. `same`: it repeats the read under way. -/
def transact (hdrOk same : Bool) (f : State → State) (s : State) : State :=
  if !s.mainOn || !hingeLive s || !s.pin.vioOk.getLsbD 0 then (hingeActivity s).reply (.hinge hSilent none)
  else
    let t := if same && hdrOk then s else dropHeld s
    hingeActivity (if !hdrOk then hingeFault whyCheck t else f t)

/-- While a session check runs, everything but a read of HSTAT waits (R536). -/
def unlessChecking (f : State → State) (s : State) : State := if s.hng.checking then hingeWait s else f s

/-- A right of the open session: RUN 0, READ 1, WRITE 2, RESET 3, RETIRE 4 (R537). -/
def hingeMay (r : Nat) (s : State) : Bool := s.hng.session && s.hng.rights.getLsbD r

/-- An access that needs a right. -/
def withRight (r : Nat) (f : State → State) (s : State) : State := if hingeMay r s then f s else hingeFault whySession s

/-- An access that needs a session. -/
def inSession (f : State → State) (s : State) : State := if s.hng.session then f s else hingeFault whySession s

/-! ### Run control (R213, R540 to R542) -/

/-- The state that a halted core returns to. -/
def CoreFrom.st : CoreFrom → CoreSt
  | .idle => .idle
  | .running => .running
  | .waiting m => .waiting m
  | .asking => .asking

def CoreFrom.code : CoreFrom → BitVec 3
  | .idle => 0
  | .running => 1
  | .waiting _ => 2
  | .asking => 3

def CoreSt.code : CoreSt → BitVec 3
  | .idle => 0
  | .running => 1
  | .waiting _ => 2
  | .asking => 3
  | .halted _ => 4
  | .frozen _ => 5
  | .off => 6

/-- A halted core goes on; a WAITEV that time-up has ended meanwhile ends now (R540). -/
def resume (c : CoreId) (step : Bool) (s : State) : State :=
  let k := s.core c
  match k.st with
  | .halted f =>
    let s := s.setCore c { k with st := f.st, stepping := step, haltReq := false }
    if s.crs.timeUp then endWait c s else s
  | _ => s

/-- The core can halt where it stands (R213, R540). -/
def Core.mayHalt (k : Core) : Bool :=
  match k.st with
  | .running => k.xfer.isNone && k.busy.isNone
  | .waiting _ => true
  | _ => false

def Core.halt (k : Core) : Core :=
  { k with haltReq := false, stepping := false, st := match k.st with
      | .waiting m => .halted (.waiting m)
      | _ => .halted .running }

/-- CORE_HALTED (R540): the records of a running course carry HALT. -/
def execCoreHalted (c : CoreId) (s : State) : Host.Outcome State Fault Refusal :=
  .next <|
    if (s.core c).haltReq && (s.core c).mayHalt && s.mainOn then
      let s := s.setCore c (s.core c).halt
      if s.crs.running then { s with crs.flags := setBit s.crs.flags 4 true } else s
    else s

/-- HRUN as it reads. -/
def hrunWord (k : Core) : Word :=
  bitAt 16 3 k.sched ||| fieldAt 16 4 k.st.code ||| fieldAt 16 7 (match k.st with
    | .halted f => f.code
    | _ => 0)

/-- A write of HRUN (R540, R542). -/
def hrunPut (c : CoreId) (v : Word) (s : State) : State :=
  let h := v.getLsbD 0
  let r := v.getLsbD 1
  let t := v.getLsbD 2
  if (h && r) || (h && t) || (r && t) || ((r || t) && !isHalted (s.core c)) then hingeFault whyNotHalted s
  else
    let s := s.setCore c { s.core c with sched := v.getLsbD 3 }
    hingeOk (if h then (if isHalted (s.core c) then s else s.setCore c { s.core c with haltReq := true })
      else if r then resume c false s
      else if t then resume c true s
      else s)

/-- A write of HPC. -/
def hpcPut (c : CoreId) (v : Word) (s : State) : State :=
  if isHalted (s.core c) then hingeOk (s.setCore c { s.core c with pc := v, xfer := none, call := false })
  else hingeFault whyNotHalted s

/-- A register of a halted core by its index in the core's set: K0 to K15, then the special registers (R541). -/
def haltedVal (c : CoreId) (i : Nat) (s : State) : Word :=
  if i < 16 then (s.core c).reg (BitVec.ofNat 4 i) else (specialVal c (BitVec.ofNat 4 (i - 16)) s).getD 0

def haltedRead (c : CoreId) (i : Nat) (s : State) : State :=
  if isHalted (s.core c) then hingeData (haltedVal c i s) s else hingeFault whyNotHalted s

/-- K0 to K15, ST, MH, ML and FF can be written. -/
def haltedWritable (i : Nat) : Bool := decide (i < 16) || i == 16 || i == 17 || i == 18 || i == 22

def haltedPut (c : CoreId) (i : Nat) (v : Word) (s : State) : State :=
  if !isHalted (s.core c) then hingeFault whyNotHalted s
  else if !haltedWritable i then hingeFault whyAccess s
  else if i < 16 then hingeOk (s.setCore c ((s.core c).put (BitVec.ofNat 4 i) v))
  else hingeOk (s.setCore c ((s.core c).putSpecial (BitVec.ofNat 4 (i - 16)) v))

/-! ### Sessions (R536 to R539) -/

/-- The end of a session: halted cores resume, schedule check and NORC turn off. -/
def sessionEnd (s : State) : State :=
  if s.hng.session then
    let s := resume .b false (resume .a false s)
    { s with coreA := { s.coreA with sched := false, haltReq := false, stepping := false }
             coreB := { s.coreB with sched := false, haltReq := false, stepping := false }
             hng := { s.hng with session := false, rights := 0, norc := false } }
  else s

/-- A fresh challenge (R536). -/
def challenge (rnd : List Byte) (s : State) : State := { s with hng.chal := (padTo 32 rnd).take 32, hng.chalv := true }

/-- A failed OPEN (R538). -/
def openFails (why : BitVec 4) (s : State) : State :=
  { s with hng := { s.hng with fails := if s.hng.fails = 3 then 3 else s.hng.fails + 1, chalv := false, lasterr := why } }

/-- A write of 1 to HCTL.OPEN (R536, R538, R546). In RETIRED no session opens, and the spec does not say with which answer. -/
def openPut (s : State) : State :=
  if s.hng.fails = 3 then hingeFault whyLockout s
  else match s.sec.lc with
    | .factory => hingeOk { s with hng := { s.hng with session := true, rights := 0x1F } }
    | .locked =>
      if s.hng.chalv then hingeOk { s with hng.checking := true, sec := engAsk .session s.sec }
      else (openFails whySig s).reply (.hinge hFault none)
    | .retired =>
      let t := { s with free := s.free + 2 }
      if Config.freeBit s.free then hingeOk t else hingeFault ((Config.freeWord (s.free + 1)).setWidth 4) t

/-- HRESP as bytes: QX, QY, R, S. -/
def respBytes (h : Hinge) : List Byte := h.resp.toList.flatMap fun w => [loB w, hiB w]

/-- The message that the debug key signs. -/
def openMessage (s : State) : List Byte := s.hng.chal ++ leBytes 8 s.sec.uid.toNat ++ leBytes 2 s.hng.req.toNat

/-- HINGE_SESSION_CHECK_END (R536, R538). -/
def execHingeSessionCheckEnd (s : State) : Host.Outcome State Fault Refusal :=
  .next <|
    if s.hng.checking && s.sec.engine = some .session then
      let b := respBytes s.hng
      let s := { s with hng.checking := false, sec := engDone s.sec }
      if !dbgHashSet s.sec || sha256 (b.take 64) != dbgHash s.sec then openFails whyKey s
      else if ecdsaVerify (leAt b 0 32) (leAt b 32 32) (leAt b 64 32) (leAt b 96 32) (sha256 (openMessage s)) then
        { s with hng := { s.hng with session := true, rights := s.hng.req.setWidth 5, chalv := false } }
      else openFails whySig s
    else s

/-- A write of HCTL. Without a session CHAL and OPEN alone are allowed, and NORC and HCORE stay. -/
def hctlPut (rnd : Option (List Byte)) (v : Word) (s : State) : State :=
  if !s.hng.session && (v.getLsbD 2 || !(v.getLsbD 0 || v.getLsbD 1)) then hingeFault whySession s
  else
    let s := if s.hng.session then { s with hng.norc := v.getLsbD 3, hng.hcore := v.getLsbD 4 } else s
    let s := hingeOk (if v.getLsbD 0 then
      (match rnd with
        | some l => challenge l s
        | none =>
          let (l, t) := freeBytes 32 s
          challenge l t)
      else s)
    let s := if v.getLsbD 1 then openPut s else s
    if v.getLsbD 2 then sessionEnd s else s

/-- NORC and HCORE as a write of the other bits carries them along. -/
def hctlWord (h : Hinge) : Word := bitAt 16 3 h.norc ||| bitAt 16 4 h.hcore

/-! ### OTP through the Hinge (R520 to R522) -/

/-- A word of OTP as the Hinge reads it; an odd offset names no word. -/
def otpRead (s : State) : Word × State :=
  let o := s.hng.otpAddr.toNat
  let x := s.sec
  if o % 2 = 1 then takeFree s
  else if o < 8 then ((x.uid >>> (8 * o)).setWidth 16, s)
  else if o = 8 then ((Lifecycle.code x.lc).setWidth 16, s)
  else if inR 0x060 0x07F o || 0x0C0 ≤ o then (0, s)
  else ((otpWord x o).getD 0, s)

/-- PROG may program the word at HOTP_ADDR (R521). -/
def progOk (s : State) : Bool :=
  let o := s.hng.otpAddr.toNat
  s.sec.lc = .factory && o % 2 == 0 && inR 0x00A 0x07F o && (otpWord s.sec o).isNone

def progPut (s : State) : State :=
  if s.sec.otpBusy.isSome then hingeWait s
  else if progOk s then hingeOk { s with sec.otpBusy := some (s.hng.otpAddr.toNat, s.hng.otpData) }
  else hingeFault whyOtp s

/-- OTP_PROG_END. -/
def execOtpProgEnd (s : State) : Host.Outcome State Fault Refusal :=
  .next <|
    match s.sec.otpBusy with
    | some (o, w) => { s with sec := { (otpProgram s.sec o w) with otpBusy := none } }
    | none => s

/-- The lifecycle commands (R522). -/
def lockPut (s : State) : State :=
  if s.sec.lc = .factory && keyHashSet s.sec then hingeOk (sessionEnd { s with sec.lc := .locked }) else hingeFault whyOtp s

def retirePut (s : State) : State :=
  if s.sec.lc = .factory || (s.sec.lc = .locked && hingeMay 4 s) then hingeOk (sessionEnd { s with sec.lc := .retired }) else hingeFault whyOtp s

def otpCmd (v : Word) (s : State) : State :=
  if v = 0x0001 then progPut s
  else if v = 0x10C4 then lockPut s
  else if v = 0x0DEA then retirePut s
  else hingeFault whyOtp s

/-! ### Hinge-register space -/

/-- The core and index of a halted-core register. -/
def haltedIndex (a : Nat) : Option (CoreId × Nat) :=
  if inR 0x10 0x28 a then some (.a, a - 0x10) else if inR 0x30 0x48 a then some (.b, a - 0x30) else none

/-- HSTAT. -/
def hstatWord (s : State) : Word :=
  bitAt 16 0 s.hng.session ||| fieldAt 16 1 (Lifecycle.code s.sec.lc) ||| fieldAt 16 3 s.hng.fails ||| fieldAt 16 5 s.hng.lasterr |||
    bitAt 16 9 s.hng.chalv

/-- A word of the challenge. -/
def chalWord (h : Hinge) (n : Nat) : Word := word2 (h.chal.getD (2 * n) 0) (h.chal.getD (2 * n + 1) 0)

/-- A write-only register reads 0. -/
def regRead (a : Nat) (s : State) : State :=
  if a = 0x00 then hingeData (hstatWord s) s
  else if a = 0x01 then hingeData (s.hng.rights.setWidth 16) s
  else if a = 0x02 then inSession (hingeData (hctlWord s.hng)) s
  else if a = 0x03 then withRight 3 (hingeData 0) s
  else if a = 0x04 then hingeData s.hng.req s
  else if a = 0x08 then withRight 0 (hingeData (hrunWord s.coreA)) s
  else if a = 0x09 then withRight 0 (hingeData (hrunWord s.coreB)) s
  else if a = 0x0A ∨ a = 0x0B then
    let c : CoreId := if a = 0x0A then .a else .b
    withRight 1 (fun s => if isHalted (s.core c) then hingeData (s.core c).pc s else hingeFault whyNotHalted s) s
  else match haltedIndex a with
    | some (c, i) => withRight 1 (haltedRead c i) s
    | none =>
      if inR 0x50 0x5F a then hingeData (chalWord s.hng (a - 0x50)) s
      else if inR 0x60 0x9F a then inSession (hingeData 0) s
      else if a = 0xC0 then inSession (hingeData s.hng.otpAddr) s
      else if a = 0xC1 then withRight 1 (fun s => let (v, t) := otpRead s; hingeData v t) s
      else if a = 0xC2 then inSession (hingeData 0) s
      else hingeFault whyCmd s

/-- A warm reset by the Hinge (R544). -/
def hrstPut (v : Word) (s : State) : State := hingeOk (if v = 0x5EA1 then emit [] (warmReset 5 s) else s)

/-- A read-only register takes no write. -/
def regWrite (rnd : Option (List Byte)) (a : Nat) (v : Word) (s : State) : State :=
  if a = 0x00 ∨ a = 0x01 || inR 0x50 0x5F a then inSession hingeOk s
  else if a = 0x02 then hctlPut rnd v s
  else if a = 0x03 then withRight 3 (hrstPut v) s
  else if a = 0x04 then hingeOk { s with hng.req := v &&& 0x001F }
  else if a = 0x08 then withRight 0 (hrunPut .a v) s
  else if a = 0x09 then withRight 0 (hrunPut .b v) s
  else if a = 0x0A then withRight 0 (hpcPut .a v) s
  else if a = 0x0B then withRight 0 (hpcPut .b v) s
  else match haltedIndex a with
    | some (c, i) => withRight 2 (haltedPut c i v) s
    | none =>
      if inR 0x60 0x9F a then hingeOk { s with hng.resp := s.hng.resp.set! (a - 0x60) v }
      else if a = 0xC0 then inSession (fun s => hingeOk { s with hng.otpAddr := v }) s
      else if a = 0xC1 then inSession (fun s => hingeOk { s with hng.otpData := v }) s
      else if a = 0xC2 then inSession (otpCmd v) s
      else hingeFault whyCmd s

/-! ### Data and I/O space (R535) -/

/-- A core's trap as the reason of a fault. -/
def trapWhy (t : Trap) : BitVec 4 :=
  if t.cause = 7 then whyMisalign else if t.cause = 6 then whyUnmapped else if t.cause = 4 then whyOwner else whyTrust

def hingeCore (s : State) : CoreId := s.actsAs .hinge

def dataRead (a : Word) (s : State) : State :=
  let c := hingeCore s
  match wordTrap c false a s with
  | some t => hingeFault (trapWhy t) s
  | none =>
    let (v, t) := dataReadW .hinge c a.toNat s
    hingeData v t

def dataWrite (a v : Word) (s : State) : State :=
  let c := hingeCore s
  match wordTrap c true a s with
  | some t => hingeFault (trapWhy t) s
  | none => hingeOk (dataWriteW c a.toNat v s)

/-- An I/O read; a Derzor-side one answers WAIT, and its result is held for the repeat (R533). -/
def ioRead (a : Word) (s : State) : State :=
  let n := a.toNat
  let c := hingeCore s
  if !ioMapped n s then hingeData 0 s
  else if derzorRange n then
    match s.hng.held with
    | some (_, v) => hingeData v { s with hng.held := none }
    | none => hingeWait (if s.hng.reading.isSome then s else { s with hng.reading := some (a, s.tie.post.length) })
  else hingeData ((ioVal c n s).getD 0) (if s.hng.norc then s else emit [] (ioSide c n s))

/-- The read that a transaction repeats. -/
def repeats (a : Word) (s : State) : Bool :=
  (s.hng.held.map (·.1)) == some a || ((s.hng.reading.map (·.1)) == some a && !s.hng.dropRead)

def ioWrite (a v : Word) (s : State) : State :=
  let n := a.toNat
  if !ioMapped n s then hingeOk s
  else if ioForeign (hingeCore s) n s then hingeFault whyOwner s
  else match ioTrust .hinge n v s with
    | some _ => hingeFault whyTrust s
    | none =>
      if derzorRange n then hingeOk (tiePost { addr := a.setWidth 12, data := .word v, who := .hinge } s)
      else hingeOk (emit [] (ioPut .hinge n v s))

/-! ### Transactions (R532 to R535) -/

/-- HINGE_ID. -/
def execHingeId (hdrOk : Bool) (s : State) : Host.Outcome State Fault Refusal :=
  .next (transact hdrOk false (unlessChecking (hingeData 0x7216)) s)

/-- HINGE_READ. -/
def execHingeRead (space : HingeSpace) (a : BitVec 16) (hdrOk : Bool) (s : State) : Host.Outcome State Fault Refusal :=
  .next <|
    match space with
    | .instr => transact hdrOk false (unlessChecking (withRight 1 fun s => hingeData (codeWord s a) s)) s
    | .data => transact hdrOk false (unlessChecking (withRight 1 (dataRead a))) s
    | .io => transact hdrOk (repeats a s) (unlessChecking (withRight 1 (ioRead a))) s
    | .hinge => transact hdrOk false (if a = 0 then regRead 0 else unlessChecking (regRead a.toNat)) s

/-- A write whose data check fails writes nothing. -/
def dataChecked (dataOk : Bool) (f : State → State) (s : State) : State := if dataOk then unlessChecking f s else hingeFault whyCheck s

/-- HINGE_WRITE; there is no write to instruction space. -/
def execHingeWrite (space : HingeSpace) (a : BitVec 16) (v : BitVec 16) (hdrOk dataOk : Bool) (s : State) : Host.Outcome State Fault Refusal :=
  .next <| transact hdrOk false (dataChecked dataOk (match space with
    | .instr => hingeFault whyCmd
    | .data => withRight 2 (dataWrite a v)
    | .io => withRight 2 (ioWrite a v)
    | .hinge => regWrite none a.toNat v)) s

/-- Commands of R534. -/
def hingeKnown (cmd : BitVec 6) : Bool :=
  cmd == 0x01 || (decide (0x10 ≤ cmd.toNat) && decide (cmd.toNat ≤ 0x13)) || (decide (0x21 ≤ cmd.toNat) && decide (cmd.toNat ≤ 0x23))

/-- HINGE_UNKNOWN_COMMAND. -/
def execHingeUnknownCommand (cmd : BitVec 6) (hdrOk : Bool) (s : State) : Host.Outcome State Fault Refusal :=
  .next <| if hingeKnown cmd then s else transact hdrOk false (unlessChecking (hingeFault whyCmd)) s

/-- A good write transaction to Hinge-register space. -/
def hingePut (rnd : Option (List Byte)) (a : Nat) (v : Word) (s : State) : State :=
  transact true false (unlessChecking (regWrite rnd a v)) s

/-- HINGE_CHALLENGE. -/
def execHingeChallenge (rnd : List Byte) (s : State) : Host.Outcome State Fault Refusal :=
  .next (hingePut (some rnd) 0x02 (hctlWord s.hng ||| 1) s)

/-- HINGE_OPEN. -/
def execHingeOpen (s : State) : Host.Outcome State Fault Refusal := .next (hingePut none 0x02 (hctlWord s.hng ||| 2) s)

/-- HINGE_CLOSE. -/
def execHingeClose (s : State) : Host.Outcome State Fault Refusal := .next (hingePut none 0x02 (hctlWord s.hng ||| 4) s)

/-- HRUN's index of a core, and its SCHED bit as a write of the other bits carries it along. -/
def hrunAt : CoreId → Nat
  | .a => 0x08
  | .b => 0x09

def hrunKeep (c : CoreId) (s : State) : Word := bitAt 16 3 (s.core c).sched

/-- HINGE_HALT. -/
def execHingeHalt (c : CoreId) (s : State) : Host.Outcome State Fault Refusal := .next (hingePut none (hrunAt c) (hrunKeep c s ||| 1) s)

/-- HINGE_RESUME. -/
def execHingeResume (c : CoreId) (s : State) : Host.Outcome State Fault Refusal := .next (hingePut none (hrunAt c) (hrunKeep c s ||| 2) s)

/-- HINGE_STEP. -/
def execHingeStep (c : CoreId) (s : State) : Host.Outcome State Fault Refusal := .next (hingePut none (hrunAt c) (hrunKeep c s ||| 4) s)

/-- HINGE_SCHED_WRITE. -/
def execHingeSchedWrite (c : CoreId) (on : Bool) (s : State) : Host.Outcome State Fault Refusal :=
  .next (hingePut none (hrunAt c) (bitAt 16 3 on) s)

/-- HINGE_PC_WRITE. -/
def execHingePcWrite (c : CoreId) (v : BitVec 16) (s : State) : Host.Outcome State Fault Refusal := .next (hingePut none (hrunAt c + 2) v s)

/-- HINGE_RESET. -/
def execHingeReset (v : BitVec 16) (s : State) : Host.Outcome State Fault Refusal := .next (hingePut none 0x03 v s)

/-- OTP_PROG: the word and its offset stand in HOTP_DATA and HOTP_ADDR. -/
def execOtpProg (s : State) : Host.Outcome State Fault Refusal := .next (hingePut none 0xC2 0x0001 s)

/-- LIFECYCLE_LOCK. -/
def execLifecycleLock (s : State) : Host.Outcome State Fault Refusal := .next (hingePut none 0xC2 0x10C4 s)

/-- LIFECYCLE_RETIRE. -/
def execLifecycleRetire (s : State) : Host.Outcome State Fault Refusal := .next (hingePut none 0xC2 0x0DEA s)

/-! ### Jobs (R526, R527) -/

/-- CRYPTO_JOB_END: a core's job, or the Vault's value; the engines take the next user. -/
def execCryptoJobEnd (s : State) : Host.Outcome State Fault Refusal :=
  .next <|
    if !s.mainOn then s
    else
      let release := fun (t : State) => { t with sec := engDone t.sec }
      match s.sec.engine with
      | some .coreA => release (coreJobEnd .a s)
      | some .coreB => release (coreJobEnd .b s)
      | some .vault => release (vaultMacEnd s)
      | _ => s

end Machine
end Sys2Proof
end

