-- ==== Sys2Proof/Machine/SystemOps.lean ====
section
/-!
DEFINITION. System instructions: tasks, events, permits, the snapshot gather, special registers, undefined words
(07_core_model.md; 08_instruction_set.md, R236, R250 to R256).
-/
namespace Sys2Proof
namespace Machine

/-- NOP. -/
def execCNop (c : CoreId) (s : State) : Host.Outcome State Fault Refusal := .next (issue c 1 legal (onCore c fun k => k) s)

/-- UNDEFINED_INSTRUCTION (R236). `two`: the fault lies in the extension word. -/
def execUndefinedInstruction (c : CoreId) (two : Bool) (s : State) : Host.Outcome State Fault Refusal :=
  .next (issue c (if two then 2 else 1) (fun _ => some 0) (onCore c fun k => k) s)

/-! ### Tasks (R148, R149, R256) -/

def CourseEngine.tasks (r : CourseEngine) : CoreId → List Word
  | .a => r.tasksA
  | .b => r.tasksB

/-- The task ends: the next one starts, or the core has ended its list. -/
def taskEnd (c : CoreId) (s : State) : State :=
  match s.crs.tasks c with
  | e :: l =>
    let s := s.setCore c ((s.core c).startTask e)
    match c with
    | .a => { s with crs.tasksA := l }
    | .b => { s with crs.tasksB := l }
  | [] =>
    let s := s.setCore c (s.core c).idle
    courseEndCheck (match c with
      | .a => { s with crs.endedA := true }
      | .b => { s with crs.endedB := true })

/-- ENDT (R256): the slot before the next task's first instruction is empty (R260). -/
def execCEndt (c : CoreId) (sub : BitVec 10) (s : State) : Host.Outcome State Fault Refusal :=
  .next (issue c 1 noSlot (fun s => .done (emit [] (taskEnd c (s.atSub sub))) 1) s)

/-! ### Events (R250, R251) -/

/-- POLL (R250). -/
def execCPoll (c : CoreId) (d : Reg) (s : State) : Host.Outcome State Fault Refusal :=
  .next (issue c 1 legal (fun s =>
    let k := (s.core c).snapshot s.crs.timeUp
    .done (s.setCore c (k.put d k.ev)) 0) s)

/-- A WAITEV issues; at or after time-up it ends at once (R160). -/
def waitOp (c : CoreId) (mask : BitVec 13) (s : State) : Effect :=
  let s := s.setCore c { s.core c with st := .waiting mask, hit := 0 }
  .done (if s.crs.timeUp then endWait c s else s) 0

/-- WAITEV (R251). -/
def execCWaitev (c : CoreId) (x : Reg) (s : State) : Host.Outcome State Fault Refusal :=
  .next (issue c 1 noSlot (fun s => waitOp c (((s.core c).reg x).setWidth 13) s) s)

/-- WAITEV_IMM (R251). -/
def execCWaitevImm (c : CoreId) (mask : BitVec 13) (s : State) : Host.Outcome State Fault Refusal :=
  .next (issue c 2 noSlot (waitOp c mask) s)

/-- WAITEV_END (R160, R225): a listed latch has been set since the WAITEV issued, or the course is at its time-up. -/
def execWaitevEnd (c : CoreId) (s : State) : Host.Outcome State Fault Refusal :=
  .next <|
    match (s.core c).st with
    | .waiting mask => if ((s.core c).hit &&& mask) != 0 || s.crs.timeUp then endWait c s else s
    | _ => s

/-! ### Permits (R252, R253) -/

/-- ASKP (R252): two slots. -/
def execCAskp (c : CoreId) (p : BitVec 3) (s : State) : Host.Outcome State Fault Refusal :=
  .next (issue c 1 noSlot (fun s => .done ((s.setCore c { s.core c with st := .asking }).ask p (coreReq c)) 1) s)

/-- ASKE (R253). -/
def execCAske (c : CoreId) (p : BitVec 3) (s : State) : Host.Outcome State Fault Refusal :=
  .next (issue c 1 legal (fun s => .done (s.fin p (coreReq c)) 0) s)

/-! ### The gather and the special registers (R254, R255) -/

/-- SNAP (R254): the gather ends with SNAP_COMPLETE, which counts the rest of its slots. -/
def snapOp (c : CoreId) (d x : Reg) (s : State) : Effect :=
  let a := (s.core c).reg x
  if a.getLsbD 0 then .trap (Trap.misalign a)
  else match snapOutside a.toNat s with
    | some b => .trap (Trap.unmapped (BitVec.ofNat 16 b))
    | none => .done (s.setCore c { s.core c with busy := some (.snap d a s.tie.post.length) }) 0

def execCSnap (c : CoreId) (d x : Reg) (s : State) : Host.Outcome State Fault Refusal := .next (issue c 1 legal (snapOp c d x) s)

/-- MFS (R255, R280). -/
def execCMfs (c : CoreId) (d : Reg) (n : BitVec 4) (s : State) : Host.Outcome State Fault Refusal :=
  .next (issue c 1 (special n) (early c n fun s => .done (s.setCore c ((s.core c).put d ((specialVal c n s).getD 0))) 0) s)

/-- MTS (R255). -/
def execCMts (c : CoreId) (n : BitVec 4) (x : Reg) (s : State) : Host.Outcome State Fault Refusal :=
  .next (issue c 1 (special n) (onCore c fun k => k.putSpecial n (k.reg x)) s)

end Machine
end Sys2Proof
end

