-- ==== Sys2Proof/Machine/Transfer.lean ====
section
/-!
DEFINITION. Control transfers and the return stack (07_core_model.md, R214 to R222; 08_instruction_set.md, R244 to R246).
-/
namespace Sys2Proof
namespace Machine

/-- A push (R221): refused under RSTACK = TRAP when the stack is full. -/
def Core.push (k : Core) (a : Word) : Option Core :=
  if k.rsD = 8 && k.rsTrap then none
  else some { k with rs := k.rs.set k.rsP.val a, rsP := k.rsP + 1, rsD := min (k.rsD + 1) 8, rsWrapped := k.rsWrapped || k.rsD == 8 }

/-- A pop (R221): refused under RSTACK = TRAP when the stack is empty. -/
def Core.pop (k : Core) : Option (Word × Core) :=
  if k.rsD = 0 && k.rsTrap then none
  else some (k.rs.get (k.rsP + 7), { k with rsP := k.rsP + 7, rsD := k.rsD - 1, rsUnder := k.rsUnder || k.rsD == 0 })

/-- A jump: the delay slot comes next (R214). -/
def Core.jump (k : Core) (t : Word) : Core := { k with xfer := some (some t) }

/-- A branch that is not taken still has its delay slot. -/
def Core.fall (k : Core) : Core := { k with xfer := some none }

/-- A conditional branch takes its condition as it issues (R246). -/
def branch (c : CoreId) (cc : Cond) (off : BitVec 8) : State → Effect :=
  onCore c fun k => if k.holds cc then k.jump (k.pc + sext8 off) else k.fall

/-- A jump to an address read as it issues. -/
def jumpTo (c : CoreId) (t : Core → Word) : State → Effect := onCore c fun k => k.jump (t k)

/-- A call: the return address is the word after the delay slot (R216). -/
def callTo (c : CoreId) (t : Core → Word) (s : State) : Effect :=
  let k := s.core c
  match k.push (k.pc + 1) with
  | some k' => .done (s.setCore c { (k'.jump (t k)) with call := true }) 0
  | none => .trap Trap.rsOver

/-- A return. -/
def returnOp (c : CoreId) (s : State) : Effect :=
  match (s.core c).pop with
  | some (a, k) => .done (s.setCore c (k.jump a)) 0
  | none => .trap Trap.rsUnder

/-- BCC (R244, R245, R280): an early read of ST but by AL, which reads nothing. -/
def execCBcc (c : CoreId) (cc : Cond) (off : BitVec 8) (s : State) : Host.Outcome State Fault Refusal :=
  .next (issue c 1 noSlot (if cc = .al then branch c cc off else early c 0 (branch c cc off)) s)

/-- CALL (R244). -/
def execCCall (c : CoreId) (off : BitVec 11) (s : State) : Host.Outcome State Fault Refusal :=
  .next (issue c 1 noSlot (callTo c fun k => k.pc + sext11 off) s)

/-- JMP (R244). -/
def execCJmp (c : CoreId) (v : Word) (s : State) : Host.Outcome State Fault Refusal :=
  .next (issue c 2 noSlot (jumpTo c fun _ => v) s)

/-- CALL_ABS (R244). -/
def execCCallAbs (c : CoreId) (v : Word) (s : State) : Host.Outcome State Fault Refusal :=
  .next (issue c 2 noSlot (callTo c fun _ => v) s)

/-- JR (R244). -/
def execCJr (c : CoreId) (x : Reg) (s : State) : Host.Outcome State Fault Refusal :=
  .next (issue c 1 noSlot (jumpTo c fun k => k.reg x) s)

/-- CALLR (R244). -/
def execCCallr (c : CoreId) (x : Reg) (s : State) : Host.Outcome State Fault Refusal :=
  .next (issue c 1 noSlot (callTo c fun k => k.reg x) s)

/-- RET (R244). -/
def execCRet (c : CoreId) (s : State) : Host.Outcome State Fault Refusal :=
  .next (issue c 1 noSlot (returnOp c) s)

end Machine
end Sys2Proof
end

