-- ==== Sys2Proof/Machine/Dispatch.lean ====
section
/-!
DEFINITION. What each command does: one arm for each constructor.
-/
namespace Sys2Proof
namespace Machine

def exec (i : Instr) (s : State) : Host.Outcome State Fault Refusal :=
  match i with
  | .sourceQualify src => Sys2Proof.Machine.execSourceQualify src s
  | .sourceLoss src => Sys2Proof.Machine.execSourceLoss src s
  | .selectorHoldEnd => Sys2Proof.Machine.execSelectorHoldEnd s
  | .flybackStart => Sys2Proof.Machine.execFlybackStart s
  | .flybackStop => Sys2Proof.Machine.execFlybackStop s
  | .flybackSwitchingStart => Sys2Proof.Machine.execFlybackSwitchingStart s
  | .flybackVddpLow => Sys2Proof.Machine.execFlybackVddpLow s
  | .flybackFault cause => Sys2Proof.Machine.execFlybackFault cause s
  | .flybackRestart cooled => Sys2Proof.Machine.execFlybackRestart cooled s
  | .xCapDischarge => Sys2Proof.Machine.execXCapDischarge s
  | .vehOvervoltage above => Sys2Proof.Machine.execVehOvervoltage above s
  | .hvsecOvervoltage above => Sys2Proof.Machine.execHvsecOvervoltage above s
  | .harvTrackingSample voc store => Sys2Proof.Machine.execHarvTrackingSample voc store s
  | .prechargeEnd => Sys2Proof.Machine.execPrechargeEnd s
  | .coldStarterHandover => Sys2Proof.Machine.execColdStarterHandover s
  | .storeTargetReached reached => Sys2Proof.Machine.execStoreTargetReached reached s
  | .storeOvervoltage above => Sys2Proof.Machine.execStoreOvervoltage above s
  | .storeStartThreshold => Sys2Proof.Machine.execStoreStartThreshold s
  | .powerGood => Sys2Proof.Machine.execPowerGood s
  | .brownout => Sys2Proof.Machine.execBrownout s
  | .islandSupplySwitch toCell => Sys2Proof.Machine.execIslandSupplySwitch toCell s
  | .cellLow => Sys2Proof.Machine.execCellLow s
  | .cellChargeChange on => Sys2Proof.Machine.execCellChargeChange on s
  | .cellOvervoltage => Sys2Proof.Machine.execCellOvervoltage s
  | .vout3CurrentLimit => Sys2Proof.Machine.execVout3CurrentLimit s
  | .vout3ModeWrite v => Sys2Proof.Machine.execVout3ModeWrite v s
  | .derzorOvertemp above => Sys2Proof.Machine.execDerzorOvertemp above s
  | .backupIslandReset => Sys2Proof.Machine.execBackupIslandReset s
  | .countMessage din dout mv lost => Sys2Proof.Machine.execCountMessage din dout mv lost s
  | .ledgerCount => Sys2Proof.Machine.execLedgerCount s
  | .ledgerCorrection => Sys2Proof.Machine.execLedgerCorrection s
  | .storeCounterSat => Sys2Proof.Machine.execStoreCounterSat s
  | .permitRequest lost => Sys2Proof.Machine.execPermitRequest lost s
  | .deferTimeout => Sys2Proof.Machine.execDeferTimeout s
  | .permitWithdraw => Sys2Proof.Machine.execPermitWithdraw s
  | .holdRelease => Sys2Proof.Machine.execHoldRelease s
  | .holdTimeout => Sys2Proof.Machine.execHoldTimeout s
  | .permitAnswer => Sys2Proof.Machine.execPermitAnswer s
  | .ledgerCaptureRead => Sys2Proof.Machine.execLedgerCaptureRead s
  | .availCaptureRead => Sys2Proof.Machine.execAvailCaptureRead s
  | .tick cal offsetFault => Sys2Proof.Machine.execTick cal offsetFault s
  | .crystalStop => Sys2Proof.Machine.execCrystalStop s
  | .crystalRun => Sys2Proof.Machine.execCrystalRun s
  | .rcTrim => Sys2Proof.Machine.execRcTrim s
  | .tickCaptureRead sub => Sys2Proof.Machine.execTickCaptureRead sub s
  | .courseStart sub => Sys2Proof.Machine.execCourseStart sub s
  | .courseWindowOpen blk => Sys2Proof.Machine.execCourseWindowOpen blk s
  | .courseWindowClose blk => Sys2Proof.Machine.execCourseWindowClose blk s
  | .courseTimeUp sub => Sys2Proof.Machine.execCourseTimeUp sub s
  | .courseStall => Sys2Proof.Machine.execCourseStall s
  | .contractRecordPop => Sys2Proof.Machine.execContractRecordPop s
  | .drainBoundExpiry => Sys2Proof.Machine.execDrainBoundExpiry s
  | .sleepEntryGate => Sys2Proof.Machine.execSleepEntryGate s
  | .latchedFreeze => Sys2Proof.Machine.execLatchedFreeze s
  | .sealedEntry => Sys2Proof.Machine.execSealedEntry s
  | .wakeLandEdge land => Sys2Proof.Machine.execWakeLandEdge land s
  | .portActivityDetect p => Sys2Proof.Machine.execPortActivityDetect p s
  | .hingeClockActivity => Sys2Proof.Machine.execHingeClockActivity s
  | .wakeLeaveAnswer => Sys2Proof.Machine.execWakeLeaveAnswer s
  | .wakeComplete => Sys2Proof.Machine.execWakeComplete s
  | .latchedWakeComplete => Sys2Proof.Machine.execLatchedWakeComplete s
  | .sealedWake src storeOk => Sys2Proof.Machine.execSealedWake src storeOk s
  | .ashlarReloadEnd => Sys2Proof.Machine.execAshlarReloadEnd s
  | .warmReset who => Sys2Proof.Machine.execWarmReset who s
  | .bootVerifyEnd => Sys2Proof.Machine.execBootVerifyEnd s
  | .slotQuery => Sys2Proof.Machine.execSlotQuery s
  | .slotOpen => Sys2Proof.Machine.execSlotOpen s
  | .slotWrite => Sys2Proof.Machine.execSlotWrite s
  | .slotClose => Sys2Proof.Machine.execSlotClose s
  | .slotCommit => Sys2Proof.Machine.execSlotCommit s
  | .slotAbort => Sys2Proof.Machine.execSlotAbort s
  | .slotUnstage => Sys2Proof.Machine.execSlotUnstage s
  | .storeServiceReply p => Sys2Proof.Machine.execStoreServiceReply p s
  | .cAdd c d x t => Sys2Proof.Machine.execCAdd c d x t s
  | .cSub c d x t => Sys2Proof.Machine.execCSub c d x t s
  | .cMov c d x => Sys2Proof.Machine.execCMov c d x s
  | .cAnd c d x => Sys2Proof.Machine.execCAnd c d x s
  | .cOr c d x => Sys2Proof.Machine.execCOr c d x s
  | .cXor c d x => Sys2Proof.Machine.execCXor c d x s
  | .cAdc c d x => Sys2Proof.Machine.execCAdc c d x s
  | .cSbc c d x => Sys2Proof.Machine.execCSbc c d x s
  | .cCmp c d x => Sys2Proof.Machine.execCCmp c d x s
  | .cTst c d x => Sys2Proof.Machine.execCTst c d x s
  | .cNot c d x => Sys2Proof.Machine.execCNot c d x s
  | .cNeg c d x => Sys2Proof.Machine.execCNeg c d x s
  | .cShl c d x => Sys2Proof.Machine.execCShl c d x s
  | .cShr c d x => Sys2Proof.Machine.execCShr c d x s
  | .cSar c d x => Sys2Proof.Machine.execCSar c d x s
  | .cRol c d x => Sys2Proof.Machine.execCRol c d x s
  | .cSwpb c d x => Sys2Proof.Machine.execCSwpb c d x s
  | .cSexb c d x => Sys2Proof.Machine.execCSexb c d x s
  | .cLdi c d imm => Sys2Proof.Machine.execCLdi c d imm s
  | .cAddi c d imm => Sys2Proof.Machine.execCAddi c d imm s
  | .cShli c d n => Sys2Proof.Machine.execCShli c d n s
  | .cShri c d n => Sys2Proof.Machine.execCShri c d n s
  | .cSari c d n => Sys2Proof.Machine.execCSari c d n s
  | .cRoli c d n => Sys2Proof.Machine.execCRoli c d n s
  | .cLdw c d v => Sys2Proof.Machine.execCLdw c d v s
  | .cAddw c d x v => Sys2Proof.Machine.execCAddw c d x v s
  | .cAndw c d x v => Sys2Proof.Machine.execCAndw c d x v s
  | .cOrw c d x v => Sys2Proof.Machine.execCOrw c d x v s
  | .cXorw c d x v => Sys2Proof.Machine.execCXorw c d x v s
  | .cCmpw c x v => Sys2Proof.Machine.execCCmpw c x v s
  | .cLd c d b u => Sys2Proof.Machine.execCLd c d b u s
  | .cSt c d b u => Sys2Proof.Machine.execCSt c d b u s
  | .cLdb c d b u => Sys2Proof.Machine.execCLdb c d b u s
  | .cStb c d b u => Sys2Proof.Machine.execCStb c d b u s
  | .cLdx c d b v => Sys2Proof.Machine.execCLdx c d b v s
  | .cStx c d b v => Sys2Proof.Machine.execCStx c d b v s
  | .cLdbx c d b v => Sys2Proof.Machine.execCLdbx c d b v s
  | .cStbx c d b v => Sys2Proof.Machine.execCStbx c d b v s
  | .cLdp c d x => Sys2Proof.Machine.execCLdp c d x s
  | .cLdpx c d b v => Sys2Proof.Machine.execCLdpx c d b v s
  | .cIn c d x => Sys2Proof.Machine.execCIn c d x s
  | .cOut c d x => Sys2Proof.Machine.execCOut c d x s
  | .cInImm c d a => Sys2Proof.Machine.execCInImm c d a s
  | .cOutImm c d a => Sys2Proof.Machine.execCOutImm c d a s
  | .cSetbImm c n a => Sys2Proof.Machine.execCSetbImm c n a s
  | .cClrbImm c n a => Sys2Proof.Machine.execCClrbImm c n a s
  | .cSetb c n x => Sys2Proof.Machine.execCSetb c n x s
  | .cClrb c n x => Sys2Proof.Machine.execCClrb c n x s
  | .cBcc c cc off => Sys2Proof.Machine.execCBcc c cc off s
  | .cCall c off => Sys2Proof.Machine.execCCall c off s
  | .cJmp c v => Sys2Proof.Machine.execCJmp c v s
  | .cCallAbs c v => Sys2Proof.Machine.execCCallAbs c v s
  | .cJr c x => Sys2Proof.Machine.execCJr c x s
  | .cCallr c x => Sys2Proof.Machine.execCCallr c x s
  | .cRet c => Sys2Proof.Machine.execCRet c s
  | .cMul c x t => Sys2Proof.Machine.execCMul c x t s
  | .cMuls c x t => Sys2Proof.Machine.execCMuls c x t s
  | .cMac c x t => Sys2Proof.Machine.execCMac c x t s
  | .cMacu c x t => Sys2Proof.Machine.execCMacu c x t s
  | .cDiv c x t => Sys2Proof.Machine.execCDiv c x t s
  | .cDivs c x t => Sys2Proof.Machine.execCDivs c x t s
  | .cFadd c x t => Sys2Proof.Machine.execCFadd c x t s
  | .cFsub c x t => Sys2Proof.Machine.execCFsub c x t s
  | .cFmul c x t => Sys2Proof.Machine.execCFmul c x t s
  | .cFfma c x t => Sys2Proof.Machine.execCFfma c x t s
  | .cFdiv c x t => Sys2Proof.Machine.execCFdiv c x t s
  | .cFsqrt c x => Sys2Proof.Machine.execCFsqrt c x s
  | .cFcvt c x k => Sys2Proof.Machine.execCFcvt c x k s
  | .cFcmp c x t => Sys2Proof.Machine.execCFcmp c x t s
  | .auResultLand c => Sys2Proof.Machine.execAuResultLand c s
  | .cNop c => Sys2Proof.Machine.execCNop c s
  | .cEndt c sub => Sys2Proof.Machine.execCEndt c sub s
  | .cPoll c d => Sys2Proof.Machine.execCPoll c d s
  | .cWaitev c x => Sys2Proof.Machine.execCWaitev c x s
  | .cWaitevImm c mask => Sys2Proof.Machine.execCWaitevImm c mask s
  | .waitevEnd c => Sys2Proof.Machine.execWaitevEnd c s
  | .cAskp c k => Sys2Proof.Machine.execCAskp c k s
  | .cAske c k => Sys2Proof.Machine.execCAske c k s
  | .cSnap c d x => Sys2Proof.Machine.execCSnap c d x s
  | .snapComplete c fail => Sys2Proof.Machine.execSnapComplete c fail s
  | .cMfs c d n => Sys2Proof.Machine.execCMfs c d n s
  | .cMts c n x => Sys2Proof.Machine.execCMts c n x s
  | .undefinedInstruction c two => Sys2Proof.Machine.execUndefinedInstruction c two s
  | .tieReadComplete who fail => Sys2Proof.Machine.execTieReadComplete who fail s
  | .tieWriteDeliver parity => Sys2Proof.Machine.execTieWriteDeliver parity s
  | .tieWriteTimeout => Sys2Proof.Machine.execTieWriteTimeout s
  | .tieLateFaultPop => Sys2Proof.Machine.execTieLateFaultPop s
  | .registerWrite who a v => Sys2Proof.Machine.execRegisterWrite who a v s
  | .pinInputChange pin level => Sys2Proof.Machine.execPinInputChange pin level s
  | .sourcePulseEnd src => Sys2Proof.Machine.execSourcePulseEnd src s
  | .cellDelayExpiry n => Sys2Proof.Machine.execCellDelayExpiry n s
  | .cellPulseEnd n => Sys2Proof.Machine.execCellPulseEnd n s
  | .cellLatchClear who a v => Sys2Proof.Machine.execCellLatchClear who a v s
  | .mortarSoftWrite who a v => Sys2Proof.Machine.execMortarSoftWrite who a v s
  | .vioLoss bank => Sys2Proof.Machine.execVioLoss bank s
  | .vioReturn bank => Sys2Proof.Machine.execVioReturn bank s
  | .pinOutputWrite who g v => Sys2Proof.Machine.execPinOutputWrite who g v s
  | .pinEnableWrite who g v => Sys2Proof.Machine.execPinEnableWrite who g v s
  | .ashlarWindowWrite c a bytes => Sys2Proof.Machine.execAshlarWindowWrite c a bytes s
  | .ashlarCommitWrite c => Sys2Proof.Machine.execAshlarCommitWrite c s
  | .ashlarCommitPerform c => Sys2Proof.Machine.execAshlarCommitPerform c s
  | .ashlarGo c => Sys2Proof.Machine.execAshlarGo c s
  | .ashlarSearchLand c => Sys2Proof.Machine.execAshlarSearchLand c s
  | .ashlarStepWrite c => Sys2Proof.Machine.execAshlarStepWrite c s
  | .ashlarStepLand c => Sys2Proof.Machine.execAshlarStepLand c s
  | .ashlarScrubRead => Sys2Proof.Machine.execAshlarScrubRead s
  | .ashlarSelfTestEnd fail => Sys2Proof.Machine.execAshlarSelfTestEnd fail s
  | .channel0Search => Sys2Proof.Machine.execChannel0Search s
  | .canFrameAccept f own sub => Sys2Proof.Machine.execCanFrameAccept f own sub s
  | .canFdfIgnore => Sys2Proof.Machine.execCanFdfIgnore s
  | .canReplyTransmit => Sys2Proof.Machine.execCanReplyTransmit s
  | .canReplySent => Sys2Proof.Machine.execCanReplySent s
  | .canReplyWindowExpiry => Sys2Proof.Machine.execCanReplyWindowExpiry s
  | .canBusError tec rxe busOff => Sys2Proof.Machine.execCanBusError tec rxe busOff s
  | .canBusOffRecover who v => Sys2Proof.Machine.execCanBusOffRecover who v s
  | .canListenWrite who v => Sys2Proof.Machine.execCanListenWrite who v s
  | .canReplySlotArm who k v => Sys2Proof.Machine.execCanReplySlotArm who k v s
  | .canReplySlotDisarm who k v => Sys2Proof.Machine.execCanReplySlotDisarm who k v s
  | .canInConsume who v => Sys2Proof.Machine.execCanInConsume who v s
  | .btrefLoss => Sys2Proof.Machine.execBtrefLoss s
  | .btrefRecover => Sys2Proof.Machine.execBtrefRecover s
  | .portPoll p => Sys2Proof.Machine.execPortPoll p s
  | .portWrite p opcode tag len rest fmtOk => Sys2Proof.Machine.execPortWrite p opcode tag len rest fmtOk s
  | .portRead p whole => Sys2Proof.Machine.execPortRead p whole s
  | .portStatus p => Sys2Proof.Machine.execPortStatus p s
  | .portUnknownCommand p b => Sys2Proof.Machine.execPortUnknownCommand p b s
  | .portUIdleGap => Sys2Proof.Machine.execPortUIdleGap s
  | .mailboxInRelease p => Sys2Proof.Machine.execMailboxInRelease p s
  | .mailboxOutPost p => Sys2Proof.Machine.execMailboxOutPost p s
  | .vaultAppend c len => Sys2Proof.Machine.execVaultAppend c len s
  | .vaultAppendCopyDone c => Sys2Proof.Machine.execVaultAppendCopyDone c s
  | .vaultFlushAgeExpiry => Sys2Proof.Machine.execVaultFlushAgeExpiry s
  | .vaultPageProgramStart => Sys2Proof.Machine.execVaultPageProgramStart s
  | .vaultProgramEnd id attempts ok => Sys2Proof.Machine.execVaultProgramEnd id attempts ok s
  | .vaultGapRecord => Sys2Proof.Machine.execVaultGapRecord s
  | .vaultRelease who v => Sys2Proof.Machine.execVaultRelease who v s
  | .vaultMountEnd => Sys2Proof.Machine.execVaultMountEnd s
  | .vaultLateFaultPop => Sys2Proof.Machine.execVaultLateFaultPop s
  | .vaultAseqCapture c => Sys2Proof.Machine.execVaultAseqCapture c s
  | .lastGaspSeal => Sys2Proof.Machine.execLastGaspSeal s
  | .touchFrameDue => Sys2Proof.Machine.execTouchFrameDue s
  | .touchFrameStart => Sys2Proof.Machine.execTouchFrameStart s
  | .touchFrameEnd raw noise cand sub => Sys2Proof.Machine.execTouchFrameEnd raw noise cand sub s
  | .touchStuckReset g sub => Sys2Proof.Machine.execTouchStuckReset g sub s
  | .touchRateStep sub => Sys2Proof.Machine.execTouchRateStep sub s
  | .touchReacquire who => Sys2Proof.Machine.execTouchReacquire who s
  | .touchChgForce who v => Sys2Proof.Machine.execTouchChgForce who v s
  | .touchResultCapture => Sys2Proof.Machine.execTouchResultCapture s
  | .sentinelScanDue => Sys2Proof.Machine.execSentinelScanDue s
  | .sentinelScanEnd raw noise => Sys2Proof.Machine.execSentinelScanEnd raw noise s
  | .paneUp who => Sys2Proof.Machine.execPaneUp who s
  | .paneDown who => Sys2Proof.Machine.execPaneDown who s
  | .paneClr who => Sys2Proof.Machine.execPaneClr who s
  | .paneRailChange rail good isOff => Sys2Proof.Machine.execPaneRailChange rail good isOff s
  | .paneRailWindowExpiry => Sys2Proof.Machine.execPaneRailWindowExpiry s
  | .paneFrameStart => Sys2Proof.Machine.execPaneFrameStart s
  | .paneLineStart => Sys2Proof.Machine.execPaneLineStart s
  | .paneFrameEnd => Sys2Proof.Machine.execPaneFrameEnd s
  | .paneStale => Sys2Proof.Machine.execPaneStale s
  | .ledSinkSet who n code => Sys2Proof.Machine.execLedSinkSet who n code s
  | .ledSinkOutOfRegulation n => Sys2Proof.Machine.execLedSinkOutOfRegulation n s
  | .sillSampleInstant sub => Sys2Proof.Machine.execSillSampleInstant sub s
  | .sillBurstLand sh shClip cmBad aux temp => Sys2Proof.Machine.execSillBurstLand sh shClip cmBad aux temp s
  | .sillTempLand t => Sys2Proof.Machine.execSillTempLand t s
  | .sillShuntPop => Sys2Proof.Machine.execSillShuntPop s
  | .sillCtlWrite who v => Sys2Proof.Machine.execSillCtlWrite who v s
  | .sillAuxCapture n => Sys2Proof.Machine.execSillAuxCapture n s
  | .sillResumeCapture hi => Sys2Proof.Machine.execSillResumeCapture hi s
  | .storeChargeCapture hi => Sys2Proof.Machine.execStoreChargeCapture hi s
  | .calendarTick => Sys2Proof.Machine.execCalendarTick s
  | .calendarLoad who => Sys2Proof.Machine.execCalendarLoad who s
  | .calendarCapture => Sys2Proof.Machine.execCalendarCapture s
  | .floorRaise who v => Sys2Proof.Machine.execFloorRaise who v s
  | .floorProgramEnd => Sys2Proof.Machine.execFloorProgramEnd s
  | .cryptoJobStart c v => Sys2Proof.Machine.execCryptoJobStart c v s
  | .cryptoJobEnd => Sys2Proof.Machine.execCryptoJobEnd s
  | .rngRead => Sys2Proof.Machine.execRngRead s
  | .rngHealthFail => Sys2Proof.Machine.execRngHealthFail s
  | .rngRestart who => Sys2Proof.Machine.execRngRestart who s
  | .hingeId hdrOk => Sys2Proof.Machine.execHingeId hdrOk s
  | .hingeRead space a hdrOk => Sys2Proof.Machine.execHingeRead space a hdrOk s
  | .hingeWrite space a v hdrOk dataOk => Sys2Proof.Machine.execHingeWrite space a v hdrOk dataOk s
  | .hingeChallenge rnd => Sys2Proof.Machine.execHingeChallenge rnd s
  | .hingeOpen => Sys2Proof.Machine.execHingeOpen s
  | .hingeSessionCheckEnd => Sys2Proof.Machine.execHingeSessionCheckEnd s
  | .hingeClose => Sys2Proof.Machine.execHingeClose s
  | .hingeHalt c => Sys2Proof.Machine.execHingeHalt c s
  | .coreHalted c => Sys2Proof.Machine.execCoreHalted c s
  | .hingeResume c => Sys2Proof.Machine.execHingeResume c s
  | .hingeStep c => Sys2Proof.Machine.execHingeStep c s
  | .hingeSchedWrite c on => Sys2Proof.Machine.execHingeSchedWrite c on s
  | .hingePcWrite c v => Sys2Proof.Machine.execHingePcWrite c v s
  | .hingeReset v => Sys2Proof.Machine.execHingeReset v s
  | .otpProg => Sys2Proof.Machine.execOtpProg s
  | .otpProgEnd => Sys2Proof.Machine.execOtpProgEnd s
  | .lifecycleLock => Sys2Proof.Machine.execLifecycleLock s
  | .lifecycleRetire => Sys2Proof.Machine.execLifecycleRetire s
  | .fetchCountCapture c => Sys2Proof.Machine.execFetchCountCapture c s
  | .canBusIntegration => Sys2Proof.Machine.execCanBusIntegration s
  | .canBusOffRecoveryEnd => Sys2Proof.Machine.execCanBusOffRecoveryEnd s
  | .ledSinkBackInRegulation n => Sys2Proof.Machine.execLedSinkBackInRegulation n s
  | .cellPresent => Sys2Proof.Machine.execCellPresent s
  | .coldStarterStart => Sys2Proof.Machine.execColdStarterStart s
  | .entryBuckMargin met => Sys2Proof.Machine.execEntryBuckMargin met s
  | .rngRefillEnd w => Sys2Proof.Machine.execRngRefillEnd w s
  | .hingeUnknownCommand cmd hdrOk => Sys2Proof.Machine.execHingeUnknownCommand cmd hdrOk s
  | .portUFramingError => Sys2Proof.Machine.execPortUFramingError s

end Machine
end Sys2Proof
end

