-- ==== Sys2Proof/Safety.lean ====
section
/-!
DEFINITION. What a sound state is, in the terms the statements use: every byte store in canonical form, every bounded queue
within its bound, every ranged counter within its range.
-/
namespace Sys2Proof
namespace Machine

/-- The bytes of data space are in canonical form (R282). -/
def Memory.sound (m : Memory) : Prop := Bytes.wf 0 m.bytes = true

/-- The post buffer and the late-fault queue hold at most eight entries each (R295, R298). -/
def Tie.sound (t : Tie) : Prop := t.post.length ≤ 8 ∧ t.lf.length ≤ 8

/-- The Vault's store is in canonical form (R358). -/
def Vault.sound (v : Vault) : Prop := Bytes.wf 0xFF v.store = true

/-- Both slots of the structure store are in canonical form (R179). -/
def Store.sound (i : Store) : Prop :=
  (Bytes.wf 0xFF i.slot0.code = true ∧ Bytes.wf 0xFF i.slot0.str = true) ∧ (Bytes.wf 0xFF i.slot1.code = true ∧ Bytes.wf 0xFF i.slot1.str = true)

/-- The ledger lies within its bounds (R27, R69). -/
def Porter.sound (p : Porter) : Prop := p.ledger ≤ ledgerTop

/-- At most eight contract records wait (R158). -/
def CourseEngine.sound (c : CourseEngine) : Prop := c.recs.length ≤ 8

/-- At most 64 codes wait in the Sill's queue (R495). -/
def Sill.sound (x : Sill) : Prop := x.queue.length ≤ 64

/-- At most four accepted frames wait for channel 0 (R404). -/
def PortC.sound (p : PortC) : Prop := p.rxq.length ≤ 4

/-- The return stack's depth is at most eight (R221). -/
def Core.sound (k : Core) : Prop := k.rsD ≤ 8

/-- A sound state. -/
def State.Inv (s : State) : Prop :=
  s.mem.sound ∧ s.tie.sound ∧ s.vlt.sound ∧ s.img.sound ∧ s.por.sound ∧ s.crs.sound ∧ s.sill.sound ∧ s.pc.sound ∧
    s.coreA.sound ∧ s.coreB.sound

/-- What the Mortar's settling may change between s and t (R307 to R317, R323, R324): line levels and cells, latches of the event
views, occurrences that fall due, records of the trigger lines, what the Pane's lines say, and a sleep entry that a WR line
abandons. Everything else is as it was. -/
def Settled (s t : State) : Prop :=
  t = { s with mrt := t.mrt, coreA := t.coreA, coreB := t.coreB, crs := t.crs, vlt := t.vlt, pane := t.pane, pwr := t.pwr } ∧
  t.coreA = { s.coreA with lat := t.coreA.lat, ovf := t.coreA.ovf, hit := t.coreA.hit } ∧
  t.coreB = { s.coreB with lat := t.coreB.lat, ovf := t.coreB.ovf, hit := t.coreB.hit } ∧
  t.crs = { s.crs with pend := t.crs.pend, recs := t.crs.recs, stat := t.crs.stat, skipCnt := t.crs.skipCnt, forced := t.crs.forced } ∧
  t.pane = { s.pane with freeze := t.pane.freeze, dark := t.pane.dark } ∧
  t.vlt = { s.vlt with queue := t.vlt.queue, seg := t.vlt.seg, seq := t.vlt.seq, acc := t.vlt.acc, shed := t.vlt.shed,
                       thinned := t.vlt.thinned, gaps := t.vlt.gaps, gapAt := t.vlt.gapAt, gapCnt := t.vlt.gapCnt,
                       thinCtr := t.vlt.thinCtr } ∧
  t.mrt = { s.mrt with pulses := t.mrt.pulses, out := t.mrt.out, lat := t.mrt.lat, look := t.mrt.look, line := t.mrt.line,
                       wait := t.mrt.wait, wr0Abn := t.mrt.wr0Abn, wr1Abn := t.mrt.wr1Abn } ∧
  (t.pwr = s.pwr ∨ ∃ z, s.pwr.phase = .entering z ∧ t.pwr.phase = .awake ∧ t.pwr.abandon = true)

/-- Command i takes s to u and the Mortar then settles: u is the command's own effect. -/
def Does (i : Instr) (s u : State) : Prop := ∃ t, exec i s = .next t ∧ Settled u t

/-! ### Core instructions -/

/-- Core c issues an instruction of `words` words now: it runs, waits for no access, and may issue there (R200, R213). -/
abbrev Ready (c : CoreId) (words : Nat) (s : State) : Prop :=
  s.pwr.phase = .awake ∧ (s.core c).st = .running ∧ (s.core c).busy = none ∧ (c = .b → (s.core c).pc.toNat + words ≤ 0x2000)

/-- The core as its next instruction sees it: every result that is due has landed (R260). -/
def State.seen (s : State) (c : CoreId) : Core := (s.core c).landDue

/-- Reading special register n is no early read that schedule check reports (R280). -/
abbrev NotEarly (k : Core) (n : BitVec 4) : Prop := k.sched = true → ∀ r ∈ k.au.flight, r.aims n = false

/-- Where the core goes on after an instruction that makes no transfer (R214). -/
def Core.following (k : Core) (words : Nat) : Word :=
  match k.xfer with
  | some (some t) => t
  | _ => k.pc + BitVec.ofNat 16 words

/-- A word past a taken transfer's delay slot has been fetched, and is discarded (R217). -/
def Core.discards (k : Core) : Nat :=
  match k.xfer with
  | some (some _) => 1
  | _ => 0

/-- Results in flight after n more slots (R260). -/
def flown (n : Nat) (l : List AuRes) : List AuRes := l.map fun r => { r with left := r.left - n }

/-- k' is k after an instruction of so many words and slots that changes general registers and flags alone: the program counter and
the fetch counter have moved on, the slots have passed for results in flight, and everything else is as it was (R214 to R219, R260).
A core that is being stepped may halt. -/
def Issued (k k' : Core) (words slots : Nat) : Prop :=
  k' = { k with k := k'.k, z := k'.z, n := k'.n, c := k'.c, v := k'.v, pc := k.following words, xfer := none, call := false,
                rs := k'.rs, fcnt := k.fcnt + BitVec.ofNat 32 (words + k.discards), st := k'.st, stepping := k'.stepping,
                haltReq := k'.haltReq, au := { k.au with flight := flown slots k.au.flight } } ∧
  (k.call = false ∨ k.xfer = none ∨ words = 1 → k'.rs = k.rs) ∧
  (k.stepping = false → k'.st = k.st ∧ k'.stepping = false ∧ k'.haltReq = k.haltReq)

/-- The state as an instruction of core c finds it: results landed, the counters moved on. -/
def State.moved (s : State) (c : CoreId) (words : Nat) : State := s.setCore c ((s.seen c).advancePc words)

/-- Nothing but core c changes. -/
def OnlyCore (c : CoreId) (s t : State) : Prop := t = s.setCore c (t.core c)

/-- Register d holds v, and every other general register is as it was. -/
def Puts (k k' : Core) (d : Reg) (v : Word) : Prop := ∀ r, k'.reg r = if r = d then v else k.reg r

/-- Z and N of a result (R203). -/
def ZN (k' : Core) (r : Word) : Prop := k'.z = decide (r = 0) ∧ k'.n = r.getLsbD 15

/-- An instruction of core c issues, changes no state but the core's, and moves on. -/
def RunsIn (c : CoreId) (words slots : Nat) (s t : State) : Prop := OnlyCore c s t ∧ Issued (s.seen c) (t.core c) words slots

/-- The same, at one slot a word. -/
def Runs (c : CoreId) (words : Nat) (s t : State) : Prop := RunsIn c words words s t

/-- The flags are those that the instruction finds as it issues. -/
def KeepsFlags (c : CoreId) (s t : State) : Prop :=
  (t.core c).z = (s.seen c).z ∧ (t.core c).n = (s.seen c).n ∧ (t.core c).c = (s.seen c).c ∧ (t.core c).v = (s.seen c).v

/-- The world outside core c is what u holds once the fabric has settled (R307 to R317). -/
def Beyond (c : CoreId) (u t : State) : Prop := ∃ k w, Settled (u.setCore c k) w ∧ t = w.setCore c (t.core c)

/-- Core c takes trap p on an instruction of `words` words: the records, two slots, the trap door, and nothing else (R228 to R231). -/
def Traps (c : CoreId) (words : Nat) (p : Trap) (s t : State) : Prop :=
  OnlyCore c s t ∧
  t.core c = { s.seen c with
               trapPc := (s.seen c).pc, trapNext := (s.seen c).following words, trapCause := p.cause, trapDetail := p.detail,
               trapSpace := p.space, trapAddr := p.addr, trapDs := (s.seen c).xfer.isSome,
               trapNest := (s.seen c).trapNest || (s.seen c).trapActive, trapActive := true,
               trapCnt := if (s.seen c).trapCnt = 0xFFFF then 0xFFFF else (s.seen c).trapCnt + 1,
               pc := (s.seen c).door, xfer := none, call := false, rs := (t.core c).rs,
               fcnt := (s.seen c).fcnt + BitVec.ofNat 32 (if (s.seen c).xfer.isSome then words + 1 else words),
               st := (t.core c).st, stepping := (t.core c).stepping, haltReq := (t.core c).haltReq,
               au := { (s.seen c).au with flight := flown 2 (s.seen c).au.flight } } ∧
  ((s.seen c).call = false ∨ (s.seen c).xfer = none ∨ words = 1 → (t.core c).rs = (s.core c).rs) ∧
  ((s.seen c).stepping = false →
    (t.core c).st = (s.core c).st ∧ (t.core c).stepping = false ∧ (t.core c).haltReq = (s.core c).haltReq)

/-- The condition of a branch, as R245's table gives it. -/
def Core.meets (k : Core) : Cond → Prop
  | .eq => k.z = true
  | .ne => k.z = false
  | .hs => k.c = true
  | .lo => k.c = false
  | .mi => k.n = true
  | .pl => k.n = false
  | .vs => k.v = true
  | .vc => k.v = false
  | .hi => k.c = true ∧ k.z = false
  | .ls => k.c = false ∨ k.z = true
  | .ge => k.n = k.v
  | .lt => k.n ≠ k.v
  | .gt => k.z = false ∧ k.n = k.v
  | .le => k.z = true ∨ k.n ≠ k.v
  | .al => True

/-- A transfer issues at core c with `target` (none: not taken), and its delay slot comes next (R214). -/
def Transfers (c : CoreId) (words : Nat) (s t : State) (target : Option Word) : Prop :=
  OnlyCore c s t ∧ KeepsFlags c s t ∧ (t.core c).k = (s.core c).k ∧ (t.core c).xfer = some target ∧
  Issued (s.seen c) { t.core c with xfer := none, call := false, rs := (s.core c).rs, rsP := (s.core c).rsP, rsD := (s.core c).rsD,
                                    rsWrapped := (s.core c).rsWrapped, rsUnder := (s.core c).rsUnder } words words

/-- It writes r to d, sets Z and N from r, and C and V as given. -/
def Results (c : CoreId) (words : Nat) (s t : State) (d : Reg) (r : Word) (cf vf : Bool) : Prop :=
  Runs c words s t ∧ Puts (s.core c) (t.core c) d r ∧ ZN (t.core c) r ∧ (t.core c).c = cf ∧ (t.core c).v = vf

/-- A sum or difference that a 16-bit two's-complement word cannot hold (R203). -/
def Overflows (n : Int) : Bool := decide (n < -32768 ∨ 32767 < n)

/-! ### Data space -/

/-- Addresses of plain memory: SRAM and the port mailboxes (R282). -/
abbrev Plain (a : Nat) : Prop := a < 0xD000 ∨ 0xF000 ≤ a

/-- Core c may read the byte, or the word at an even address (R227, R283): SRAM, an entry's bytes in the Ashlar window, the Vault
window, its own mailbox. -/
abbrev Loadable (c : CoreId) (s : State) (a : Nat) : Prop :=
  a < 0xD000 ∨ (0xD000 ≤ a ∧ a < 0xE000 ∧ a % 16 < 10) ∨ (0xE000 ≤ a ∧ a < 0xF000) ∨
    (0xF000 ≤ a ∧ a < 0x10000 ∧ mailboxOwner s ((a - 0xF000) / 0x400) = some c)

/-- Core c may write it: the Vault window and a mailbox's in half are read only. -/
abbrev Storable (c : CoreId) (s : State) (a : Nat) : Prop :=
  a < 0xD000 ∨ (0xD000 ≤ a ∧ a < 0xE000 ∧ a % 16 < 10) ∨
    (0xF000 ≤ a ∧ a < 0x10000 ∧ 0x200 ≤ a % 0x400 ∧ mailboxOwner s ((a - 0xF000) / 0x400) = some c)

/-- No bit error is recorded for the word that holds a byte (R284). -/
abbrev NoError (s : State) (a : Nat) : Prop := ∀ e ∈ s.mem.errs, e.1 ≠ a - a % 2

/-- The address lies in the out half of a port that holds a posted message or a reply of the store service (R394). -/
abbrev Held (s : State) (a : Nat) : Prop :=
  (0xF000 ≤ a ∧ a < 0xF400 ∧ (s.prt.s.posted = true ∨ s.prt.s.svc = true)) ∨
    (0xF400 ≤ a ∧ a < 0xF800 ∧ (s.prt.q.posted = true ∨ s.prt.q.svc = true)) ∨
    (0xF800 ≤ a ∧ a < 0xFC00 ∧ (s.prt.u.posted = true ∨ s.prt.u.svc = true))

end Machine
end Sys2Proof
end

