-- ==== Sys2Proof/Certificates/Slice0/Obligations.lean ====
section
/-!
DEFINITION. The statements that are put to the provers: what each command does where the spec lets it run, what it leaves alone, and
what every step keeps. Each names the rules of the spec that it follows; what rests on a choice of the model says so.
-/
open Sys2Proof Sys2Proof.Machine

/-- A step runs the command at the front of the queue, and on an empty queue changes nothing. For every command i, queue rest and
state s: a step of s with i in front of rest is exec of i on s with rest as its queue. With no command waiting a step answers
the state it took. The queue and the idle step are the model's own (log entry 1). (07_core_model.md,
05_time_without_clock.md) -/
def Obligations.StepRunsTheFrontCommand : Prop :=
  (∀ (i : Instr) (rest : List Instr) (s : State), step { s with pending := i :: rest } = exec i { s with pending := rest }) ∧
    (∀ s : State, s.pending = [] → step s = .next s)

/-- The state before the first supply is sound. Every byte store of State.reset is in canonical form and every bounded queue,
counter and depth lies within its bound. The reset values themselves are the model's where the spec gives none (log entries 2
to 5). (R27, R158, R179, R221, R282, R295, R298, R358, R404, R495) -/
def Obligations.ResetIsSound : Prop :=
  State.reset.Inv

/-- Every step keeps a sound state sound. For every state: if it is sound (data space, the Vault's store and both slots in
canonical form; at most 8 posted writes, 8 late faults, 8 contract records, 64 Sill codes, 4 accepted frames; the ledger
within its bounds; both return stacks at most 8 deep) and a step answers a next state, that state is sound. (R27, R158, R179,
R221, R282, R295, R298, R358, R404, R495) -/
def Obligations.StepKeepsSound : Prop :=
  ∀ s t : State, s.Inv → step s = .next t → t.Inv

/-- No command changes the queue. For every command and state: if exec answers a next state, its queue is the one it was given.
The queue is the model's own (log entry 1). (05_time_without_clock.md) -/
def Obligations.CommandsLeaveTheQueueAlone : Prop :=
  ∀ (i : Instr) (s t : State), exec i s = .next t → t.pending = s.pending

/-- ADD, SUB, ADC, SBC, NEG, ADDI and ADDW: result and all four flags. When a core issues one of these (and schedule check
reports no early read of C for ADC and SBC), exec answers a next state: Kd holds the sum or difference modulo 2^16, C is the
carry out or, for differences, 1 when there is no borrow, V says whether the exact signed value fits, Z and N follow the
result, and nothing else of the part changes but what issuing changes. (R202, R203, R238, R239) -/
def Obligations.SumsAndDifferences : Prop :=
  ∀ (c : CoreId) (d x y : Reg) (s : State),
    (Ready c 1 s →
      (∃ t, exec (.cAdd c d x y) s = .next t ∧
        Results c 1 s t d ((s.core c).reg x + (s.core c).reg y) (BitVec.uaddOverflow ((s.core c).reg x) ((s.core c).reg y))
          (BitVec.saddOverflow ((s.core c).reg x) ((s.core c).reg y))) ∧
      (∃ t, exec (.cSub c d x y) s = .next t ∧
        Results c 1 s t d ((s.core c).reg x - (s.core c).reg y) (!BitVec.usubOverflow ((s.core c).reg x) ((s.core c).reg y))
          (BitVec.ssubOverflow ((s.core c).reg x) ((s.core c).reg y))) ∧
      (∃ t, exec (.cNeg c d x) s = .next t ∧
        Results c 1 s t d (0 - (s.core c).reg x) (decide ((s.core c).reg x = 0)) (decide ((s.core c).reg x = 0x8000))) ∧
      (∀ i : BitVec 8, ∃ t, exec (.cAddi c d i) s = .next t ∧
        Results c 1 s t d ((s.core c).reg d + i.signExtend 16) (BitVec.uaddOverflow ((s.core c).reg d) (i.signExtend 16))
          (BitVec.saddOverflow ((s.core c).reg d) (i.signExtend 16))) ∧
      (NotEarly (s.seen c) 0 →
        (∃ t, exec (.cAdc c d x) s = .next t ∧
          Results c 1 s t d ((s.core c).reg d + (s.core c).reg x + (if (s.seen c).c then 1 else 0))
            (decide (0x10000 ≤ ((s.core c).reg d).toNat + ((s.core c).reg x).toNat + (if (s.seen c).c then 1 else 0)))
            (Overflows (((s.core c).reg d).toInt + ((s.core c).reg x).toInt + (if (s.seen c).c then 1 else 0)))) ∧
        (∃ t, exec (.cSbc c d x) s = .next t ∧
          Results c 1 s t d ((s.core c).reg d - (s.core c).reg x - (if (s.seen c).c then 0 else 1))
            (decide (((s.core c).reg x).toNat + (if (s.seen c).c then 0 else 1) ≤ ((s.core c).reg d).toNat))
            (Overflows (((s.core c).reg d).toInt - ((s.core c).reg x).toInt - (if (s.seen c).c then 0 else 1)))))) ∧
    (Ready c 2 s → ∀ w : Word, ∃ t, exec (.cAddw c d x w) s = .next t ∧
      Results c 2 s t d ((s.core c).reg x + w) (BitVec.uaddOverflow ((s.core c).reg x) w) (BitVec.saddOverflow ((s.core c).reg x) w))

/-- CMP, CMPW and TST set flags and write no register. When a core issues CMP, CMPW or TST, exec answers a next state with every
general register as it was: CMP and CMPW set the four flags of the difference, TST sets Z and N of the AND and leaves C and V
as they stand when the instruction issues; nothing else changes but what issuing changes. (R203, R238, R239) -/
def Obligations.ComparesSetFlagsAlone : Prop :=
  ∀ (c : CoreId) (d x : Reg) (s : State),
    (Ready c 1 s →
      (∃ t, exec (.cCmp c d x) s = .next t ∧ Runs c 1 s t ∧ (t.core c).k = (s.core c).k ∧
        ZN (t.core c) ((s.core c).reg d - (s.core c).reg x) ∧
        (t.core c).c = (!BitVec.usubOverflow ((s.core c).reg d) ((s.core c).reg x)) ∧
        (t.core c).v = BitVec.ssubOverflow ((s.core c).reg d) ((s.core c).reg x)) ∧
      (∃ t, exec (.cTst c d x) s = .next t ∧ Runs c 1 s t ∧ (t.core c).k = (s.core c).k ∧
        ZN (t.core c) ((s.core c).reg d &&& (s.core c).reg x) ∧ (t.core c).c = (s.seen c).c ∧ (t.core c).v = (s.seen c).v)) ∧
    (Ready c 2 s → ∀ w : Word, ∃ t, exec (.cCmpw c x w) s = .next t ∧ Runs c 2 s t ∧ (t.core c).k = (s.core c).k ∧
      ZN (t.core c) ((s.core c).reg x - w) ∧ (t.core c).c = (!BitVec.usubOverflow ((s.core c).reg x) w) ∧
      (t.core c).v = BitVec.ssubOverflow ((s.core c).reg x) w)

/-- AND, OR, XOR, NOT, SWPB, SEXB, ANDW, ORW and XORW: result, Z and N. When a core issues one of these, exec answers a next
state: Kd holds the bitwise result, the swapped bytes or the sign-extended byte, Z and N follow it, C and V stay as they
stand when the instruction issues, and nothing else changes but what issuing changes. (R203, R238, R239) -/
def Obligations.LogicResults : Prop :=
  ∀ (c : CoreId) (d x : Reg) (s : State),
    let keeps := fun (n : Nat) (t : State) (r : Word) => Results c n s t d r (s.seen c).c (s.seen c).v
    (Ready c 1 s →
      (∃ t, exec (.cAnd c d x) s = .next t ∧ keeps 1 t ((s.core c).reg d &&& (s.core c).reg x)) ∧
      (∃ t, exec (.cOr c d x) s = .next t ∧ keeps 1 t ((s.core c).reg d ||| (s.core c).reg x)) ∧
      (∃ t, exec (.cXor c d x) s = .next t ∧ keeps 1 t ((s.core c).reg d ^^^ (s.core c).reg x)) ∧
      (∃ t, exec (.cNot c d x) s = .next t ∧ keeps 1 t (~~~((s.core c).reg x))) ∧
      (∃ t, exec (.cSwpb c d x) s = .next t ∧ keeps 1 t (((s.core c).reg x).rotateLeft 8)) ∧
      (∃ t, exec (.cSexb c d x) s = .next t ∧ keeps 1 t ((((s.core c).reg x).setWidth 8).signExtend 16))) ∧
    (Ready c 2 s → ∀ w : Word,
      (∃ t, exec (.cAndw c d x w) s = .next t ∧ keeps 2 t ((s.core c).reg x &&& w)) ∧
      (∃ t, exec (.cOrw c d x w) s = .next t ∧ keeps 2 t ((s.core c).reg x ||| w)) ∧
      (∃ t, exec (.cXorw c d x w) s = .next t ∧ keeps 2 t ((s.core c).reg x ^^^ w)))

/-- SHL, SHR, SAR, ROL and their immediate forms: result and flags for every count. When a core issues a shift or rotate by
Ks[3:0] or by an immediate, exec answers a next state: Kd holds the shifted or rotated value, Z and N follow it, V is
unchanged, and C is the last bit shifted out (for ROL the bit that entered bit 0), or unchanged where the count is 0; nothing
else changes but what issuing changes. (R238, R239) -/
def Obligations.ShiftsAndRotates : Prop :=
  ∀ (c : CoreId) (d x : Reg) (n : BitVec 4) (s : State), Ready c 1 s →
    let a := (s.core c).reg d
    let m := (((s.core c).reg x).setWidth 4 : BitVec 4)
    let left := fun (k : BitVec 4) => if k = 0 then (s.seen c).c else a.getLsbD (16 - k.toNat)
    let right := fun (k : BitVec 4) => if k = 0 then (s.seen c).c else a.getLsbD (k.toNat - 1)
    let gives := fun (t : State) (r : Word) (cf : Bool) => Results c 1 s t d r cf (s.seen c).v
    (∃ t, exec (.cShl c d x) s = .next t ∧ gives t (a <<< m.toNat) (left m)) ∧
    (∃ t, exec (.cShr c d x) s = .next t ∧ gives t (a >>> m.toNat) (right m)) ∧
    (∃ t, exec (.cSar c d x) s = .next t ∧ gives t (a.sshiftRight m.toNat) (right m)) ∧
    (∃ t, exec (.cRol c d x) s = .next t ∧ gives t (a.rotateLeft m.toNat) (left m)) ∧
    (∃ t, exec (.cShli c d n) s = .next t ∧ gives t (a <<< n.toNat) (left n)) ∧
    (∃ t, exec (.cShri c d n) s = .next t ∧ gives t (a >>> n.toNat) (right n)) ∧
    (∃ t, exec (.cSari c d n) s = .next t ∧ gives t (a.sshiftRight n.toNat) (right n)) ∧
    (∃ t, exec (.cRoli c d n) s = .next t ∧ gives t (a.rotateLeft n.toNat) (left n))

/-- MOV, LDI, LDW and NOP: the register written, no flag changed. When a core issues MOV, LDI or LDW, exec answers a next state
in which Kd holds the source register, the sign-extended byte or the extension word, and the flags stand as when the
instruction issues; NOP writes no register. Nothing else changes but what issuing changes. (R237, R238) -/
def Obligations.MovesKeepFlags : Prop :=
  ∀ (c : CoreId) (d x : Reg) (s : State),
    let keeps := fun (n : Nat) (t : State) => Runs c n s t ∧ (t.core c).z = (s.seen c).z ∧ (t.core c).n = (s.seen c).n ∧
      (t.core c).c = (s.seen c).c ∧ (t.core c).v = (s.seen c).v
    (Ready c 1 s →
      (∃ t, exec (.cMov c d x) s = .next t ∧ keeps 1 t ∧ Puts (s.core c) (t.core c) d ((s.core c).reg x)) ∧
      (∀ i : BitVec 8, ∃ t, exec (.cLdi c d i) s = .next t ∧ keeps 1 t ∧ Puts (s.core c) (t.core c) d (i.signExtend 16)) ∧
      (∃ t, exec (.cNop c) s = .next t ∧ keeps 1 t ∧ (t.core c).k = (s.core c).k)) ∧
    (Ready c 2 s → ∀ w : Word, ∃ t, exec (.cLdw c d w) s = .next t ∧ keeps 2 t ∧ Puts (s.core c) (t.core c) d w)

/-- MFS reads and MTS writes every special register; numbers 9 to 15 trap. MFS Kd, Sn puts ST, MH, ML, QT, RM, FR, FF, EV or PG
in Kd, PG with its live PEND bit, and changes no flag; MTS writes ST's four flags, MH, ML (both into the accumulator chain as
well) or FF[4:0], and changes nothing for S3, S4, S5, S7 and S8; a number above 8 traps ILLEGAL. Under schedule check MFS is
taken where no result in flight aims at Sn. (R203, R224, R226, R236, R248, R255) -/
def Obligations.SpecialRegistersMove : Prop :=
  ∀ (c : CoreId) (d x : Reg) (n : BitVec 4) (s : State), Ready c 1 s →
    let k := s.seen c
    let v := (s.core c).reg x
    (n.toNat < 9 → NotEarly k n → ∃ t r, exec (.cMfs c d n) s = .next t ∧ Runs c 1 s t ∧ KeepsFlags c s t ∧ Puts (s.core c) (t.core c) d r ∧
      (n = 0 → r = BitVec.ofNat 16 (k.z.toNat + 2 * k.n.toNat + 4 * k.c.toNat + 8 * k.v.toNat)) ∧
      (n = 1 → r = k.mh) ∧ (n = 2 → r = k.ml) ∧ (n = 3 → r = k.qt) ∧ (n = 4 → r = k.rm) ∧ (n = 5 → r = k.fr) ∧
      (n = 6 → r = k.ff.setWidth 16) ∧ (n = 7 → r = k.ev) ∧
      (n = 8 → r.setWidth 8 = k.pg ∧ r.getLsbD 8 = s.por.deferred.any (fun e => decide (e.req = coreReq c)) ∧ r >>> 9 = 0)) ∧
    (n.toNat < 9 → ∃ t, exec (.cMts c n x) s = .next t ∧ OnlyCore c s t ∧ (t.core c).k = (s.core c).k ∧
      (n ≠ 0 → KeepsFlags c s t) ∧
      (n = 0 → Issued k (t.core c) 1 1 ∧ (t.core c).z = v.getLsbD 0 ∧ (t.core c).n = v.getLsbD 1 ∧ (t.core c).c = v.getLsbD 2 ∧
        (t.core c).v = v.getLsbD 3) ∧
      (n = 1 → Issued { k with mh := v, au := { k.au with acc := v ++ (k.au.acc.setWidth 16 : Word) } } (t.core c) 1 1) ∧
      (n = 2 → Issued { k with ml := v, au := { k.au with acc := ((k.au.acc >>> 16).setWidth 16 : Word) ++ v } } (t.core c) 1 1) ∧
      (n = 6 → Issued { k with ff := v.setWidth 5 } (t.core c) 1 1) ∧
      (n = 3 ∨ n = 4 ∨ n = 5 ∨ n = 7 ∨ n = 8 → Issued k (t.core c) 1 1)) ∧
    (9 ≤ n.toNat → (∃ t, exec (.cMfs c d n) s = .next t ∧ Traps c 1 (Trap.illegal 0) s t) ∧
      ∃ t, exec (.cMts c n x) s = .next t ∧ Traps c 1 (Trap.illegal 0) s t)

/-- LD, LDB, LDX, LDBX, LDP and LDPX put what lies at their address in Kd. At an address that the core may read (even, for
words), a load answers a next state with Kd holding the little-endian word or the zero-extended byte, no flag changed and no
byte of data memory changed; in plain memory nothing else changes but the error registers, and these only where the word
holds an error. LDP and LDPX put the instruction word of the running image in Kd and change nothing else. (R205, R206, R240,
R241, R258, R282, R285, R292) -/
def Obligations.LoadsReadDataAndCode : Prop :=
  ∀ (c : CoreId) (d b : Reg) (s : State),
    let word := fun (n : Nat) (i : Instr) (a : Word) => a.getLsbD 0 = false → Loadable c s a.toNat →
      ∃ t, exec i s = .next t ∧ (t.core c).pc = (s.seen c).following n ∧ KeepsFlags c s t ∧
        Puts (s.core c) (t.core c) d (dataReadW (.core c) c a.toNat (s.moved c n)).1 ∧ t.mem.bytes = s.mem.bytes ∧
        (Plain a.toNat → Puts (s.core c) (t.core c) d (word2 (Bytes.read 0 s.mem.bytes a.toNat) (Bytes.read 0 s.mem.bytes (a.toNat + 1))) ∧
          t = { s.setCore c (t.core c) with mem := t.mem, free := t.free } ∧ Issued (s.seen c) (t.core c) n n ∧
          (NoError s a.toNat → t.mem = s.mem ∧ t.free = s.free))
    let byte := fun (n : Nat) (i : Instr) (a : Word) => Loadable c s a.toNat →
      ∃ t, exec i s = .next t ∧ (t.core c).pc = (s.seen c).following n ∧ KeepsFlags c s t ∧
        Puts (s.core c) (t.core c) d ((dataReadB (.core c) c a.toNat (s.moved c n)).1.setWidth 16) ∧ t.mem.bytes = s.mem.bytes ∧
        (Plain a.toNat → Puts (s.core c) (t.core c) d ((Bytes.read 0 s.mem.bytes a.toNat).setWidth 16) ∧
          t = { s.setCore c (t.core c) with mem := t.mem, free := t.free } ∧ Issued (s.seen c) (t.core c) n n ∧
          (NoError s a.toNat → t.mem = s.mem ∧ t.free = s.free))
    let code := fun (n : Nat) (i : Instr) (a : Word) => ∃ t, exec i s = .next t ∧ RunsIn c n (n + 1) s t ∧ KeepsFlags c s t ∧
      Puts (s.core c) (t.core c) d (codeWord s a)
    (Ready c 1 s → ∀ u : BitVec 4,
      word 1 (.cLd c d b u) ((s.core c).reg b + 2 * u.setWidth 16) ∧ byte 1 (.cLdb c d b u) ((s.core c).reg b + u.setWidth 16) ∧
      code 1 (.cLdp c d b) ((s.core c).reg b)) ∧
    (Ready c 2 s → ∀ v : Word,
      word 2 (.cLdx c d b v) ((s.core c).reg b + v) ∧ byte 2 (.cLdbx c d b v) ((s.core c).reg b + v) ∧
      code 2 (.cLdpx c d b v) ((s.core c).reg b + v))

/-- ST, STB, STX and STBX change the bytes at their address and no other. At an address that the core may write (even, for
words), a store answers a next state: in plain memory the word's two bytes, low byte first, or the one byte hold Kd, every
other byte reads as before, and no register, flag or block changes; a store into an out half that is posted changes no byte;
a store in the Ashlar window stages bytes in the Ashlar array alone. (R206, R240, R241, R258, R282, R331, R394) -/
def Obligations.StoresWriteTheirBytesAlone : Prop :=
  ∀ (c : CoreId) (d b : Reg) (s : State), s.mem.sound →
    let v := (s.core c).reg d
    let store := fun (n w : Nat) (i : Instr) (a : Word) (at_ : Nat → Byte → Byte) => (w = 2 → a.getLsbD 0 = false) → Storable c s a.toNat →
      ∃ t, exec i s = .next t ∧ (t.core c).pc = (s.seen c).following n ∧ KeepsFlags c s t ∧ (t.core c).k = (s.core c).k ∧
        (Plain a.toNat → t = { s.setCore c (t.core c) with mem := t.mem, free := t.free } ∧ Issued (s.seen c) (t.core c) n n ∧
          ∀ x, Bytes.read 0 t.mem.bytes x = if Held s a.toNat then Bytes.read 0 s.mem.bytes x else at_ x (Bytes.read 0 s.mem.bytes x)) ∧
        (¬ Plain a.toNat → t = { s.setCore c (t.core c) with ash := t.ash } ∧ Issued (s.seen c) (t.core c) n (n + 1))
    let word := fun (n : Nat) (i : Instr) (a : Word) => store n 2 i a fun x old =>
      if x = a.toNat then v.setWidth 8 else if x = a.toNat + 1 then (v >>> 8).setWidth 8 else old
    let byte := fun (n : Nat) (i : Instr) (a : Word) => store n 1 i a fun x old => if x = a.toNat then v.setWidth 8 else old
    (Ready c 1 s → ∀ u : BitVec 4,
      word 1 (.cSt c d b u) ((s.core c).reg b + 2 * u.setWidth 16) ∧ byte 1 (.cStb c d b u) ((s.core c).reg b + u.setWidth 16)) ∧
    (Ready c 2 s → ∀ w : Word, word 2 (.cStx c d b w) ((s.core c).reg b + w) ∧ byte 2 (.cStbx c d b w) ((s.core c).reg b + w))

/-- BCC, JMP and JR set the target that the delay slot leads to. Outside a delay slot, and for a conditional branch with no
comparison in flight that schedule check reports: exec answers a next state in which the program counter stands at the delay
slot, and the transfer is taken to the offset from the next word, to v or to Ks, or, for a branch whose condition the flags
do not meet, is not taken. Registers, flags and return stack are unchanged. (R214, R244, R245, R246) -/
def Obligations.BranchesAndJumpsTakeEffectAfterTheirSlot : Prop :=
  ∀ (c : CoreId) (x : Reg) (s : State),
    let k := s.seen c
    (Ready c 1 s → (s.core c).xfer = none →
      (∀ (cc : Cond) (off : BitVec 8), (cc = .al ∨ NotEarly k 0) → ∃ t o, exec (.cBcc c cc off) s = .next t ∧ Transfers c 1 s t o ∧
        (t.core c).rs = (s.core c).rs ∧ (t.core c).rsP = (s.core c).rsP ∧ (t.core c).rsD = (s.core c).rsD ∧
        (k.meets cc → o = some (k.pc + 1 + off.signExtend 16)) ∧ (¬ k.meets cc → o = none)) ∧
      (∃ t, exec (.cJr c x) s = .next t ∧ Transfers c 1 s t (some ((s.core c).reg x)) ∧
        (t.core c).rs = (s.core c).rs ∧ (t.core c).rsP = (s.core c).rsP ∧ (t.core c).rsD = (s.core c).rsD)) ∧
    (Ready c 2 s → (s.core c).xfer = none → ∀ v : Word, ∃ t, exec (.cJmp c v) s = .next t ∧ Transfers c 2 s t (some v) ∧
      (t.core c).rs = (s.core c).rs ∧ (t.core c).rsP = (s.core c).rsP ∧ (t.core c).rsD = (s.core c).rsD)

/-- CALL, CALL_ABS and CALLR push the word after their slot; RET pops the ring. Outside a delay slot, a call writes the address
after its one-word delay slot at the ring's pointer, moves pointer and depth (at most 8), records WRAPPED when eight were
held, and transfers to its target; RET moves the pointer back, lowers the depth to at least 0, records UNDER when none was
held, and transfers to the entry it meets. A two-word delay slot raises the pushed address by one. Under RSTACK = TRAP this
is said where the stack is not full, and not empty. (R214, R216, R221, R244) -/
def Obligations.CallsPushAndReturnsPop : Prop :=
  ∀ (c : CoreId) (x : Reg) (s : State),
    let k := s.core c
    let calls := fun (n : Nat) (i : Instr) (target : Word) => Ready c n s → k.xfer = none → ¬ (k.rsD = 8 ∧ k.rsTrap = true) →
      ∃ t, exec i s = .next t ∧ Transfers c n s t (some target) ∧ (t.core c).call = true ∧
        (t.core c).rs = k.rs.set k.rsP.val (k.pc + BitVec.ofNat 16 n + 1) ∧ (t.core c).rsP = k.rsP + 1 ∧
        (t.core c).rsD = min (k.rsD + 1) 8 ∧ (t.core c).rsWrapped = (k.rsWrapped || decide (k.rsD = 8)) ∧
        (t.core c).rsUnder = k.rsUnder
    (∀ off : BitVec 11, calls 1 (.cCall c off) (k.pc + 1 + off.signExtend 16)) ∧ (∀ v : Word, calls 2 (.cCallAbs c v) v) ∧
    calls 1 (.cCallr c x) (k.reg x) ∧
    (Ready c 1 s → k.xfer = none → ¬ (k.rsD = 0 ∧ k.rsTrap = true) →
      ∃ t, exec (.cRet c) s = .next t ∧ Transfers c 1 s t (some (k.rs.get (k.rsP + 7))) ∧ (t.core c).rs = k.rs ∧
        (t.core c).rsP = k.rsP + 7 ∧ (t.core c).rsD = k.rsD - 1 ∧ (t.core c).rsUnder = (k.rsUnder || decide (k.rsD = 0)) ∧
        (t.core c).rsWrapped = k.rsWrapped) ∧
    (Ready c 2 s → (∃ o, k.xfer = some o) → k.call = true → ∀ (d : Reg) (v : Word), ∃ t, exec (.cLdw c d v) s = .next t ∧
      (t.core c).rs = k.rs.set (k.rsP + 7).val (k.rs.get (k.rsP + 7) + 1) ∧ (t.core c).rsP = k.rsP ∧ (t.core c).rsD = k.rsD)

/-- Undefined words, transfers in a slot, a full or empty stack, core B above 0x1FFF, early reads: the trap taken. An undefined
word traps ILLEGAL 0; a transfer, ENDT, WAITEV or ASKP in a delay slot ILLEGAL 1; a ninth push and a pop from an empty stack
under RSTACK = TRAP trap RS_OVER and RS_UNDER; core B above i:0x1FFF traps FETCH; an early read under schedule check traps
SCHED. Each writes the trap records, leaves everything in flight running, spends two slots and enters the trap door, with no
other effect. (R215, R221, R228, R229, R230, R236, R280) -/
def Obligations.InstructionsTrapByRank : Prop :=
  ∀ (c : CoreId) (d x : Reg) (s : State),
    let k := s.core c
    (∀ two : Bool, Ready c (if two then 2 else 1) s → ∃ t, exec (.undefinedInstruction c two) s = .next t ∧
      Traps c (if two then 2 else 1) (Trap.illegal 0) s t) ∧
    ((∃ o, k.xfer = some o) →
      (Ready c 1 s → ∀ (cc : Cond) (off : BitVec 8) (off' : BitVec 11) (p : BitVec 3) (sub : BitVec 10),
        ∀ i ∈ ([.cBcc c cc off, .cCall c off', .cJr c x, .cCallr c x, .cRet c, .cEndt c sub, .cWaitev c x, .cAskp c p] : List Instr),
          ∃ t, exec i s = .next t ∧ Traps c 1 (Trap.illegal 1) s t) ∧
      (Ready c 2 s → ∀ (v : Word) (m : BitVec 13), ∀ i ∈ ([.cJmp c v, .cCallAbs c v, .cWaitevImm c m] : List Instr),
        ∃ t, exec i s = .next t ∧ Traps c 2 (Trap.illegal 1) s t)) ∧
    (Ready c 1 s → k.xfer = none → k.rsTrap = true →
      (k.rsD = 8 → ∀ i ∈ ([.cCall c 0, .cCallr c x] : List Instr), ∃ t, exec i s = .next t ∧ Traps c 1 Trap.rsOver s t) ∧
      (k.rsD = 0 → ∃ t, exec (.cRet c) s = .next t ∧ Traps c 1 Trap.rsUnder s t)) ∧
    (s.pwr.phase = .awake → k.st = .running → k.busy = none → c = .b → 0x2000 ≤ k.pc.toNat →
      ∃ t, exec (.cMov c d x) s = .next t ∧ Traps c 1 (Trap.fetch k.pc) s t) ∧
    (Ready c 1 s → k.sched = true → (∃ r ∈ (s.seen c).au.flight, r.aims 0 = true) →
      ∀ i ∈ ([.cAdc c d x, .cSbc c d x, .cMfs c d 0] : List Instr), ∃ t, exec i s = .next t ∧ Traps c 1 (Trap.sched 0) s t)

/-- A misaligned, unmapped or foreign data access traps and changes no byte. A word access at an odd address traps MISALIGN; an
access to a hole of the Ashlar window, a store to the Vault window or to an in half traps UNMAPPED; an access to a mailbox
that the core does not own traps OWNER 1. The trap changes the core's records and program counter alone. (R206, R227, R228,
R229, R241, R283, R587) -/
def Obligations.DataAccessesTrap : Prop :=
  ∀ (c : CoreId) (d b : Reg) (s : State), Ready c 1 s →
    let a := (s.core c).reg b
    (a.getLsbD 0 = true → ∀ i ∈ ([.cLd c d b 0, .cSt c d b 0] : List Instr), ∃ t, exec i s = .next t ∧ Traps c 1 (Trap.misalign a) s t) ∧
    (a.getLsbD 0 = false → 0xD000 ≤ a.toNat → a.toNat < 0xE000 → 10 ≤ a.toNat % 16 →
      ∀ i ∈ ([.cLd c d b 0, .cSt c d b 0, .cLdb c d b 0, .cStb c d b 0] : List Instr), ∃ t, exec i s = .next t ∧ Traps c 1 (Trap.unmapped a) s t) ∧
    (a.getLsbD 0 = false → (0xE000 ≤ a.toNat ∧ a.toNat < 0xF000) ∨ (0xF000 ≤ a.toNat ∧ a.toNat % 0x400 < 0x200) →
      ∀ i ∈ ([.cSt c d b 0, .cStb c d b 0] : List Instr), ∃ t, exec i s = .next t ∧ Traps c 1 (Trap.unmapped a) s t) ∧
    (0xF000 ≤ a.toNat → mailboxOwner s ((a.toNat - 0xF000) / 0x400) ≠ some c →
      (∃ t, exec (.cLdb c d b 0) s = .next t ∧ Traps c 1 (Trap.ownerMailbox a) s t) ∧
      (a.getLsbD 0 = false → ∃ t, exec (.cLd c d b 0) s = .next t ∧ Traps c 1 (Trap.ownerMailbox a) s t) ∧
      (0x200 ≤ a.toNat % 0x400 → ∃ t, exec (.cStb c d b 0) s = .next t ∧ Traps c 1 (Trap.ownerMailbox a) s t))

/-- IN and IN_IMM read a register at once, or over the lane; a failed Derzor-side read leaves 0 and a late fault. A read of a
Shadjaras register puts its value in Kd and takes its read effects; a read of a Derzor-side register waits behind the writes
posted before it, and ends with TIE_READ_COMPLETE, which puts the value in Kd, or 0 with a late-fault entry when the lane
fails; an unmapped address reads 0, or traps UNMAPPED 1 under IO_TRAP. (R17, R208, R211, R242, R243, R296, R298) -/
def Obligations.InReadsIoSpace : Prop :=
  ∀ (c : CoreId) (d x : Reg) (s : State),
    let reads := fun (n : Nat) (i : Instr) (a : BitVec 12) => Ready c n s →
      let s' := s.moved c n
      (derzorRange a.toNat = false → ∀ v, ioVal c a.toNat s' = some v → ∃ t, exec i s = .next t ∧ Puts (s.core c) (t.core c) d v ∧
        (t.core c).pc = (s.seen c).following n ∧ KeepsFlags c s t ∧ Beyond c (ioSide c a.toNat s') t) ∧
      (derzorRange a.toNat = true → ioMapped a.toNat s' = true → ∃ t, exec i s = .next t ∧
        (t.core c).busy = some (.read d a s.tie.post.length) ∧ OnlyCore c s t ∧ (t.core c).k = (s.core c).k ∧ KeepsFlags c s t) ∧
      (ioMapped a.toNat s' = false → (s.core c).ioTrap = false → ∃ t, exec i s = .next t ∧ Runs c n s t ∧
        Puts (s.core c) (t.core c) d 0 ∧ KeepsFlags c s t) ∧
      (ioMapped a.toNat s' = false → (s.core c).ioTrap = true → ∃ t, exec i s = .next t ∧ Traps c n (Trap.unmappedIo false a) s t)
    let entry := fun (a : BitVec 12) (f : TieFail) => ({ addr := a, outcome := if f = .parity then 4 else 5, bitw := false, data := 0,
                                                         stamp := s.crs.tick.setWidth 14, who := if c.isB then 1 else 0 } : LateFault)
    reads 1 (.cIn c d x) (((s.core c).reg x).setWidth 12) ∧ (∀ a : BitVec 12, reads 2 (.cInImm c d a) a) ∧
    (s.mainOn = true → ∀ a : BitVec 12, (s.core c).busy = some (.read d a 0) →
      (∀ v, ioVal c a.toNat s = some v → ∃ t, exec (.tieReadComplete c.who none) s = .next t ∧ Puts (s.core c) (t.core c) d v ∧
        (t.core c).busy = none ∧ Beyond c (ioSide c a.toNat s) t) ∧
      (∀ f : TieFail, s.tie.lf.length < 8 → ∃ t, exec (.tieReadComplete c.who (some f)) s = .next t ∧ Puts (s.core c) (t.core c) d 0 ∧
        (t.core c).busy = none ∧ t.tie.lf = s.tie.lf ++ [entry a f] ∧ t = { s.setCore c (t.core c) with tie.lf := t.tie.lf }))

/-- OUT, OUT_IMM, SETB, CLRB and their immediate forms write at once or post a write, or trap. A write to a Shadjaras register
that the core may write takes its effect there, a bit write leaving RW fields beside the bit as they stand; a write to a
Derzor-side register is posted behind the earlier ones, or ends at once when eight wait; a write to another's register traps
OWNER 2, a trusted pin's TRUST; an unmapped address does nothing, or traps UNMAPPED 2 under IO_TRAP. (R17, R208, R209, R211,
R227, R242, R295, R297, R529) -/
def Obligations.OutAndBitWritesReachTheirRegister : Prop :=
  ∀ (c : CoreId) (d x : Reg) (n : BitVec 4) (s : State),
    let goes := fun (m : Nat) (i : Instr) (a : BitVec 12) (v : Word) (p : PostData) => ∃ t, exec i s = .next t ∧
      (derzorRange a.toNat = false → Beyond c (ioPut c.who a.toNat v (s.moved c m)) t) ∧
      (derzorRange a.toNat = true → Runs c m { s with tie := t.tie } t ∧ (t.core c).k = (s.core c).k ∧ KeepsFlags c s t ∧
        (s.tie.post.length < 8 → t.tie = { s.tie with post := s.tie.post ++ [{ addr := a, data := p, who := c.who }] }) ∧
        (8 ≤ s.tie.post.length → t.tie.post = s.tie.post))
    let writes := fun (m : Nat) (i : Instr) (a : BitVec 12) => Ready c m s →
      let s' := s.moved c m
      let v := (s.core c).reg d
      (ioMapped a.toNat s' = true → ioForeign c a.toNat s' = false → ioTrust c.who a.toNat v s' = none → goes m i a v (.word v)) ∧
      (ioMapped a.toNat s' = true → ioForeign c a.toNat s' = true → ∃ t, exec i s = .next t ∧ Traps c m (Trap.ownerReg a) s t) ∧
      (ioMapped a.toNat s' = true → ioForeign c a.toNat s' = false → ∀ why, ioTrust c.who a.toNat v s' = some why →
        ∃ t, exec i s = .next t ∧ Traps c m (Trap.trust why a) s t) ∧
      (ioMapped a.toNat s' = false → (s.core c).ioTrap = false → ∃ t, exec i s = .next t ∧ Runs c m s t ∧
        (t.core c).k = (s.core c).k ∧ KeepsFlags c s t) ∧
      (ioMapped a.toNat s' = false → (s.core c).ioTrap = true → ∃ t, exec i s = .next t ∧ Traps c m (Trap.unmappedIo true a) s t)
    let bit := fun (m : Nat) (v : Bool) (i : Instr) (a : BitVec 12) => Ready c m s →
      let s' := s.moved c m
      (ioMapped a.toNat s' = true → pinBitTrap c a n v s' = none → ioForeign c a.toNat s' = false →
        goes m i a (bitWord c a.toNat n v s') (.bit n v)) ∧
      (ioMapped a.toNat s' = true → ∀ p, pinBitTrap c a n v s' = some p → ∃ t, exec i s = .next t ∧ Traps c m p s t) ∧
      (ioMapped a.toNat s' = true → pinBitTrap c a n v s' = none → ioForeign c a.toNat s' = true →
        ∃ t, exec i s = .next t ∧ Traps c m (Trap.ownerReg a) s t)
    let ks : BitVec 12 := ((s.core c).reg x).setWidth 12
    writes 1 (.cOut c d x) ks ∧ (∀ a, writes 2 (.cOutImm c d a) a) ∧ bit 1 true (.cSetb c n x) ks ∧ bit 1 false (.cClrb c n x) ks ∧
    (∀ a, bit 2 true (.cSetbImm c n a) a) ∧ ∀ a, bit 2 false (.cClrbImm c n a) a

/-- MUL, MULS, MAC, MACU, DIV and DIVS start the exact result on its way. When a core issues one of these, exec answers a next
state with no register or flag changed: the product arrives in ML after 2 slots and MH after 3 and replaces the accumulator;
a multiply-accumulate arrives after 3 and extends the accumulator chain; quotient and remainder, truncated toward zero,
arrive after 10, with 0xFFFF, the dividend and IDZ for a divisor of 0, and IOV for 0x8000 by -1; a division abandons the
operation in the iterative stage and counts it. (R247, R248, R260, R261, R268, R269) -/
def Obligations.IntegerProductsAndQuotientsStart : Prop :=
  ∀ (c : CoreId) (x y : Reg) (s : State), Ready c 1 s →
    let k := s.seen c
    let a := (s.core c).reg x
    let b := (s.core c).reg y
    let starts := fun (i : Instr) (k1 : Core) (new : List AuRes) => ∃ t, exec i s = .next t ∧ OnlyCore c s t ∧ (t.core c).k = (s.core c).k ∧
      KeepsFlags c s t ∧ Issued { k1 with issued := k.issued + 1, au := { k1.au with flight := k1.au.flight ++ new } } (t.core c) 1 1
    let res := fun (left : Nat) (dst : AuDst) (ff : BitVec 5) =>
      ({ seq := k.issued, left := left, dst := dst, ff := ff, idz := false, iov := false, iter := false } : AuRes)
    let mul := fun (i : Instr) (p : BitVec 32) => starts i { k with au := { k.au with acc := p } }
      [res 2 (.ml (p.setWidth 16)) 0, res 3 (.mh ((p >>> 16).setWidth 16)) 0]
    let mac := fun (i : Instr) (p : BitVec 32) => starts i { k with au := { k.au with acc := k.au.acc + p } } [res 3 (.acc (k.au.acc + p)) 0]
    let div := fun (i : Instr) (q r : Word) (idz iov : Bool) => starts i k.abandon
      [{ res 10 (.qtrm q r) 0 with idz := idz, iov := iov, iter := true }]
    mul (.cMul c x y) (BitVec.ofNat 32 (a.toNat * b.toNat)) ∧ mul (.cMuls c x y) (BitVec.ofInt 32 (a.toInt * b.toInt)) ∧
    mac (.cMac c x y) (BitVec.ofInt 32 (a.toInt * b.toInt)) ∧ mac (.cMacu c x y) (BitVec.ofNat 32 (a.toNat * b.toNat)) ∧
    (b = 0 → div (.cDiv c x y) 0xFFFF a true false ∧ div (.cDivs c x y) 0xFFFF a true false) ∧
    (b ≠ 0 → div (.cDiv c x y) (BitVec.ofNat 16 (a.toNat / b.toNat)) (BitVec.ofNat 16 (a.toNat % b.toNat)) false false ∧
      div (.cDivs c x y) (BitVec.ofInt 16 (a.toInt.tdiv b.toInt)) (BitVec.ofInt 16 (a.toInt.tmod b.toInt)) false
        (decide (a.toInt = -32768 ∧ b.toInt = -1))) ∧
    (k.au.flight.any (·.iter) = false → k.abandon = k) ∧
    (k.au.flight.any (·.iter) = true → k.abandon.au.abn = true ∧ k.abandon.au.flight.any (·.iter) = false ∧
      k.abandon.au.abnCnt = if k.au.abnCnt = 0xFFFF then 0xFFFF else k.au.abnCnt + 1)

/-- The binary16 instructions start their rounded result on its way to FR. When a core issues FADD, FSUB, FMUL, FFMA, FDIV,
FSQRT, FCVT or FCMP, exec answers a next state with no register or flag changed and the result, rounded in the core's mode,
on its way: after 4 slots for sums and products, 5 for FFMA onto the accumulator in program order, 12 for FDIV and FSQRT in
the iterative stage, 3 for a conversion, 2 for a comparison's flags. (R247, R248, R249, R260, R261, R263, R268, R278) -/
def Obligations.FloatingPointResultsStart : Prop :=
  ∀ (c : CoreId) (x y : Reg) (s : State), Ready c 1 s →
    let k := s.seen c
    let a := (s.core c).reg x
    let b := (s.core c).reg y
    let starts := fun (i : Instr) (k1 : Core) (new : List AuRes) => ∃ t, exec i s = .next t ∧ OnlyCore c s t ∧ (t.core c).k = (s.core c).k ∧
      KeepsFlags c s t ∧ Issued { k1 with issued := k.issued + 1, au := { k1.au with flight := k1.au.flight ++ new } } (t.core c) 1 1
    let res := fun (left : Nat) (dst : AuDst) (ff : BitVec 5) =>
      ({ seq := k.issued, left := left, dst := dst, ff := ff, idz := false, iov := false, iter := false } : AuRes)
    let u := unpack k.au.ftz a
    let v := unpack k.au.ftz b
    let plain := fun (i : Instr) (left : Nat) (r : Word × BitVec 5) =>
      starts i { k with au := { k.au with frAcc := r.1, frHang := false } } [res left (.fr r.1) r.2]
    let iter := fun (i : Instr) (r : Word × BitVec 5) =>
      starts i { k.abandon with au := { k.abandon.au with frIter := some (k.issued, k.abandon.au.frAcc), frAcc := r.1, frHang := true, frLinks := [] } }
        [{ res 12 (.fr r.1) r.2 with iter := true }]
    plain (.cFadd c x y) 4 (add16 k.au.rm k.au.ftz u v) ∧ plain (.cFsub c x y) 4 (add16 k.au.rm k.au.ftz u v.neg) ∧
    plain (.cFmul c x y) 4 (mul16 k.au.rm k.au.ftz u v) ∧ (∀ f : FcvtKind, plain (.cFcvt c x f) 3 (cvt16 k.au.rm k.au.ftz f a)) ∧
    iter (.cFdiv c x y) (div16 k.au.rm k.au.ftz u v) ∧ iter (.cFsqrt c x) (sqrt16 k.au.rm k.au.ftz u) ∧
    (k.au.frHang = false → starts (.cFfma c x y)
      { k with au := { k.au with frAcc := (fma16 k.au.rm k.au.ftz u v (unpack k.au.ftz k.au.frAcc)).1 } }
      [res 5 (.fr (fma16 k.au.rm k.au.ftz u v (unpack k.au.ftz k.au.frAcc)).1) (fma16 k.au.rm k.au.ftz u v (unpack k.au.ftz k.au.frAcc)).2]) ∧
    (k.au.frHang = true → starts (.cFfma c x y)
      { k with au := { k.au with frAcc := (fma16 k.au.rm k.au.ftz u v (unpack k.au.ftz k.au.frAcc)).1
                                 frLinks := k.au.frLinks ++ [{ seq := k.issued, x := a, y := b, mode := k.au.rm }] } }
      [res 5 (.fr (fma16 k.au.rm k.au.ftz u v (unpack k.au.ftz k.au.frAcc)).1) (fma16 k.au.rm k.au.ftz u v (unpack k.au.ftz k.au.frAcc)).2]) ∧
    (let f := fcmp16 k.au.ftz a b
     starts (.cFcmp c x y) k [res 2 (.flags f.1.1 f.1.2.1 f.1.2.2.1 f.1.2.2.2) f.2])

/-- AU_RESULT_LAND puts a result whose slots are over in its register. A result in flight whose slots are not over stays in
flight. One whose slots are over reaches its register, unless the register already holds the result of a later instruction;
its flags are ORed into FF in either case, IDZ and IOV are set where it carries them, a comparison's flags reach ST, and
nothing else changes. (R247, R260, R261, R264, R265, R266) -/
def Obligations.ResultsLandAtTheirSlot : Prop :=
  ∀ (c : CoreId) (s : State) (r : AuRes), (s.core c).au.flight = [r] →
    let k := s.core c
    (r.left ≠ 0 → exec (.auResultLand c) s = .next s) ∧
    (r.left = 0 → ∃ t, exec (.auResultLand c) s = .next t ∧ OnlyCore c s t ∧
      (t.core c).au.flight = [] ∧ (t.core c).ff = k.ff ||| r.ff ∧ (t.core c).au.idz = (k.au.idz || r.idz) ∧
      (t.core c).au.iov = (k.au.iov || r.iov) ∧ (t.core c).k = k.k ∧ (t.core c).pc = k.pc ∧ (t.core c).st = k.st ∧
      match r.dst with
      | .ml v => (t.core c).ml = (if k.au.seqMl ≤ r.seq then v else k.ml) ∧ (t.core c).mh = k.mh ∧ (t.core c).fr = k.fr ∧ (t.core c).qt = k.qt
      | .mh v => (t.core c).mh = (if k.au.seqMh ≤ r.seq then v else k.mh) ∧ (t.core c).ml = k.ml ∧ (t.core c).fr = k.fr ∧ (t.core c).qt = k.qt
      | .acc v => (k.au.seqMl ≤ r.seq → (t.core c).ml = v.setWidth 16) ∧ (k.au.seqMh ≤ r.seq → (t.core c).mh = (v >>> 16).setWidth 16) ∧
          (t.core c).fr = k.fr ∧ (t.core c).qt = k.qt
      | .qtrm q m => (k.au.seqQr ≤ r.seq → (t.core c).qt = q ∧ (t.core c).rm = m) ∧ (r.seq < k.au.seqQr → (t.core c).qt = k.qt ∧
          (t.core c).rm = k.rm) ∧ (t.core c).ml = k.ml ∧ (t.core c).fr = k.fr
      | .fr v => (t.core c).fr = (if k.au.seqFr ≤ r.seq then v else k.fr) ∧ (t.core c).ml = k.ml ∧ (t.core c).mh = k.mh ∧ (t.core c).qt = k.qt
      | .flags z n f v => (t.core c).z = z ∧ (t.core c).n = n ∧ (t.core c).c = f ∧ (t.core c).v = v ∧ (t.core c).fr = k.fr)

/-- Every NaN that a binary16 operation delivers is 0x7E00; no NaN operand is passed through. In every rounding mode, with and
without FTZ, and for all operands: where FADD, FSUB, FMUL, FFMA, FDIV, FSQRT or FCVT to binary16 delivers a NaN, it is the
canonical quiet NaN 0x7E00, and they deliver it for every NaN operand. FCVT kinds 2 and 3 deliver integers, 0 for a NaN.
(R272) -/
def Obligations.EveryNanDeliveredIsCanonical : Prop :=
  ∀ (rm : BitVec 2) (ftz : Bool) (a b z : Word),
    let isNan := fun (w : Word) => (w >>> 10).toNat % 32 = 31 ∧ w.toNat % 1024 ≠ 0
    let x := unpack ftz a
    let y := unpack ftz b
    let z' := unpack ftz z
    (∀ r ∈ ([(add16 rm ftz x y).1, (add16 rm ftz x y.neg).1, (mul16 rm ftz x y).1, (fma16 rm ftz x y z').1, (div16 rm ftz x y).1,
        (sqrt16 rm ftz x).1, (cvt16 rm ftz .ofInt a).1, (cvt16 rm ftz .ofUint a).1, (cvt16 rm ftz .integral a).1] : List Word),
      isNan r → r = 0x7E00) ∧
    (isNan a ∨ isNan b → ∀ r ∈ ([(add16 rm ftz x y).1, (add16 rm ftz x y.neg).1, (mul16 rm ftz x y).1, (fma16 rm ftz x y z').1,
        (div16 rm ftz x y).1] : List Word), r = 0x7E00) ∧
    (isNan z → (fma16 rm ftz x y z').1 = 0x7E00) ∧ (isNan a → (sqrt16 rm ftz x).1 = 0x7E00 ∧ (cvt16 rm ftz .integral a).1 = 0x7E00) ∧
    (isNan a → (cvt16 rm ftz .toInt a).1 = 0 ∧ (cvt16 rm ftz .toUint a).1 = 0) ∧
    (¬ isNan a → (a.toNat % 32768 ≠ 0x7C00) → ∃ i j : Int, (cvt16 rm ftz .toInt a).1 = BitVec.ofInt 16 i ∧ -32768 ≤ i ∧ i ≤ 32767 ∧
      (cvt16 rm ftz .toUint a).1 = BitVec.ofInt 16 j ∧ 0 ≤ j ∧ j ≤ 65535 ∧
      (∀ m e s, x = .fin s m e → -32768 ≤ (toIntegral rm s m e).1 → (toIntegral rm s m e).1 ≤ 32767 → i = (toIntegral rm s m e).1))

/-- POLL, WAITEV and WAITEV_END: the snapshot, its latches, and when a wait ends. POLL puts the latches, time-up and the overflow
latch in EV and Kd and clears the latches. WAITEV outside a slot suspends the core on its mask, or, at time-up, ends at once
with a snapshot, counted and flagged. WAITEV_END changes nothing while no listed latch has been set since the wait began and
time-up has not come; else the core runs again, with the snapshot in EV. (R158, R160, R161, R223, R224, R225, R250, R251) -/
def Obligations.EventSnapshotsAndWaits : Prop :=
  ∀ (c : CoreId) (d x : Reg) (s : State),
    let k := s.seen c
    let shows := fun (e : Word) (k : Core) => e.setWidth 13 = k.lat ∧ e.getLsbD 13 = s.crs.timeUp ∧ e.getLsbD 14 = k.ovf ∧ e.getLsbD 15 = false
    let waits := fun (n : Nat) (i : Instr) (mask : BitVec 13) => Ready c n s → (s.core c).xfer = none →
      (s.crs.timeUp = false → ∃ t, exec i s = .next t ∧ OnlyCore c s t ∧ (t.core c).k = k.k ∧ KeepsFlags c s t ∧
        Issued { k with st := .waiting mask, hit := 0 } (t.core c) n n) ∧
      (s.crs.timeUp = true → ∃ t e, exec i s = .next t ∧ shows e k ∧ (t.core c).k = k.k ∧ KeepsFlags c s t ∧
        Issued { k with ev := e, lat := 0, ovf := false, hit := 0 } (t.core c) n n ∧
        t = { s.setCore c (t.core c) with crs.tuCnt := satInc s.crs.tuCnt, crs.flags := setBit s.crs.flags 3 true })
    (Ready c 1 s → ∃ t e, exec (.cPoll c d) s = .next t ∧ OnlyCore c s t ∧ shows e k ∧ Puts (s.core c) (t.core c) d e ∧ KeepsFlags c s t ∧
      Issued { k with ev := e, lat := 0, ovf := false, hit := 0 } (t.core c) 1 1) ∧
    waits 1 (.cWaitev c x) (((s.core c).reg x).setWidth 13) ∧ (∀ m : BitVec 13, waits 2 (.cWaitevImm c m) m) ∧
    (∀ m : BitVec 13, (s.core c).st = .waiting m →
      ((s.core c).hit &&& m = 0 → s.crs.timeUp = false → exec (.waitevEnd c) s = .next s) ∧
      ((s.core c).hit &&& m ≠ 0 ∨ s.crs.timeUp = true → ∃ t e, exec (.waitevEnd c) s = .next t ∧ shows e (s.core c) ∧
        t.core c = { s.core c with ev := e, lat := 0, ovf := false, hit := 0, st := .running } ∧
        t = { s.setCore c (t.core c) with crs.tuCnt := if s.crs.timeUp then satInc s.crs.tuCnt else s.crs.tuCnt
                                          crs.flags := if s.crs.timeUp then setBit s.crs.flags 3 true else s.crs.flags }))

/-- ASKP sends a request at the class's cost and waits; ASKE sends an end notice. Outside a slot ASKP puts one request, in its
class and at that class's cost code (mantissa times a power of 4), behind the others on the lane, and the core waits for the
answer; it takes two slots. ASKE puts an end notice there and the core goes on. (R75, R226, R252, R253, R257) -/
def Obligations.AskingSendsOneMessage : Prop :=
  ∀ (c : CoreId) (p : BitVec 3) (s : State), Ready c 1 s →
    let k := s.seen c
    let req := if c.isB then Requester.coreB else Requester.coreA
    let cost := (s.por.cfg.pcost.get p.toFin).toNat % 4096 * 4 ^ ((s.por.cfg.pcost.get p.toFin).toNat / 4096)
    ((s.core c).xfer = none → ∃ t, exec (.cAskp c p) s = .next t ∧ (t.core c).k = k.k ∧ KeepsFlags c s t ∧
      Issued { k with st := .asking } (t.core c) 1 2 ∧ t = { s.setCore c (t.core c) with tie.lane := s.tie.lane ++ [.ask p req cost] }) ∧
    (∃ t, exec (.cAske c p) s = .next t ∧ (t.core c).k = k.k ∧ KeepsFlags c s t ∧ Issued k (t.core c) 1 1 ∧
      t = { s.setCore c (t.core c) with tie.lane := s.tie.lane ++ [.fin p req] })

/-- ENDT starts the next task of the list, idles the core, or ends the course. Outside a slot: with a task left, the core goes on
at its entry with an empty return stack and every register kept; with none left and the other core still at work it goes
idle; when both have ended their lists the course ends, its duration is kept, and its windows are closed. (R148, R149, R150,
R155, R212, R221, R256) -/
def Obligations.TasksEndInListOrder : Prop :=
  ∀ (c : CoreId) (sub : BitVec 10) (s : State), Ready c 1 s → (s.core c).xfer = none →
    let k := s.seen c
    let mine := if c.isB then s.crs.tasksB else s.crs.tasksA
    let otherEnded := if c.isB then s.crs.endedA else s.crs.endedB
    let crs' := { s.crs with subtick := sub }
    (∀ e l, mine = e :: l →
      ∃ t, exec (.cEndt c sub) s = .next t ∧ Beyond c { s with crs := if c.isB then { crs' with tasksB := l } else { crs' with tasksA := l } } t ∧
        t.core c = { k with pc := e, xfer := none, call := false, rs := Vector.replicate 8 0, rsP := 0, rsD := 0, fcnt := k.fcnt + 1,
                            lat := (t.core c).lat, ovf := (t.core c).ovf, hit := (t.core c).hit, st := (t.core c).st,
                            stepping := (t.core c).stepping, haltReq := (t.core c).haltReq,
                            au := { k.au with flight := flown 2 k.au.flight } } ∧
        (k.stepping = false → (t.core c).st = .running ∧ (t.core c).haltReq = k.haltReq)) ∧
    (mine = [] → otherEnded = false →
      ∃ t, exec (.cEndt c sub) s = .next t ∧ Beyond c { s with crs := if c.isB then { crs' with endedB := true } else { crs' with endedA := true } } t ∧
        (t.core c).k = k.k ∧ (k.stepping = false → (t.core c).st = .idle)) ∧
    (mine = [] → otherEnded = true → s.crs.running = true → ∃ t, exec (.cEndt c sub) s = .next t ∧ t.crs.running = false ∧
      t.crs.timeUp = false ∧ t.crs.winVault = false ∧ t.crs.winTouch = false ∧ t.crs.winPane = false ∧ t.ash.scrubLeft = 0 ∧
      t.crs.lastDur = satOf 16 (courseElapsed { s with crs := crs' }) ∧ t.mem = s.mem ∧ t.img = s.img ∧ t.isl = s.isl)

/-- COURSE_START takes up the lowest-numbered pending course while none runs. In OPEN and AJAR with no course running and no
last-gasp sequence, the forced course, or else the pending course of the lowest number, starts: it is recorded with its time,
its occurrence is taken up, VCORE follows the law, its windows are closed, and each core with a list begins the first task
with its registers kept. Otherwise nothing changes. (R87, R91, R122, R143, R145, R147, R148, R212) -/
def Obligations.CoursesStartLowestNumberFirst : Prop :=
  ∀ (s : State) (sub : BitVec 10) (n : BitVec 6) (d : CourseDef),
    (s.awake = true → s.crs.running = false → s.por.lgActive = false → s.coreA.st = .idle → s.coreB.st = .idle → s.coreA.haltReq = false →
      s.coreB.haltReq = false → s.crs.table[n.toNat]? = some d →
      (s.crs.forced = some n ∨ (s.crs.forced = none ∧ (∃ o ∈ s.crs.pend, o.course = n) ∧ ∀ o ∈ s.crs.pend, n.toNat ≤ o.course.toNat)) →
      ((s.crs.corner ≠ 3 ∧ d.tasksA ≠ []) ∨ d.tasksB ≠ []) →
      ∃ t u, exec (.courseStart sub) s = .next t ∧ Settled u t ∧ u.crs.running = true ∧ u.crs.now = n ∧ u.crs.timeUp = false ∧
        u.crs.startTick = s.crs.tick ∧ u.crs.startUs = sub ∧ u.crs.forced = none ∧ u.crs.pend = s.crs.pend.filter (fun o => o.course != n) ∧
        u.crs.winVault = false ∧ u.crs.winTouch = false ∧ u.crs.winPane = false ∧ u.crs.tick = s.crs.tick ∧
        u.crs.flags.getLsbD 0 = s.crs.onRc ∧ u.en.vcoreSet = vcLaw s.crs.corner s.por ∧ u.pwr.slpBanks = d.banks ∧ u.ash.share = d.ashShare ∧
        (s.crs.corner = 3 ∨ d.tasksA = [] → u.coreA = s.coreA) ∧ (d.tasksB = [] → u.coreB = s.coreB) ∧
        (∀ e l, d.tasksB = e :: l → u.crs.tasksB = l ∧ u.coreB.pc = e ∧ u.coreB.st = .running ∧ u.coreB.rsD = 0 ∧ u.coreB.k = s.coreB.k) ∧
        (∀ e l, s.crs.corner ≠ 3 → d.tasksA = e :: l → u.crs.tasksA = l ∧ u.coreA.pc = e ∧ u.coreA.st = .running ∧ u.coreA.rsD = 0 ∧
          u.coreA.k = s.coreA.k) ∧
        t.mem = s.mem ∧ t.img = s.img ∧ t.isl = s.isl ∧ t.pin = s.pin ∧ t.rtc = s.rtc ∧ t.sec = s.sec) ∧
    (s.awake = false ∨ s.crs.running = true ∨ s.por.lgActive = true ∨ (s.crs.forced = none ∧ s.crs.pend = []) →
      exec (.courseStart sub) s = .next s)

/-- Windows open and close, time-up ends waits, a stall is recorded once; records and time are read. A window opens in the
running course unless it is given as never, and closes with what its block then does; time-up sets TIMEUP and ends every
WAITEV with a snapshot that shows it; the first stall of a course sets STALL, appends a record and starts finished cores at
their stall doors; a read of CRS_REC3 removes the oldest record; a read of TICK_0 captures the rest of the time. (R19, R151,
R153, R157, R158, R160, R161, R169, R584) -/
def Obligations.CourseWindowsTimeUpAndStall : Prop :=
  ∀ (s : State) (sub : BitVec 10),
    (∀ d, s.crs.running = true → s.crs.table[s.crs.now.toNat]? = some d →
      (d.winVault.never = false → exec (.courseWindowOpen .vault) s = .next { s with crs.winVault := true }) ∧
      (d.winTouch.never = false → exec (.courseWindowOpen .touch) s = .next { s with crs.winTouch := true }) ∧
      (d.winPane.never = false → ∃ t, exec (.courseWindowOpen .pane) s = .next t ∧ t.crs = { s.crs with winPane := true } ∧
        t = { s with crs := t.crs, pane := t.pane, tie := t.tie }) ∧
      ∀ b : WinBlock, (d.window b).never = true → exec (.courseWindowOpen b) s = .next s) ∧
    (s.crs.winVault = true → ∃ t, exec (.courseWindowClose .vault) s = .next t ∧ t.crs = { s.crs with winVault := false } ∧
      t = { s with crs := t.crs, vlt := t.vlt, tie := t.tie }) ∧
    (s.crs.winTouch = true → ∃ t, exec (.courseWindowClose .touch) s = .next t ∧ t.crs = { s.crs with winTouch := false } ∧
      t = { s with crs := t.crs, tch := t.tch, tie := t.tie }) ∧
    (s.crs.winPane = true → ∃ t, exec (.courseWindowClose .pane) s = .next t ∧ t.crs = { s.crs with winPane := false } ∧
      t = { s with crs := t.crs, pane := t.pane, tie := t.tie }) ∧
    (s.crs.running = true → s.crs.timeUp = false →
      ∃ t, exec (.courseTimeUp sub) s = .next t ∧ t.crs.timeUp = true ∧ t.crs.subtick = sub ∧
        t = { s with crs := t.crs, coreA := t.coreA, coreB := t.coreB } ∧
        ∀ c, (∀ m, (s.core c).st ≠ .waiting m) → t.core c = s.core c) ∧
    (∀ c m, s.crs.running = true → s.crs.timeUp = false → (s.core c).st = .waiting m →
      ∃ t, exec (.courseTimeUp sub) s = .next t ∧ (t.core c).st = .running ∧ (t.core c).ev.getLsbD 13 = true ∧
        (t.core c).ev.setWidth 13 = (s.core c).lat ∧ (t.core c).lat = 0 ∧ t.crs.flags.getLsbD 3 = true) ∧
    (s.crs.running = true → s.crs.stallDone = false → s.crs.stallTicks ≠ 0 → s.crs.startTick.toNat + s.crs.stallTicks.toNat ≤ s.crs.tick.toNat →
      ∃ t, exec .courseStall s = .next t ∧ t.crs.stallDone = true ∧ t.crs.stat.getLsbD 2 = true ∧ t.crs.running = true ∧
        (s.crs.recs.length < 8 → ∃ r, t.crs.recs = s.crs.recs ++ [r] ∧ r.course = s.crs.now ∧ r.kind = .stall ∧
          r.stamp = s.crs.startTick.setWidth 32 ∧ r.meas = s.crs.stallTicks.setWidth 16) ∧
        (s.crs.endedB = true → s.coreB.st = .idle → s.coreB.haltReq = false → t.coreB.pc = s.crs.doorB ∧ t.coreB.st = .running ∧ t.crs.endedB = false) ∧
        (s.crs.endedA = true → s.crs.corner ≠ 3 → s.coreA.st = .idle → s.coreA.haltReq = false → t.coreA.pc = s.crs.doorA ∧
          t.coreA.st = .running ∧ t.crs.endedA = false) ∧
        t = { s with crs := t.crs, coreA := t.coreA, coreB := t.coreB }) ∧
    (exec .contractRecordPop s = .next { s with crs.recs := s.crs.recs.drop 1, out := .word (match s.crs.recs with
                                                                                                      | r :: _ => r.meas
                                                                                                      | [] => 0) }) ∧
    (exec (.tickCaptureRead sub) s = .next { s with crs := { s.crs with subtick := sub, subCap := sub, tick1Cap := (s.crs.tick >>> 16).setWidth 16,
                                                                        tick2Cap := (s.crs.tick >>> 32).setWidth 16 },
                                                    out := .word (s.crs.tick.setWidth 16) })

/-- TICK counts one tick and every course of that tick becomes pending; the crystal and the RC take turns. While the Derzor
domain works a tick advances the count by one, up to its largest value; in OPEN and AJAR every tick course whose phase and
period meet the new count is pending afterwards; registers, memory and ledger stay; an offset fault stops counting. A stopped
crystal moves the tick to the RC at once and flags the running course, a running one moves it back at the next tick; the RC
is trimmed only against the crystal. (R136, R137, R138, R139, R142, R144, R158) -/
def Obligations.TickAdvancesTimeAndMakesCoursesDue : Prop :=
  ∀ (s : State) (cal : Option (BitVec 12)) (bad : Bool),
    (s.derzorOn = true → ∃ t, exec (.tick cal bad) s = .next t ∧ t.crs.tick = (if s.crs.tick = BitVec.allOnes 48 then s.crs.tick else s.crs.tick + 1) ∧
      t.crs.subtick = 0 ∧ t.crs.onRc = (s.crs.onRc && !s.crs.xtalReady) ∧ t.crs.running = s.crs.running ∧ t.crs.table = s.crs.table ∧
      t.por.ledger = s.por.ledger ∧ t.coreA.k = s.coreA.k ∧ t.coreB.k = s.coreB.k ∧ t.coreA.pc = s.coreA.pc ∧ t.coreB.pc = s.coreB.pc ∧
      t.mem = s.mem ∧ t.img = s.img ∧ t.pin = s.pin ∧ t.rtc = s.rtc ∧ t.sec = s.sec ∧
      (bad = true → t.por.cntFault = true ∧ t.por.counterDead = true ∧ t.sill.fault = true) ∧
      (s.pwr.phase = .awake → ∀ (n : BitVec 6) (d : CourseDef), s.crs.table[n.toNat]? = some d → d.event = false → d.period ≠ 0 →
        s.crs.epoch.toNat + d.phase.toNat ≤ t.crs.tick.toNat → d.period.toNat ∣ (t.crs.tick.toNat - (s.crs.epoch.toNat + d.phase.toNat)) →
        s.crs.table.length ≤ 64 → ∃ o ∈ t.crs.pend, o.course = n)) ∧
    (s.derzorOn = false → exec (.tick cal bad) s = .next s) ∧
    (exec .crystalStop s = .next { s with crs.onRc := true, crs.xtalReady := false,
                                          crs.flags := if s.crs.running then setBit s.crs.flags 0 true else s.crs.flags }) ∧
    (exec .crystalRun s = .next { s with crs.xtalReady := s.crs.onRc }) ∧
    (s.crs.onRc = false → exec .rcTrim s = .next { s with crs.trimAge := 0 }) ∧ (s.crs.onRc = true → exec .rcTrim s = .next s)

/-- SNAP starts a gather or traps; SNAP_COMPLETE puts its result word in Kd. SNAP of an odd address traps MISALIGN, of a list
that leaves d:0x0000 to 0xCFFF UNMAPPED; else the core waits for its gather. SNAP_COMPLETE ends it: the elements are read
with their side effects, the record goes to the Vault engine, and Kd takes the number of elements captured with the fault
flag, or 0x40 where the engine refuses the record; a list of no element that the engine takes gives 0 and changes no byte of
memory. (R254, R283, R300, R301, R302, R303, R304, R364) -/
def Obligations.SnapshotGathersGoToTheVault : Prop :=
  ∀ (c : CoreId) (d x : Reg) (s : State),
    let a := (s.core c).reg x
    let n := (sramWord s.mem a.toNat).toNat % 32
    (Ready c 1 s →
      (a.getLsbD 0 = true → ∃ t, exec (.cSnap c d x) s = .next t ∧ Traps c 1 (Trap.misalign a) s t) ∧
      (a.getLsbD 0 = false → 0xD000 ≤ a.toNat → ∃ t, exec (.cSnap c d x) s = .next t ∧ Traps c 1 (Trap.unmapped a) s t) ∧
      (a.getLsbD 0 = false → a.toNat < 0xD000 → 0xD000 < a.toNat + (if n ≤ 16 then 2 + 4 * n else 2) →
        ∃ t, exec (.cSnap c d x) s = .next t ∧ Traps c 1 (Trap.unmapped 0xD000) s t) ∧
      (a.getLsbD 0 = false → a.toNat + (if n ≤ 16 then 2 + 4 * n else 2) ≤ 0xD000 → ∃ t, exec (.cSnap c d x) s = .next t ∧
        (t.core c).busy = some (.snap d a s.tie.post.length) ∧ OnlyCore c s t ∧ (t.core c).k = (s.core c).k ∧ KeepsFlags c s t)) ∧
    (∀ (list : Word) (fail : Option Nat), s.mainOn = true → (s.core c).busy = some (.snap d list 0) →
      (∃ t, exec (.snapComplete c fail) s = .next t ∧ (t.core c).busy = none ∧ (t.core c).pc = (s.core c).pc ∧
        Puts (s.core c) (t.core c) d (snapRun c list fail s).1 ∧ Beyond c (snapRun c list fail s).2.2 t) ∧
      (s.vlt.present = false → drains s = false → ∃ t, exec (.snapComplete c fail) s = .next t ∧ Puts (s.core c) (t.core c) d 0x40) ∧
      (sramWord s.mem list.toNat = 0x0100 → s.pwr.phase = .awake → s.vlt.present = true → s.vlt.mounting = false → s.vlt.wear.toNat < 2 →
        s.por.lgActive = false → s.vlt.cfg.stop = false → s.vlt.cfg.thin = false → s.vlt.cfg.strm.getLsbD 1 = true → s.vlt.gaps = [] →
        vqFill s.vlt + 12 ≤ 8064 → ∃ t, exec (.snapComplete c fail) s = .next t ∧ Puts (s.core c) (t.core c) d 0 ∧
          t.mem.bytes = s.mem.bytes))

/-- The oldest posted write is delivered, fails its parity, is rejected, or times out. TIE_WRITE_DELIVER ends the oldest posted
write: it takes its effect at its register, a bit write leaving the fields beside it, or leaves a late-fault entry with its
address and writer when its parity fails or its register rejects it. TIE_WRITE_TIMEOUT ends it with an entry TIMEOUT, whether
or not it took effect. A read of TIE_LF2 removes the oldest entry. (R17, R295, R296, R297, R298) -/
def Obligations.PostedWritesEndOneWay : Prop :=
  ∀ (s : State),
    (∀ p l, s.tie.post = p :: l → s.mainOn = true →
      let u := tieDone s
      (∃ t, exec (.tieWriteDeliver true) s = .next t ∧ t = { u with tie := t.tie } ∧ t.tie.post = l ∧
        (s.tie.lf.length < 8 → ∃ e, t.tie.lf = s.tie.lf ++ [e] ∧ e.addr = p.addr ∧ e.outcome = 1 ∧ e.who = p.who.code)) ∧
      (∀ v, p.addr.toNat < 0x380 → p.data = .word v → Does (.tieWriteDeliver false) s (ioPut p.who p.addr.toNat v u)) ∧
      (∀ (n : BitVec 4) (b : Bool), p.addr.toNat < 0x380 → p.data = .bit n b →
        Does (.tieWriteDeliver false) s (ioPut p.who p.addr.toNat (bitWord (u.actsAs p.who) p.addr.toNat n b u) u)) ∧
      (∀ v w, p.addr.toNat ≥ 0x380 → p.data = .word v → panePut p.addr.toNat v u = some w → Does (.tieWriteDeliver false) s w) ∧
      (∀ v, p.addr.toNat ≥ 0x380 → p.data = .word v → panePut p.addr.toNat v u = none → s.tie.lf.length < 8 →
        ∃ t, exec (.tieWriteDeliver false) s = .next t ∧ ∃ e, t.tie.lf = s.tie.lf ++ [e] ∧ e.addr = p.addr ∧ e.outcome = 3 ∧ e.data = v) ∧
      (∃ t, exec .tieWriteTimeout s = .next t ∧ t.tie.post = l ∧
        (s.tie.lf.length < 8 → ∃ e, e.addr = p.addr ∧ e.outcome = 2 ∧ e.who = p.who.code ∧ t.tie.lf[s.tie.lf.length]? = some e) ∧
        (8 ≤ s.tie.lf.length → t.tie.lost = true))) ∧
    (s.tie.post = [] → (∀ b, exec (.tieWriteDeliver b) s = .next s) ∧ exec .tieWriteTimeout s = .next s) ∧
    (exec .tieLateFaultPop s = .next { s with tie.lf := s.tie.lf.drop 1
                                              out := .word (match s.tie.lf with
                                                            | f :: _ => f.stamp.setWidth 16 ||| (f.who.setWidth 16 <<< 14)
                                                            | [] => 0) })

/-- REGISTER_WRITE takes effect field by field where the writer may write. A write to a mapped register that the writer may write
and trust does not forbid takes its effect there; any other changes nothing. Seven registers are said in full: TRAPST and
MEM_STAT clear the bits written 1, CRS_STAT likewise, AU_CFG takes RM and keeps FTZ, ASH_WIN takes two bits, the tick is read
only, and RST_CTL ignores every value but 0x5EA1. (R17, R18, R204, R227, R231, R263, R285, R529, R587) -/
def Obligations.RegisterWritesTakeEffectFieldByField : Prop :=
  ∀ (who : Who) (a : BitVec 12) (v : BitVec 16) (s : State),
    (s.awake = true → ioMapped a.toNat s = true → ioForeign (s.actsAs who) a.toNat s = false → ioTrust who a.toNat v s = none →
      Does (.registerWrite who a v) s (ioPut who a.toNat v s)) ∧
    (ioMapped a.toNat s = false ∨ ioForeign (s.actsAs who) a.toNat s = true ∨ (∃ why, ioTrust who a.toNat v s = some why) →
      exec (.registerWrite who a v) s = .next s) ∧
    (s.awake = true → (who = .coreA ∨ (who = .hinge ∧ s.hng.hcore = false)) →
      Does (.registerWrite who 0x035 v) s { s with coreA := { s.coreA with trapActive := s.coreA.trapActive && !v.getLsbD 0
                                                                           trapNest := s.coreA.trapNest && !v.getLsbD 1 } } ∧
      Does (.registerWrite who 0x480 v) s { s with coreA := { s.coreA with au := { s.coreA.au with rm := v.setWidth 2 } } } ∧
      Does (.registerWrite who 0x180 v) s { s with mem := { s.mem with ashWinA := v.setWidth 2 } } ∧
      Does (.registerWrite who 0x038 v) s { s with mem := { s.mem with ce := s.mem.ce && !v.getLsbD 0, ue := s.mem.ue && !v.getLsbD 1 } } ∧
      Does (.registerWrite who 0x019 v) s { s with crs := { s.crs with stat := s.crs.stat &&& ~~~(v.setWidth 5) } } ∧
      Does (.registerWrite who 0x011 v) s s ∧ (v ≠ 0x5EA1 → Does (.registerWrite who 0x07E v) s s))

/-- VAULT_APPEND takes a record into the queue, sheds it, or gives the first reason against it. An offer that nothing forbids
takes the next sequence number and its place in the queue; one that does not fit is shed and opens a gap of cause SHED; else
ST reads REFUSED with the first reason of the table (stream, length or type, source, wear). VAULT_APPEND_COPY_DONE puts the
body in the record. A pending gap becomes a 28-byte GAP record. Nothing but the engine changes. (R361, R362, R363, R364,
R366, R371, R372, R382) -/
def Obligations.VaultAppendsAreTakenOrRefused : Prop :=
  ∀ (c : CoreId) (len : BitVec 16) (s : State),
    let x := s.vlt.set c
    let n := len.toNat % 256
    let fits := n ≤ 240 ∧ x.type ≠ 0 ∧ x.src.toNat + n ≤ 0xD000
    (s.pwr.phase = .awake → x.st ≠ 2 →
      (s.vlt.cfg.strm.getLsbD x.stream.toNat = true → fits → s.vlt.wear.toNat < 2 → ¬ (s.vlt.cfg.stop = true ∧ freePages s.vlt ≤ 1) →
        s.vlt.mounting = false → s.por.lgActive = false → s.vlt.present = true → s.vlt.gaps = [] → s.vlt.cfg.thin = false →
        (vqFill s.vlt + (8 + n) ≤ 8064 → ∃ t r, exec (.vaultAppend c len) s = .next t ∧ t = { s with vlt := t.vlt } ∧
          t.vlt.queue = s.vlt.queue ++ [r] ∧ r.seq = s.vlt.seq ∧ r.bytes.length = 8 + n ∧ r.copying = true ∧
          r.bytes.take 3 = [x.type.setWidth 8, x.stream.setWidth 8, BitVec.ofNat 8 (8 + n)] ∧ t.vlt.seq = s.vlt.seq + 1 ∧
          (t.vlt.set c).st = 2 ∧ (t.vlt.set c).seq = s.vlt.seq ∧ t.vlt.store = s.vlt.store) ∧
        (8064 < vqFill s.vlt + (8 + n) → ∃ t, exec (.vaultAppend c len) s = .next t ∧ t = { s with vlt := t.vlt } ∧ (t.vlt.set c).st = 3 ∧
          t.vlt.queue = s.vlt.queue ∧ t.vlt.shed = satInc s.vlt.shed ∧ ∃ g, t.vlt.gaps = [g] ∧ g.cause = .shed ∧ g.lost = 1)) ∧
      (∀ why : BitVec 4, (s.vlt.cfg.strm.getLsbD x.stream.toNat = false ∧ why = 1) ∨
          (s.vlt.cfg.strm.getLsbD x.stream.toNat = true ∧ ((¬ (n ≤ 240 ∧ x.type ≠ 0) ∧ why = 2) ∨
            (n ≤ 240 ∧ x.type ≠ 0 ∧ 0xD000 < x.src.toNat + n ∧ why = 3) ∨ (fits ∧ 2 ≤ s.vlt.wear.toNat ∧ why = 4))) →
        ∃ t, exec (.vaultAppend c len) s = .next t ∧ t = { s with vlt := t.vlt } ∧ (t.vlt.set c).st = 5 ∧ (t.vlt.set c).why = why ∧
          t.vlt.queue = s.vlt.queue ∧ t.vlt.seq = s.vlt.seq)) ∧
    (x.st = 2 → exec (.vaultAppend c len) s = .next s) ∧
    (x.st = 2 → s.mainOn = true → (∀ e ∈ s.mem.errs, e.1 < x.src.toNat - 1 ∨ x.src.toNat + x.len ≤ e.1) →
      ∃ t, exec (.vaultAppendCopyDone c) s = .next t ∧ t = { s with vlt := t.vlt } ∧ (t.vlt.set c).st = 1 ∧
        t.vlt.queue = s.vlt.queue.map fun r =>
          if r.seq = x.seq then { r with bytes := r.bytes.take 8 ++ Bytes.readN 0 s.mem.bytes x.src.toNat x.len ++ r.bytes.drop (8 + x.len)
                                         copying := false, unsealed := false }
          else r) ∧
    (∀ g l, s.vlt.gaps = g :: l → s.vlt.gapAt = none → s.vlt.present = true → s.vlt.mounting = false → s.awake = true →
      s.vlt.wear.toNat < 2 → s.vlt.gasp = .idle → vqFill s.vlt + 28 ≤ 8192 →
      ∃ t r, exec .vaultGapRecord s = .next t ∧ t = { s with vlt := t.vlt } ∧ t.vlt.gaps = l ∧ t.vlt.queue = s.vlt.queue ++ [r] ∧
        r.bytes.take 1 = [0x80] ∧ r.bytes.length = 28 ∧ t.vlt.gapCnt = satInc s.vlt.gapCnt ∧ t.vlt.gapAt = some s.now16) ∧
    (s.vlt.gaps = [] → exec .vaultGapRecord s = .next s) ∧
    (exec (.vaultAseqCapture c) s = .next { s with vlt := s.vlt.putSet c { x with seqHiCap := (x.seq >>> 16).setWidth 16 }
                                                   out := .word (x.seq.setWidth 16) })

/-- Pages are programmed under leave in the window; a verified page is in the store, a failed one goes to a spare. With the
window open, a page ready and nothing ahead of it, the engine asks for P1, and once granted takes the page into flight,
padded with 0xFF; with the window shut nothing happens. VAULT_PROGRAM_END of a page releases its hold; verified, its bytes
and no others stand in the store and its records leave the queue; failed, it is to be programmed into the first free spare.
Flush age, release, mount and late faults are as the rules state. (R358, R359, R367, R368, R369, R370, R378) -/
def Obligations.VaultProgramsPagesOnce : Prop :=
  ∀ (s : State),
    (s.por.lgActive = false → s.pwr.phase = .awake → s.vlt.present = true → s.vlt.mounting = false → s.vlt.flight.length < 4 →
      s.crs.winVault = true → s.vlt.cfg.ppt = 0 → s.pwr.drainOver = false → s.vlt.replaces = [] → s.vlt.tblTodo = [] → ∀ p, pageReady s = some p →
      (s.vlt.leave = .none → exec .vaultPageProgramStart s = .next { s with vlt.leave := .asked, tie.lane := s.tie.lane ++ [.ask 1 .vault (s.classCost 1)] }) ∧
      (s.vlt.leave = .granted → ∃ t g, exec .vaultPageProgramStart s = .next t ∧ t = { s with vlt := t.vlt } ∧ t.vlt.flight = s.vlt.flight ++ [g] ∧
        g.bytes = (p.flatMap (·.bytes)) ++ List.replicate (256 - (p.flatMap (·.bytes)).length) 0xFF ∧ g.recs = p.length ∧ g.cls = 1 ∧
        t.vlt.leave = .none ∧ t.vlt.started = s.vlt.started + 1 ∧ t.vlt.store = s.vlt.store)) ∧
    (s.awake = true → s.por.lgActive = false → s.crs.winVault = false → exec .vaultPageProgramStart s = .next s) ∧
    (∀ (g : Prog) (p : BitVec 14) (attempts : BitVec 2), s.vlt.sound → s.mainOn = true → s.vlt.flight = [g] → g.kind = .page p → g.cls = 1 → s.vlt.wear.toNat < 2 →
      s.vlt.chainPages < 15 →
      (∃ t, exec (.vaultProgramEnd g.id attempts true) s = .next t ∧ t = { s with vlt := t.vlt, tie := t.tie } ∧ t.vlt.flight = [] ∧
        t.tie.lane = s.tie.lane ++ [.fin 1 .vault] ∧ t.vlt.pgCnt = satInc s.vlt.pgCnt ∧
        t.vlt.queue = s.vlt.queue.filter (fun r => r.prog != some g.id) ∧
        ∀ a, Bytes.read 0xFF t.vlt.store a = if pageAt s.vlt.tbl p ≤ a ∧ a < pageAt s.vlt.tbl p + g.bytes.length
          then g.bytes.getD (a - pageAt s.vlt.tbl p) 0 else Bytes.read 0xFF s.vlt.store a) ∧
      (∀ n, pickSpare s.vlt.tbl (s.vlt.replaces.map (·.spare)) = some n → ∃ t, exec (.vaultProgramEnd g.id attempts false) s = .next t ∧
        t = { s with vlt := t.vlt, tie := t.tie } ∧ t.vlt.flight = [] ∧ t.vlt.store = s.vlt.store ∧ t.vlt.queue = s.vlt.queue ∧
        ∃ r, t.vlt.replaces = s.vlt.replaces ++ [r] ∧ r.page = p ∧ r.spare = n ∧ r.bytes = g.bytes)) ∧
    (∀ r l, waitingRecs s.vlt = r :: l →
      (s.vlt.cfg.flush ≠ 0 → r.tick.toNat + s.vlt.cfg.flush.toNat ≤ s.crs.tick.toNat → exec .vaultFlushAgeExpiry s = .next { s with vlt.aged := true }) ∧
      (s.vlt.cfg.flush = 0 ∨ s.crs.tick.toNat < r.tick.toNat + s.vlt.cfg.flush.toNat → exec .vaultFlushAgeExpiry s = .next s)) ∧
    (∀ (who : Who) (v : BitVec 16), s.awake = true → s.vlt.brim = false → s.vlt.tblTodo = [] →
      let k := min (v.toNat % 0x4000) (s.vlt.tail - s.vlt.tbl.head).toNat
      exec (.vaultRelease who v) s =
        .next { s with vlt := { s.vlt with tbl := { s.vlt.tbl with head := s.vlt.tbl.head + BitVec.ofNat 14 k }, tblTodo := [false, true] } }) ∧
    (s.vlt.mounting = true → s.mainOn = true → ∃ t, exec .vaultMountEnd s = .next t ∧ t = { s with vlt := t.vlt } ∧ t.vlt.mounting = false ∧
      t.vlt.tbl = (if s.vlt.tbl1.version ≤ s.vlt.tbl0.version then s.vlt.tbl0 else s.vlt.tbl1) ∧ t.vlt.store = s.vlt.store ∧
      (t.vlt.wear = 3 ↔ freeSpares t.vlt.tbl ≤ 4)) ∧
    (s.vlt.mounting = false → exec .vaultMountEnd s = .next s) ∧
    (exec .vaultLateFaultPop s = .next { s with vlt.lf := s.vlt.lf.drop 1, out := .word (match s.vlt.lf with
                                                                                        | f :: _ => f.count.setWidth 16
                                                                                        | [] => 0) })

/-- A source qualifies or is lost; outside the hold the selector takes the first of HV, VEH, HARV. A source that qualifies is
recorded, and fires SRC in SEALED; one that is lost sets its LOST bit. Outside the 4 ms hold the selector then uses the first
qualified source of HV, VEH and HARV; a switch-over is counted, starts the hold and ends pass-through. During the hold the
selection stands, and the loss of the selected source leaves it dead until the hold ends and the first qualified source is
chosen. Nothing else changes. (R28, R33, R34, R35, R36) -/
def Obligations.SelectorTakesTheFirstQualifiedSource : Prop :=
  ∀ (s : State) (src : Source),
    let bit : Nat := match src with
      | .hv => 0
      | .veh => 1
      | .harv => 2
    let sel : Sel := match src with
      | .hv => .hv
      | .veh => .veh
      | .harv => .harv
    let first := fun (e : Energy) => if e.hvQ then Sel.hv else if e.vehQ then Sel.veh else if e.harvQ then Sel.harv else Sel.none
    let chosen := fun (e e' : Energy) => e'.hvQ = e.hvQ ∧ e'.vehQ = e.vehQ ∧ e'.harvQ = e.harvQ ∧ e'.sel = first e ∧ e'.stat = e.stat ∧
      e'.selDead = false ∧ (first e = e.sel → e'.swcnt = e.swcnt ∧ e'.hold = e.hold) ∧
      (first e ≠ e.sel → e'.swcnt = satInc e.swcnt ∧ e'.hold = true ∧ e'.pass = false)
    (s.en.q src = true → exec (.sourceQualify src) s = .next s) ∧
    (s.en.q src = false → s.por.lgActive = false → s.pwr.phase = .awake →
      (s.en.hold = true → Does (.sourceQualify src) s { s with en := s.en.setQ src true }) ∧
      (s.en.hold = false → ∃ e, Does (.sourceQualify src) s { s with en := e } ∧ chosen (s.en.setQ src true) e)) ∧
    (s.en.q src = false → s.pwr.phase = .asleep .sealed → ∃ t, exec (.sourceQualify src) s = .next t ∧
      t = { s with en := t.en, isl.fired := setBit s.isl.fired 10 true } ∧ t.en.q src = true) ∧
    (s.en.q src = false → Does (.sourceLoss src) s s) ∧
    (s.en.q src = true →
      let e := { (s.en.setQ src false) with stat := setBit s.en.stat bit true }
      (s.en.hold = true → s.en.sel = sel → Does (.sourceLoss src) s { s with en := { e with selDead := true } }) ∧
      (s.en.hold = true → s.en.sel ≠ sel → Does (.sourceLoss src) s { s with en := e }) ∧
      (s.en.hold = false → ∃ e', Does (.sourceLoss src) s { s with en := e' } ∧ chosen e e')) ∧
    (s.en.hold = true → ∃ e, Does .selectorHoldEnd s { s with en := e } ∧ chosen { s.en with hold := false } e) ∧
    (s.en.hold = false → exec .selectorHoldEnd s = .next s)

/-- The flyback's states, the converters' stops, the harvest tracking and the cold starter. Each threshold event sets or clears
its stop and, when it sets it, its ENT_STAT bit; the flyback goes from start-up to switching and back, and a fault holds it
off until its time is over and its region has cooled; a tracking sample stores the open-circuit voltage, sets the regulation
point within one millivolt of K times it, and passes through within 100 mV of STORE; below 250 mV it is the loss of HARV.
Nothing else changes. (R37, R39, R40, R41, R45, R46, R49, R50, R51, R53, R59, R66) -/
def Obligations.ConvertersStartAndStop : Prop :=
  ∀ (s : State) (b : Bool) (cause : FlybackCause),
    (exec .flybackStart s = .next { s with en.lineCap := true, en.flyback := if s.en.flyback = .off then .startup else s.en.flyback }) ∧
    (exec .flybackStop s = .next { s with en.flyback := .off }) ∧ (exec .xCapDischarge s = .next { s with en.lineCap := false }) ∧
    (s.en.flyback = .startup → exec .flybackSwitchingStart s = .next { s with en.flyback := .switching }) ∧
    (s.en.flyback = .switching → exec .flybackVddpLow s = .next { s with en.flyback := .startup }) ∧
    (s.en.flyback ≠ .off → exec (.flybackFault cause) s = .next { s with en.flyback := .holdoff true (cause == .overTemp) }) ∧
    (s.en.flyback = .off → exec (.flybackFault cause) s = .next s) ∧
    (∀ time hot, s.en.flyback = .holdoff time hot →
      exec (.flybackRestart false) s = .next { s with en.flyback := if hot then .holdoff false true else .startup } ∧
      exec (.flybackRestart true) s = .next { s with en.flyback := if time then .holdoff true false else .startup }) ∧
    (exec (.vehOvervoltage b) s = .next { s with en.vehOv := b, en.stat := if b then setBit s.en.stat 3 true else s.en.stat }) ∧
    (exec (.hvsecOvervoltage b) s = .next { s with en.hvOv := b, en.stat := if b then setBit s.en.stat 4 true else s.en.stat }) ∧
    (exec (.storeOvervoltage b) s = .next { s with en.storeOv := b, en.stat := if b then setBit s.en.stat 5 true else s.en.stat }) ∧
    (exec (.derzorOvertemp b) s = .next { s with en.overTemp := b, en.stat := if b then setBit s.en.stat 9 true else s.en.stat }) ∧
    (exec (.storeTargetReached b) s = .next { s with en.storeFull := b }) ∧ (exec .prechargeEnd s = .next { s with en.precharge := false }) ∧
    (s.en.sel = .hv ∨ s.en.sel = .veh → exec (.entryBuckMargin b) s = .next { s with en.marginOk := b }) ∧
    (s.en.hvQ = false → s.en.vehQ = false → exec .coldStarterStart s = .next { s with en.coldStarter := true }) ∧
    (exec .coldStarterHandover s = .next { s with en.coldStarter := false }) ∧
    (∀ voc store : BitVec 16, s.en.sel = .harv → 250 ≤ voc.toNat → ∃ t, exec (.harvTrackingSample voc store) s = .next t ∧
      t = { s with en.harvVoc := t.en.harvVoc, en.harvPoint := t.en.harvPoint, en.pass := t.en.pass } ∧
      t.en.harvVoc.toNat = min voc.toNat 8191 ∧ 100 * t.en.harvPoint.toNat < (50 + 5 * s.en.cfg.k.toNat) * voc.toNat + 100 ∧
      (s.en.cfg.k.toNat ≤ 8 → (50 + 5 * s.en.cfg.k.toNat) * voc.toNat < 100 * t.en.harvPoint.toNat + 100) ∧
      (t.en.pass = true ↔ 100 * store.toNat ≤ (50 + 5 * s.en.cfg.k.toNat) * voc.toNat + 10000)) ∧
    (∀ voc store : BitVec 16, s.en.sel = .harv → voc.toNat < 250 → s.en.harvQ = true → ∃ t, exec (.harvTrackingSample voc store) s = .next t ∧
      t.en.harvQ = false ∧ t.en.stat.getLsbD 2 = true)

/-- The cell, the island's supply and VOUT3 change as their events say, and a stop ends charging. Cell and island events set
their live bits; an over-voltage of a charging cell stops its charging until STORE next reaches 3.0 V; a current limit turns
VOUT3 off; a write of VOUT3_CTL applies its mode in OPEN and AJAR and ignores the reserved code. ENT_SRC.CHG is 0 while a
stop of the selected path stands. (R45, R46, R54, R55, R56, R59, R62, R63, R66) -/
def Obligations.CellIslandAndVout3 : Prop :=
  ∀ (s : State) (b : Bool),
    (exec (.islandSupplySwitch b) s = .next { s with en.islandOnCell := b }) ∧
    (exec .cellLow s = .next { s with en.cellP := false, en.stat := if s.powered then setBit s.en.stat 6 true else s.en.stat }) ∧
    (exec .cellPresent s = .next { s with en.cellP := true }) ∧
    (exec (.cellChargeChange b) s = .next { s with en.store3v := b, en.cellOv := s.en.cellOv && !b }) ∧
    (s.en.cfg.chgEn = true → (s.en.sel = .hv ∨ s.en.sel = .veh) → s.en.store3v = true → s.en.cellOv = false →
      exec .cellOvervoltage s = .next { s with en.cellOv := true, en.stat := setBit s.en.stat 7 true }) ∧
    (s.en.cfg.chgEn = false ∨ s.en.store3v = false ∨ s.en.sel = .none ∨ s.en.sel = .harv → exec .cellOvervoltage s = .next s) ∧
    (s.en.vout3 ≠ .off → exec .vout3CurrentLimit s = .next { s with en := { s.en with vout3 := .off, vout3Pg := false, stat := setBit s.en.stat 8 true } }) ∧
    (∀ v : BitVec 16, v.toNat % 4 = 3 → exec (.vout3ModeWrite v) s = .next s) ∧
    (∀ v : BitVec 16, v.toNat % 4 < 3 → s.mainOn = true →
      let m : VoutMode := if v.toNat % 4 = 1 then .lowq else if v.toNat % 4 = 2 then .on else .off
      exec (.vout3ModeWrite v) s = .next { s with en := { s.en with vout3Ctl := v.setWidth 2, vout3 := m, vout3Pg := m != .off } }) ∧
    (∀ t, exec (.storeOvervoltage true) s = .next t → t.en.charging = false) ∧
    (∀ t, exec (.derzorOvertemp true) s = .next t → t.en.charging = false) ∧
    (∀ t, s.en.sel = .veh → exec (.vehOvervoltage true) s = .next t → t.en.charging = false) ∧
    (∀ t, s.en.sel = .hv → exec (.hvsecOvervoltage true) s = .next t → t.en.charging = false) ∧
    (s.en.sel = .hv → s.en.selDead = false → s.en.storeOv = false → s.en.overTemp = false → s.en.storeFull = false → s.en.hvOv = false →
      ∀ t, exec (.entryBuckMargin true) s = .next t → t.en.charging = true)

/-- The ledger follows the counted charge, is corrected outside its band, and starts the last gasp at its reserve. A count
message moves the ledger by charge times voltage, to the nearest 1/1024 nJ either way (log entry 6), never below 0 nor above
its ceiling; an armed ledger at or below the last-gasp reserve starts the sequence and denies what is deferred, and it arms
above 1.5 times the reserve. A correction sets the ledger to the energy of the quiet sample where it lies outside the band,
and counts it; without a sample it counts the skip. A saturated counter stops the counting. (R27, R69, R70, R71, R72, R80,
R90, R91, R95, R505, R506) -/
def Obligations.LedgerCountsAndIsCorrected : Prop :=
  ∀ (s : State) (din dout : BitVec 32) (mv : BitVec 16),
    (s.derzorOn = true → exec (.countMessage din dout mv false) s =
      .next { s with sill := { s.sill with qin := s.sill.qin + din, qout := s.sill.qout + dout, mv := mv }
                     tie.count := some { qin := s.sill.qin + din, qout := s.sill.qout + dout, mv := mv, sat := s.sill.sat } }) ∧
    (s.derzorOn = true → exec (.countMessage din dout mv true) s =
      .next { s with sill := { s.sill with qin := s.sill.qin + din, qout := s.sill.qout + dout, mv := mv }
                     tie.kfail := satInc s.tie.kfail }) ∧
    (s.derzorOn = true → exec .storeCounterSat s = .next { s with sill.sat := true, por.cntFault := true, por.counterDead := true }) ∧
    (s.tie.count = none → exec .ledgerCount s = .next s) ∧
    (∀ m, s.tie.count = some m → s.powered = true → s.por.counterDead = false →
      ∃ t up dn, exec .ledgerCount s = .next t ∧
        625 * up < 64 * ((m.qin - s.por.qinSeen).toNat * m.mv.toNat) + 625 ∧ 64 * ((m.qin - s.por.qinSeen).toNat * m.mv.toNat) < 625 * up + 625 ∧
        625 * dn < 64 * ((m.qout - s.por.qoutSeen).toNat * m.mv.toNat) + 625 ∧ 64 * ((m.qout - s.por.qoutSeen).toNat * m.mv.toNat) < 625 * dn + 625 ∧
        t.por.ledger = min (0xFFFFFFFF * 1024) (s.por.ledger + up) - dn ∧ t.por.qinSeen = m.qin ∧ t.por.qoutSeen = m.qout ∧
        t.por.lastSample = m.mv ∧ t.tie.count = none ∧
        (s.por.armed = false → 3 * s.por.cfg.res < 2 * t.por.ledger → t.por.armed = true) ∧
        (s.por.armed = true → s.por.lgActive = false → t.por.ledger ≤ s.por.cfg.res → t.por.lgActive = true ∧ t.por.deferred = []) ∧
        (s.por.cfg.res < t.por.ledger → t.por.lgActive = s.por.lgActive) ∧ (m.sat = true → t.por.counterDead = true)) ∧
    (∀ m, s.tie.count = some m → s.por.counterDead = true → ∃ t, exec .ledgerCount s = .next t ∧ t.por.ledger = s.por.ledger ∧ t.tie.count = none) ∧
    (∀ m, s.por.quiet = some m → s.powered = true → s.por.counterDead = false → ∃ t, exec .ledgerCorrection s = .next t ∧ t.por.quiet = none ∧
      t.por.skipRun = 0 ∧
      let goal := energyOf s.por.cfg.farads m.toNat * 1024
      let gap := if s.por.ledger ≤ goal then goal - s.por.ledger else s.por.ledger - goal
      (s.por.cfg.farads * m.toNat * (s.por.cfg.corrMv.toNat + 1) * 1024 < 10 * gap → t.por.ledger = goal ∧
        t.por.corrUp = (if s.por.ledger < goal then satInc s.por.corrUp else s.por.corrUp) ∧
        t.por.corrDown = (if s.por.ledger < goal then s.por.corrDown else satInc s.por.corrDown)) ∧
      (10 * gap ≤ s.por.cfg.farads * m.toNat * (s.por.cfg.corrMv.toNat + 1) * 1024 → goal < 0xFFFFFFFF * 1024 → t.por.ledger = s.por.ledger)) ∧
    (s.por.quiet = none → s.powered = true → s.por.counterDead = false → exec .ledgerCorrection s =
      .next { s with por := { s.por with skipRun := s.por.skipRun + 1, corrSkip := s.por.corrSkip || decide (s.por.skipRun + 1 ≥ 4) } }) ∧
    (exec .ledgerCaptureRead s = .next { s with por := { s.por with ledgHiCap := BitVec.ofNat 16 (s.por.ledger / 1024 / 65536)
                                                                    ledgFracCap := BitVec.ofNat 10 (s.por.ledger % 1024) }
                                                out := .word (BitVec.ofNat 16 (s.por.ledger / 1024)) }) ∧
    (exec .availCaptureRead s = .next { s with por := { s.por with availHiCap := BitVec.ofNat 16 (s.por.avail / 1024 / 65536) }
                                               out := .word (BitVec.ofNat 16 (s.por.avail / 1024)) })

/-- PERMIT_REQUEST answers grant, defer or deny with the first reason; holds and deferrals end as the rules say. The request at
the front of the lane is denied OFF to a requester its class is not for or whose policy is OFF, denied LASTGASP in the
sequence, denied BUSY when one like it is deferred, granted from its reservation or from what is available, deferred, or
denied LOW. Withdrawals, end notices, the bounds of deferrals (denied TIMEOUT) and of holds (16 ticks) act on one claim and
no other; an answer to a core is put in PG, sets its PA latch and lets a core that waits in ASKING go on. (R73, R74, R77,
R79, R80, R81, R82, R83, R226, R253) -/
def Obligations.PermitsAreDecidedInOrder : Prop :=
  ∀ (s : State) (k : BitVec 3) (r : Requester) (c : Nat) (l : List LaneMsg),
    let p := s.por
    let denied := fun (why : BitVec 3) => { p with answers := p.answers ++ [(k, r, .deny why)], denyCnt := satInc p.denyCnt, lastClass := k
                                                   lastReason := why, lastReq := r.code }
    let granted := fun (resv : Vector Nat 8) => { p with resv := resv, answers := p.answers ++ [(k, r, .grant)]
                                                         holds := p.holds ++ [{ cls := k, req := r, cost := c, age := 0 }] }
    let avail := p.ledger - p.cfg.res - (p.holds.map (·.cost)).foldl (· + ·) 0 - p.resv.toList.foldl (· + ·) 0
    let own := k ≠ 7 ∧ (r.isCore = true → k = 6)
    let open_ := own ∧ p.lgActive = false ∧ p.cfg.policy k ≠ .off ∧ (∀ d ∈ p.deferred, ¬ (d.cls = k ∧ d.req = r))
    let ends := fun (q : Porter) => Does (.permitRequest false) s { s with tie.lane := l, por := q }
    (s.tie.lane = .ask k r c :: l →
      (exec (.permitRequest true) s = .next { s with tie.lane := l, por := { p with answers := p.answers ++ [(k, r, .deny 7)] }
                                                     tie.kfail := satInc s.tie.kfail }) ∧
      (k = 7 → r.isGasp = false → ends (denied 5)) ∧ (r.isCore = true → k ≠ 6 → ends (denied 5)) ∧
      (own → p.lgActive = true → ends (denied 4)) ∧ (r.isGasp = true → k = 7 → p.lgActive = true → ends (granted p.resv)) ∧
      (own → p.lgActive = false → p.cfg.policy k = .off → ends (denied 5)) ∧
      (own → p.lgActive = false → p.cfg.policy k ≠ .off → (∃ d ∈ p.deferred, d.cls = k ∧ d.req = r) → ends (denied 3)) ∧
      (open_ → c ≤ p.resv.get k.toFin → ends (granted (p.resv.set k.toNat (p.resv.get k.toFin - c)))) ∧
      (open_ → p.resv.get k.toFin < c → c ≤ avail → ends (granted p.resv)) ∧
      (open_ → p.resv.get k.toFin < c → avail < c → p.cfg.policy k = .defer → 1 ≤ p.cfg.deferTicks k →
        ends { p with answers := p.answers ++ [(k, r, .defer)], deferCnt := satInc p.deferCnt
                      deferred := p.deferred ++ [{ cls := k, req := r, cost := c, age := 0 }] }) ∧
      (open_ → p.resv.get k.toFin < c → avail < c → ¬ (p.cfg.policy k = .defer ∧ 1 ≤ p.cfg.deferTicks k) → ends (denied 1))) ∧
    (s.tie.lane = .withdraw k r :: l →
      Does .permitWithdraw s { s with tie.lane := l, por := { p with deferred := p.deferred.filter fun d => !(d.cls == k && d.req == r) } }) ∧
    (s.tie.lane = .fin k r :: l → (∃ d ∈ p.deferred, d.cls = k ∧ d.req = r) →
      Does .holdRelease s { s with tie.lane := l, por := { p with deferred := p.deferred.filter fun d => !(d.cls == k && d.req == r) } }) ∧
    (∀ h hs, s.tie.lane = .fin k r :: l → p.deferred = [] → p.holds = h :: hs → h.cls = k → h.req = r →
      Does .holdRelease s { s with tie.lane := l, por := { p with holds := hs } }) ∧
    (∀ d, p.deferred = [d] → p.cfg.deferTicks d.cls ≤ d.age → p.resv.get d.cls.toFin < d.cost → avail < d.cost → ∃ q, q.deferred = [] ∧
      q.answers = p.answers ++ [(d.cls, d.req, .deny 2)] ∧ q.denyCnt = satInc p.denyCnt ∧ q.ledger = p.ledger ∧ q.holds = p.holds ∧
      Does .deferTimeout s { s with por := q }) ∧
    (p.deferred = [] → (∃ h ∈ p.holds, 16 ≤ h.age) → Does .holdTimeout s
      { s with por := { p with holds := p.holds.filter fun h => decide (h.age < 16)
                               holdTo := satAdd p.holdTo (p.holds.filter fun h => decide (16 ≤ h.age)).length } }) ∧
    (∀ (id : CoreId) (a : Answer) (rest : List (BitVec 3 × Requester × Answer)),
      p.answers = (k, (if id.isB then .coreB else .coreA), a) :: rest → a ≠ .defer → ∃ kc, Does .permitAnswer s
        ({ s with por := { p with answers := rest } }.setCore id kc) ∧ kc.lat = (s.core id).lat ||| 0x1000 ∧ kc.k = (s.core id).k ∧
        kc.pg = (match a with
                 | .grant => 1
                 | .defer => 2
                 | .deny why => 3 ||| (why.setWidth 8 <<< 2)) ||| (k.setWidth 8 <<< 5) ∧ ((s.core id).st = .asking → kc.st = .running)) ∧
    (p.answers = [] → exec .permitAnswer s = .next s)

/-- STORE_START_THRESHOLD, SEALED_WAKE and POWER_GOOD: what a start keeps, its cause, and how the boot begins. STORE at 2.50 V
with a source selected begins a start: every block takes its reset state; the slots, OTP, calendar, Vault store and backup
island stay. A source that fires in SEALED starts the part, or, with STORE too low, is held with PEND. At power good
RST_CAUSE names the start; a sealed start with a digest goes to the reload, any other to a full boot, which tries a STAGED
slot before an ACTIVE one, and finds no image where no slot may be tried. That the boot keeps no report of an earlier one is
part of the model (log entry 2). (R64, R124, R125, R127, R130, R180, R181, R184, R204) -/
def Obligations.StartsBeginFromReset : Prop :=
  ∀ (s : State) (src : BitVec 4) (ok : Bool),
    let starts := fun (k : StartKind) (isl : Island) (t : State) =>
      t.pwr = { Power.reset with phase := .starting, startKind := k } ∧ t.isl = isl ∧ t.por = Porter.reset ∧ t.crs = CourseEngine.reset ∧
      t.coreA = Core.reset ∧ t.coreB = Core.reset ∧ t.mem = Memory.reset ∧ t.tie = Tie.reset ∧ t.mrt = Mortar.reset ∧ t.ash = Ashlar.reset ∧
      t.prt = Ports.recovery ∧ t.pc = PortC.reset ∧ t.tch = Touch.reset ∧ t.sill = Sill.reset ∧ t.hng = Hinge.reset ∧
      t.img.slot0 = s.img.slot0 ∧ t.img.slot1 = s.img.slot1 ∧ t.vlt.store = s.vlt.store ∧ t.rtc = s.rtc ∧ t.sec.otp = s.sec.otp ∧
      t.sec.lc = s.sec.lc ∧ t.sec.uid = s.sec.uid ∧ t.en.sel = s.en.sel
    let kind : StartKind := if s.isl.digest.isSome ∨ s.isl.fired ≠ 0 then .sealed else if s.isl.brown then .brown else .cold
    let held := { s.isl with fired := setBit s.isl.fired src.toNat true }
    (s.pwr.phase = .off → s.en.sel ≠ .none → ∃ t, exec .storeStartThreshold s = .next t ∧ starts kind s.isl t) ∧
    (s.pwr.phase = .asleep .sealed → s.en.sel ≠ .none ∨ s.isl.fired ≠ 0 → ∃ t, exec .storeStartThreshold s = .next t ∧ starts kind s.isl t) ∧
    (s.pwr.phase ≠ .off → s.pwr.phase ≠ .asleep .sealed → exec .storeStartThreshold s = .next s) ∧
    (s.pwr.phase = .asleep .sealed → (src = 10 ∨ ((src = 1 ∨ src = 2 ∨ src = 4 ∨ src = 5 ∨ src = 6 ∨ src = 8) ∧ s.isl.en.getLsbD src.toNat = true)) →
      (∃ t, exec (.sealedWake src true) s = .next t ∧ starts .sealed held t) ∧
      exec (.sealedWake src false) s = .next { s with isl := { held with sealPend := true } }) ∧
    (s.pwr.phase ≠ .asleep .sealed → exec (.sealedWake src ok) s = .next s) ∧
    (s.pwr.phase = .starting → s.pwr.startKind = .sealed → s.isl.digest.isSome = true → s.sec.lc ≠ .retired →
      exec .powerGood s = .next { s with isl.rstCause := 2, pwr.phase := .boot, img.reload := true }) ∧
    (s.pwr.phase = .starting → s.pwr.startKind ≠ .sealed ∨ s.isl.digest = none →
      ∃ t, exec .powerGood s = .next t ∧ t = { s with isl := t.isl, img := t.img, pwr.phase := t.pwr.phase } ∧
        t.isl = { s.isl with rstCause := match s.pwr.startKind with
                               | .cold => 0
                               | .brown => 1
                               | .sealed => 3 } ∧ t.img.reload = false ∧ t.img.tried = false ∧ t.img.slot0 = s.img.slot0 ∧ t.img.slot1 = s.img.slot1 ∧
        (s.sec.lc = .retired → t.pwr.phase = .noImage) ∧
        (s.sec.lc ≠ .retired → s.img.slot0.st = .active → s.img.slot1.st ≠ .staged → s.img.slot1.st ≠ .active → t.pwr.phase = .boot ∧
          t.img.order.head? = some false) ∧
        (s.sec.lc ≠ .retired → s.img.slot1.st = .staged → s.img.slot0.st ≠ .staged → t.pwr.phase = .boot ∧ t.img.order.head? = some true) ∧
        ((s.img.slot0.st = .empty ∨ s.img.slot0.st = .writing) → (s.img.slot1.st = .empty ∨ s.img.slot1.st = .writing) → t.pwr.phase = .noImage)) ∧
    (s.pwr.phase ≠ .starting → exec .powerGood s = .next s)

/-- BROWNOUT, BACKUP_ISLAND_RESET, DRAIN_BOUND_EXPIRY and LAST_GASP_SEAL. A brownout of a powered part cuts every rail, sets
BROWN, clears the digest and what the island keeps for SEALED. An island reset gives the calendar and the island their reset
values; a part in SEALED then starts cold. When the drain bound ends, records not programmed are discarded into one gap of
cause DRAIN with QLOST. After the flush of the last gasp the part enters SEALED with REASON LASTGASP, its digest and wake
settings in the island; before, nothing happens. (R54, R55, R65, R91, R115, R117, R128, R131, R517) -/
def Obligations.PowerIsLostInOneStep : Prop :=
  ∀ (s : State),
    (s.pwr.phase ≠ .off → s.pwr.phase ≠ .asleep .sealed → exec .brownout s =
      .next { s with isl := { s.isl with brown := true, digest := none, en := 0, mode0 := 0, mode1 := 0, fired := 0 }
                     en := { s.en with islandOnCell := true, vout3 := .off, vout3Pg := false }
                     pwr.phase := .off, img := { s.img with digest := none, sess := none } }) ∧
    (s.pwr.phase = .off ∨ s.pwr.phase = .asleep .sealed → exec .brownout s = .next s) ∧
    (s.pwr.phase ≠ .asleep .sealed → exec .backupIslandReset s = .next { s with isl := Island.reset, rtc := Rtc.reset }) ∧
    (s.pwr.phase = .asleep .sealed → exec .backupIslandReset s = .next { s with isl := Island.reset, rtc := Rtc.reset, pwr.phase := .off }) ∧
    (∀ z, s.pwr.phase = .entering z → z ≠ .latched →
      (s.pwr.drainOver = false → 32 ≤ s.pwr.drainTicks → s.vlt.leave = .none → s.vlt.flight = [] →
        ∃ t, exec .drainBoundExpiry s = .next t ∧ t = { s with vlt := t.vlt, pwr.qlost := t.pwr.qlost, pwr.drainOver := true } ∧
          t.vlt.queue = [] ∧ t.vlt.store = s.vlt.store ∧ t.vlt.seq = s.vlt.seq ∧ (s.vlt.queue = [] → t.pwr.qlost = s.pwr.qlost ∧ t.vlt.gaps = s.vlt.gaps) ∧
          (s.vlt.queue ≠ [] → t.pwr.qlost = true ∧ (s.vlt.gaps = [] → ∃ g, t.vlt.gaps = [g] ∧ g.cause = .drain ∧ g.lost = s.vlt.queue.length))) ∧
      (s.pwr.drainTicks < 32 → exec .drainBoundExpiry s = .next s)) ∧
    (s.por.lgActive = true → s.pwr.phase = .awake → s.crs.running = false → gaspDone s = true → ∃ t, exec .lastGaspSeal s = .next t ∧
      t.isl.sealReason = 2 ∧ t.isl.digest = s.img.digest ∧ t.isl.sealPend = false ∧ t.isl.en = s.pwr.wakeEn &&& 0x176 ∧
      t = { s with isl := t.isl, en := { s.en with islandOnCell := true, vout3 := .off, vout3Pg := false }, pwr.phase := .asleep .sealed
                   img.sess := none }) ∧
    (s.por.lgActive = false ∨ s.crs.running = true ∨ gaspDone s = false → exec .lastGaspSeal s = .next s)

/-- SLEEP_ENTRY_GATE, LATCHED_FREEZE and SEALED_ENTRY: what each state of sleep closes, keeps and records. With drain and heavy
operations ended and no course pending for TICK, an entry to SHUTTERED or BARRED closes the data paths of the ports, ends the
store session, counts and clears pending occurrences, switches core A off and freezes core B; an entry to LATCHED freezes
both cores and changes nothing else of the main domain. Before that the commands change nothing. An entry to SEALED copies
digest, wake bits and WAKE modes to the island with REASON SLEEP. The step numbers follow R114; that an unread message sets
MBOX_LOST is R115. (R99, R106, R108, R109, R112, R114, R115, R117, R165, R212) -/
def Obligations.SleepIsEnteredWhenAllHasEnded : Prop :=
  ∀ (s : State) (z : Sleep),
    let closed := fun (p q : PortSt) => q = { p with held := false, posted := false, svc := false }
    s.pwr.phase = .entering z →
    (z = .shuttered ∨ z = .barred → drainDone s = true → opsIdle s = true → s.crs.pend = [] ∨ s.pwr.entryNoTick = true →
      ∃ t, exec .sleepEntryGate s = .next t ∧ t.pwr.phase = .asleep z ∧ t.pwr.last = z.code ∧ t.pwr.sleptAt = s.crs.tick ∧ t.coreA.st = .off ∧
        (∃ b, t.coreB.st = .frozen b) ∧ t.crs.pend = [] ∧ t.crs.sleptCnt = satAdd s.crs.sleptCnt s.crs.pend.length ∧ t.tch.pending = false ∧
        t.img.svc = [] ∧ t.img.replies = [] ∧ t.img.sess = none ∧ closed s.prt.s t.prt.s ∧ closed s.prt.q t.prt.q ∧ closed s.prt.u t.prt.u ∧
        (t.pwr.mboxLost = true ↔ s.pwr.mboxLost = true ∨ (s.prt.s.posted || s.prt.s.svc || s.prt.q.posted || s.prt.q.svc || s.prt.u.posted || s.prt.u.svc) = true) ∧
        t.mem = s.mem ∧ t.mrt = s.mrt ∧ t.ash = s.ash ∧ t.pin = s.pin ∧ t.rtc = s.rtc ∧ t.isl = s.isl ∧ t.por = s.por ∧ t.sec = s.sec ∧
        t.coreA.k = s.coreA.k ∧ t.coreB.k = s.coreB.k ∧ t.vlt.queue = s.vlt.queue ∧ t.vlt.store = s.vlt.store ∧
        (s.pwr.entryNoTick = true → t.pwr.wakeTick = none)) ∧
    (drainDone s = false ∨ opsIdle s = false → exec .sleepEntryGate s = .next s) ∧ (opsIdle s = false → exec .latchedFreeze s = .next s) ∧
    (z = .latched → opsIdle s = true → s.crs.pend = [] ∨ s.pwr.entryNoTick = true → ∃ t, exec .latchedFreeze s = .next t ∧
      t.pwr.phase = .asleep .latched ∧ t.pwr.last = 2 ∧ t.pwr.sleptAt = s.crs.tick ∧ (∃ b, t.coreA.st = .frozen b) ∧ (∃ b, t.coreB.st = .frozen b) ∧
      t.crs = s.crs ∧ t.mem = s.mem ∧ t.mrt = s.mrt ∧ t.ash = s.ash ∧ t.vlt = s.vlt ∧ t.prt = s.prt ∧ t.pc = s.pc ∧ t.pin = s.pin ∧ t.img = s.img ∧
      t.pane = s.pane ∧ t.sill = s.sill ∧ t.rtc = s.rtc ∧ t.sec = s.sec ∧ t.por = s.por ∧ t.coreA.k = s.coreA.k ∧ t.coreB.k = s.coreB.k) ∧
    (z = .sealed → drainDone s = true → opsIdle s = true → ∃ t, exec .sealedEntry s = .next t ∧ t.pwr.phase = .asleep .sealed ∧
      t.isl = { s.isl with digest := s.img.digest, sealSlot := s.img.active.getD false, en := s.pwr.wakeEn &&& 0x176, mode0 := s.crs.wakeMode0
                           mode1 := s.crs.wakeMode1, sealReason := 1, sealPend := false, fired := 0 } ∧
      t.en.islandOnCell = true ∧ t.en.vout3 = .off ∧ t.rtc = s.rtc ∧ t.vlt = s.vlt ∧ t.img.slot0 = s.img.slot0 ∧ t.img.slot1 = s.img.slot1)

/-- What a wake source does in each state, and what the answer for the wake does. A source that is enabled (C always) begins the
wake: in LATCHED at once, in SHUTTERED and BARRED with a request in P0 (for C in P7); it abandons an entry before its point
of no return, and in SEALED is held in the island. One that is not enabled does nothing. The WAKE lands, the activity
detectors in SEALED, and HCK, which the Hinge answers 0b1111, fire so. A grant lets the wake go on; a denial leaves the part
asleep and records WAKE_LOST. (R99, R102, R103, R104, R116, R120, R121, R123, R124, R400, R533) -/
def Obligations.WakeSourcesFireAndAreAnswered : Prop :=
  ∀ (s : State) (n : Nat),
    (∀ z, s.pwr.phase = .asleep z → z ≠ .sealed → (n = 0 ∨ (n ≠ 10 ∧ s.pwr.wakeEn.getLsbD n = true)) → n < 12 →
      fire n s = { s with pwr := { s.pwr with phase := .waking z (decide (z = .latched)), latched := setBit s.pwr.latched n true
                                              slpTicks := (s.crs.tick - s.pwr.sleptAt).setWidth 32 }
                          tie.lane := if z = .latched then s.tie.lane else s.tie.lane ++ [.ask (if n = 0 then 7 else 0) (if n = 0 then .gaspWake else .wakeRouter) (s.classCost 0)] }) ∧
    (∀ z, s.pwr.phase = .asleep z → z ≠ .sealed → n ≠ 0 → s.pwr.wakeEn.getLsbD n = false → fire n s = s) ∧
    (∀ z, s.pwr.phase = .entering z → z ≠ .sealed → n ≠ 10 → s.pwr.wakeEn.getLsbD n = true → n < 12 → ∃ t, fire n s = t ∧ t.pwr.phase = .awake ∧
      t.pwr.wakeSrc = bitAt 12 n true ∧ t.pwr.abandon = true ∧ t = { s with pwr := t.pwr, crs.forced := t.crs.forced }) ∧
    (s.pwr.phase = .asleep .sealed → (n = 10 ∨ ((n = 1 ∨ n = 2 ∨ n = 4 ∨ n = 5 ∨ n = 6 ∨ n = 8) ∧ s.isl.en.getLsbD n = true)) →
      fire n s = { s with isl.fired := setBit s.isl.fired n true }) ∧
    exec (.wakeLandEdge false) s = .next (fire 1 s) ∧ exec (.wakeLandEdge true) s = .next (fire 2 s) ∧
    (s.pwr.phase = .awake → exec (.wakeLandEdge false) s = .next { s with pwr.wakeSrc := setBit s.pwr.wakeSrc 1 true }) ∧
    (s.pwr.phase = .asleep .sealed → s.isl.en.getLsbD 4 = true → exec (.portActivityDetect .s) s = .next { s with isl.fired := setBit s.isl.fired 4 true }) ∧
    (s.pwr.phase = .asleep .sealed → s.isl.en.getLsbD 5 = true → exec (.portActivityDetect .q) s = .next { s with isl.fired := setBit s.isl.fired 5 true }) ∧
    (s.pwr.phase = .asleep .sealed → s.isl.en.getLsbD 6 = true → exec (.portActivityDetect .u) s = .next { s with isl.fired := setBit s.isl.fired 6 true }) ∧
    (∀ p, s.pwr.phase ≠ .asleep .sealed → exec (.portActivityDetect p) s = .next s) ∧
    (∀ z, s.pwr.phase = .asleep z → z ≠ .sealed → s.pin.vioOk.getLsbD 0 = true → exec .hingeClockActivity s = .next ((fire 11 s).reply (.hinge 0xF none))) ∧
    (s.pwr.phase = .awake → exec .hingeClockActivity s = .next s) ∧
    (∀ z k a l, s.pwr.phase = .waking z false → s.por.answers = (k, .wakeRouter, a) :: l →
      (a = .grant → exec .wakeLeaveAnswer s = .next { s with por.answers := l, pwr.phase := .waking z true }) ∧
      (∀ why, a = .deny why → s.pwr.latched.getLsbD 0 = false → exec .wakeLeaveAnswer s =
        .next { s with por.answers := l, pwr := { s.pwr with phase := .asleep z, wakeLost := s.pwr.wakeLost ||| s.pwr.latched, latched := 0 } })) ∧
    (s.por.answers = [] → exec .wakeLeaveAnswer s = .next s)

/-- WAKE_COMPLETE, LATCHED_WAKE_COMPLETE, ASHLAR_RELOAD_END and WARM_RESET: what each clears and keeps. A wake from SHUTTERED
keeps bank 0 and the banks in SLP_BANKS, from BARRED bank 0 alone; the others and the mailboxes read 0x00, core A's registers
are 0, core B's stay, WAKE_SRC names the sources. A wake from LATCHED resumes every handshake with its state. The reload sets
bank 1 to 15 fences to the banks that failed their self-test. A warm reset in OPEN or AJAR ends the running course, sets both
cores' registers to 0, restarts the schedule at course 0 and keeps memory. (R110, R112, R113, R120, R121, R122, R129, R189,
R204, R284, R355) -/
def Obligations.WakesCompleteAndWarmResetsRestart : Prop :=
  ∀ (s : State) (who : Who),
    (∀ z, s.pwr.phase = .waking z true → z = .shuttered ∨ z = .barred → s.por.holds = [] →
      ∃ t u, exec .wakeComplete s = .next t ∧ Settled u t ∧ u.pwr.phase = .awake ∧ u.pwr.wakeSrc = s.pwr.latched ∧ u.pwr.latched = 0 ∧ u.pwr.ashRld = true ∧
        u.pwr.wakeTick = none ∧ u.coreA = s.coreA.restart ∧ u.coreA.st = .idle ∧ (∀ r, u.coreA.reg r = 0) ∧ u.coreB.k = s.coreB.k ∧ u.ash.testing = 0xFFFF ∧
        (∀ k : Nat, k < 12 → ∀ a, 0x1000 + 0x1000 * k ≤ a → a < 0x2000 + 0x1000 * k →
          Bytes.read 0 u.mem.bytes a = if z = .shuttered ∧ s.pwr.slpBanks.getLsbD k = true then Bytes.read 0 s.mem.bytes a else 0) ∧
        (∀ a, a < 0x1000 → Bytes.read 0 u.mem.bytes a = Bytes.read 0 s.mem.bytes a) ∧
        (∀ a, 0xF000 ≤ a → a < 0x10000 → Bytes.read 0 u.mem.bytes a = 0) ∧
        u.crs = { s.crs with forced := u.crs.forced } ∧ u.hng = { Hinge.reset with fails := s.hng.fails } ∧ u.vlt = s.vlt ∧ u.pin = s.pin ∧ u.rtc = s.rtc ∧
        u.isl = s.isl ∧ u.por = s.por ∧ u.img = s.img ∧ u.ash.entries = s.ash.entries) ∧
    (s.pwr.phase = .waking .latched true → ∃ u, Does .latchedWakeComplete s u ∧ u.pwr.phase = .awake ∧ u.pwr.wakeSrc = s.pwr.latched ∧
      u.coreA = { s.coreA with st := u.coreA.st } ∧ u.coreB = { s.coreB with st := u.coreB.st } ∧ u.crs = s.crs ∧ u.mem = s.mem ∧
      (s.coreA.st = .frozen false → u.coreA.st = .idle) ∧ (s.coreA.st = .frozen true → u.coreA.st = .halted .idle) ∧ u.vlt = s.vlt ∧ u.prt = s.prt ∧
      u.pc = s.pc ∧ u.pane = s.pane ∧ u.ash.entries = s.ash.entries ∧ u.mrt = { s.mrt with calDirty := true }) ∧
    ((∀ z, s.pwr.phase ≠ .waking z true) → exec .wakeComplete s = .next s ∧ exec .latchedWakeComplete s = .next s) ∧
    (s.mainOn = true → s.pwr.ashRld = true → s.ash.testFail = 0 → s.ash.entries = [] → s.ash.image = [] → s.ash.setA.op = none → s.ash.setB.op = none →
      exec .ashlarReloadEnd s = .next { s with ash.fence := s.ash.fence &&& 1, pwr.ashRld := false }) ∧
    (s.mainOn = true → s.pwr.ashRld = true → ∃ t, exec .ashlarReloadEnd s = .next t ∧ t.pwr.ashRld = false ∧ t = { s with ash := t.ash, pwr := t.pwr } ∧
      (∀ b : Nat, 1 ≤ b → b < 16 → t.ash.fence.getLsbD b = s.ash.testFail.getLsbD b) ∧ t.ash.fence.getLsbD 0 = s.ash.fence.getLsbD 0) ∧
    (s.pwr.ashRld = false → exec .ashlarReloadEnd s = .next s) ∧
    (s.pwr.phase = .awake → s.crs.running = false → Does (.warmReset who) s
      { s with coreA := { s.coreA.restart with sched := s.coreA.sched }, coreB := { s.coreB.restart with sched := s.coreB.sched }
               crs := { s.crs with pend := [], forced := some 0, newEpoch := true }, isl.rstCause := 4, img.sess := none }) ∧
    (s.pwr.phase = .awake → s.crs.running = true → ∃ u, Does (.warmReset who) s u ∧ u.crs.running = false ∧ u.crs.forced = some 0 ∧
      u.isl = { s.isl with rstCause := 4 } ∧ u.mem = s.mem ∧ (∀ r, u.coreA.reg r = 0 ∧ u.coreB.reg r = 0) ∧ u.img = { s.img with sess := none } ∧
      u.vlt.store = s.vlt.store ∧ u.rtc = s.rtc ∧ u.pin = s.pin) ∧
    (s.pwr.phase ≠ .awake → exec (.warmReset who) s = .next s)

/-- BOOT_VERIFY_END: a slot that fails is marked and the next one tried; one that passes becomes active and runs. A slot that
fails verification becomes FAILED with its reason, and the boot goes on with the next slot or ends without an image. One that
passes becomes ACTIVE above both sequence numbers, the earlier ACTIVE slot STANDBY; the part is awake with course 0 forced
and a new epoch, the ledger set from the latest sample, WAKE_SRC from the island, and calendar, OTP and Vault store as they
were. The reload of a sealed wake needs the digest to agree, else a full boot follows with cause SEALED_FULL. That a slot in
the boot order of which another is staged cannot pass first is part of the order. (R67, R124, R125, R126, R143, R180, R181,
R182, R183, R184) -/
def Obligations.BootVerifiesOneSlotAtATime : Prop :=
  ∀ (s : State),
    (s.pwr.phase = .boot → s.img.reload = false → ∀ n l, s.img.order = n :: l →
      let k := s.img.slot n
      match verifySlot s.sec true k with
      | .inl why => exec .bootVerifyEnd s =
          .next { s with img := { s.img.putSlot n { k with st := .failed, fails := satInc k.fails, reason := why } with
                                  order := l, tried := true, failReason := why, failSlot := n }
                         pwr.phase := if l = [] then .noImage else .boot }
      | .inr _ => ∃ u, Does .bootVerifyEnd s u ∧ u.pwr.phase = .awake ∧ u.img.active = some n ∧ (u.img.slot n).st = .active ∧
          (u.img.slot n).code = k.code ∧ (u.img.slot n).str = k.str ∧ (k.st ≠ .active → (u.img.slot (!n)).st ≠ .active) ∧
          (k.st ≠ .active → (u.img.slot n).seq = BitVec.ofNat 32 (max s.img.slot0.seq.toNat s.img.slot1.seq.toNat + 1)) ∧
          ((s.img.slot (!n)).st = .active → k.st ≠ .active → (u.img.slot (!n)).st = .standby) ∧
          u.img.digest = some k.digest ∧ u.img.fallback = s.img.tried ∧ u.img.swapped = (k.st == .staged) ∧ u.img.selfSigned = !keyHashSet s.sec ∧
          u.crs.forced = some 0 ∧ u.crs.newEpoch = true ∧ u.crs.running = false ∧ u.crs.pend = [] ∧ u.crs.tick = s.crs.tick ∧
          u.pwr.wakeSrc = s.isl.fired ∧ u.isl = { s.isl with fired := 0 } ∧ u.en.vout3 = u.en.cfg.voutOpen ∧ u.coreA.k = s.coreA.k ∧
          (s.por.lastSample ≠ 0 → u.por.ledger = energyOf u.por.cfg.farads s.por.lastSample.toNat * 1024) ∧
          u.mem.errs = [] ∧ u.rtc = s.rtc ∧ u.vlt.store = s.vlt.store ∧ u.sec = s.sec) ∧
    (s.pwr.phase = .boot → s.img.reload = true →
      let n := s.isl.sealSlot
      let k := s.img.slot n
      (s.isl.digest = some k.digest → match verifySlot s.sec false k with
        | .inr _ => ∃ u, Does .bootVerifyEnd s u ∧ u.pwr.phase = .awake ∧ u.img.active = some n ∧ u.img.slot0 = s.img.slot0 ∧
            u.img.slot1 = s.img.slot1 ∧ u.isl = { s.isl with fired := 0 } ∧ u.pwr.wakeSrc = s.isl.fired ∧ u.crs.forced = some 0 ∧
            u.img.digest = some k.digest
        | .inl _ => ∃ t, exec .bootVerifyEnd s = .next t ∧ t.isl = { s.isl with rstCause := 3 } ∧ t.img.reload = false) ∧
      (s.isl.digest ≠ some k.digest → s.sec.lc = .retired → ∃ t, exec .bootVerifyEnd s = .next t ∧ t.pwr.phase = .noImage ∧ t.isl = { s.isl with rstCause := 3 }) ∧
      (s.isl.digest ≠ some k.digest → ∃ t, exec .bootVerifyEnd s = .next t ∧ t.isl = { s.isl with rstCause := 3 } ∧ t.img.reload = false ∧
        t.img.slot0 = s.img.slot0 ∧ t.img.slot1 = s.img.slot1)) ∧
    (s.pwr.phase ≠ .boot → exec .bootVerifyEnd s = .next s)

/-- The store service: what QUERY, OPEN, WRITE, CLOSE, COMMIT, ABORT and UNSTAGE do, and when each is refused. The message at the
front is answered with one reply in its place. A port without the right is DENIED, the last gasp answers LASTGASP, another
port's session BUSY, a message without its session STATE; OPEN refuses the active slot, a wrong length and a worn slot, else
erases the slot, counts the write and opens the session; WRITE takes data in order alone and within the length; CLOSE
verifies, with STANDBY or FAILED and its reason; COMMIT stages a STANDBY slot, clears the held digest and lets a boot without
an image go on; ABORT empties the slot; UNSTAGE returns it. The order among refusals is the model's choice (log entry 23).
(R186, R187, R188, R189, R190, R395, R583, R588) -/
def Obligations.StoreServiceKeepsItsStates : Prop :=
  ∀ (s : State) (m : SvcMsg) (rest : List SvcMsg), s.img.svc = m :: rest → s.mainOn = true ∨ s.pwr.phase = .noImage →
    let replied := fun (b : List Byte) (x : Store) => { x with svc := rest, replies := s.img.replies ++ [{ m with payload := b }] }
    let gets := fun (i : Instr) (b : List Byte) (x : Store) => exec i s = .next { s with img := replied b x }
    let gives := fun (i : Instr) (b : List Byte) => gets i b s.img
    let other := ∃ e, s.img.sess = some e ∧ e.port ≠ m.port
    (s.img.active ≠ none → s.img.updPorts.getLsbD (portIdx m.port) = false →
      (m.opcode = 0xF1 → gives .slotQuery [2]) ∧ (m.opcode = 0xF2 → gives .slotOpen [2]) ∧ (m.opcode = 0xF3 → gives .slotWrite [2]) ∧
      (m.opcode = 0xF4 → gives .slotClose [2]) ∧ (m.opcode = 0xF5 → gives .slotCommit [2]) ∧ (m.opcode = 0xF6 → gives .slotAbort [2]) ∧
      (m.opcode = 0xF7 → gives .slotUnstage [2])) ∧
    (s.img.active = none ∨ s.img.updPorts.getLsbD (portIdx m.port) = true →
      (s.sec.lc = .retired → (m.opcode = 0xF2 → gives .slotOpen [2]) ∧ (m.opcode = 0xF5 → gives .slotCommit [2])) ∧
      (s.por.lgActive = true → (m.opcode = 0xF1 → gives .slotQuery [7])) ∧
      (s.por.lgActive = false →
        (m.opcode = 0xF1 → m.payload = [] → ∃ b, gives .slotQuery b ∧ b.length = 52 ∧ b.head? = some 0 ∧
          b.getD 1 0 = (match s.img.active with
                        | some n => if n then 1 else 0
                        | none => 0xFF)) ∧
        (s.sec.lc ≠ .retired →
          (m.opcode = 0xF2 → other → gives .slotOpen [1]) ∧ (m.opcode = 0xF3 → other → gives .slotWrite [1]) ∧
          (s.img.sess = none → (m.opcode = 0xF3 → gives .slotWrite [3]) ∧ (m.opcode = 0xF4 → gives .slotClose [3]) ∧ (m.opcode = 0xF6 → gives .slotAbort [3])) ∧
          (m.opcode = 0xF2 → s.img.sess = none → m.payload.length = 5 → ∀ n, m.payload.head? = some (if n then 1 else 0) →
            let len := ofBe (m.payload.drop 1)
            (s.img.active = some n → gives .slotOpen [3]) ∧
            (s.img.active ≠ some n → len < 8 ∨ 196576 < len ∨ len % 8 ≠ 0 → gives .slotOpen [4]) ∧
            (s.img.active ≠ some n → 8 ≤ len → len ≤ 196576 → len % 8 = 0 → ∀ w, (s.img.slot n).writes = some w →
              (10000 ≤ w.toNat → gives .slotOpen [6]) ∧
              (w.toNat < 10000 → gets .slotOpen [0] { s.img.putSlot n { s.img.slot n with code := [], str := [], st := .writing, writes := some (w + 1) } with
                                                   sess := some { port := m.port, slot := n, len := len, next := 0 } }))) ∧
          (∀ e, s.img.sess = some e → e.port = m.port →
            (m.opcode = 0xF2 → m.payload.length = 5 → gives .slotOpen [3]) ∧
            (m.opcode = 0xF3 → 12 ≤ m.payload.length → m.payload.length ≤ 500 → (m.payload.length - 4) % 8 = 0 →
              let off := ofBe (m.payload.take 4)
              let data := m.payload.drop 4
              let k := s.img.slot e.slot
              (off ≠ e.next → gives .slotWrite [5]) ∧ (off = e.next → e.len < off + data.length → gives .slotWrite [4]) ∧
              (off = e.next → off + data.length ≤ e.len → off + data.length ≤ 65504 → codeSect (tableAfter k off data) = none → Bytes.wf 0xFF k.str = true →
                ∃ t, exec .slotWrite s = .next t ∧ t = { s with img := t.img } ∧ t.img.sess = some { e with next := off + data.length } ∧
                  t.img = replied [0] { s.img.putSlot e.slot (t.img.slot e.slot) with sess := t.img.sess } ∧ (t.img.slot e.slot).st = k.st ∧
                  ∀ a, Bytes.read 0xFF (t.img.slot e.slot).str a = if off ≤ a ∧ a < off + data.length then data.getD (a - off) 0 else Bytes.read 0xFF k.str a)) ∧
            (m.opcode = 0xF4 → m.payload = [] → s.sec.engine = none → s.sec.waiters = [] →
              let k := s.img.slot e.slot
              match verifySlot s.sec true k with
              | .inr _ => gets .slotClose [0] { s.img.putSlot e.slot { k with st := .standby } with sess := none }
              | .inl why => gets .slotClose [0x10 + why.setWidth 8]
                  { s.img.putSlot e.slot { k with st := .failed, fails := satInc k.fails, reason := why } with sess := none }) ∧
            (m.opcode = 0xF6 → m.payload = [] → gets .slotAbort [0]
              { s.img.putSlot e.slot { s.img.slot e.slot with st := .empty } with sess := none })) ∧
          (∀ n, m.opcode = 0xF5 → m.payload = [if n then 1 else 0] →
            (s.img.active = some n ∨ (s.img.slot n).st ≠ .standby → gives .slotCommit [3]) ∧
            (s.img.active ≠ some n → (s.img.slot n).st = .standby → ∃ t, exec .slotCommit s = .next t ∧
              t = { s with img := t.img, isl.digest := none, pwr.phase := if s.pwr.phase = .noImage then .boot else s.pwr.phase } ∧
              (t.img.slot n) = { s.img.slot n with st := .staged } ∧ t.img.digest = none ∧ (t.img.slot (!n)).st ≠ .staged ∧
              t.img.replies = s.img.replies ++ [{ m with payload := [0] }] ∧ t.img.svc = rest ∧ (s.pwr.phase = .noImage → t.img.order = [n]))) ∧
          (m.opcode = 0xF7 → m.payload = [] →
            (s.img.slot0.st = .staged → gets .slotUnstage [0] { s.img with slot0 := { s.img.slot0 with st := .standby }, slot1 := s.img.slot1.unstaged }) ∧
            (s.img.slot0.st ≠ .staged → s.img.slot1.st = .staged → gets .slotUnstage [0]
              { s.img with slot1 := { s.img.slot1 with st := .standby } }) ∧
            (s.img.slot0.st ≠ .staged → s.img.slot1.st ≠ .staged → gives .slotUnstage [3])))))

/-- POLL, READ, STATUS and unknown commands on ports S, Q and U; mailboxes released and posted; service replies placed. A port
that answers gives its porch word at POLL, its status record and a cleared ERR at STATUS, its posted message with CRC at READ
(the empty message when none is posted), port S the porch word first; a message taken whole frees the half. An unknown
command and a framing error are recorded, the first record kept. DONE releases the in half; POST posts a message of at most
508 bytes when the half is free, else sets REFUSED; the service places its reply in a free out half. That a command on a port
that does not answer sends nothing is the model's (log entry 27). (R385, R387, R388, R391, R393, R394, R395, R396, R397,
R398) -/
def Obligations.PortsPollReadAndPost : Prop :=
  ∀ (s : State) (p : PortId),
    let k := s.prt.get p
    let up := portUp p s = true ∧ (p = .u → s.prt.u.discLeft = 0)
    let first : List Byte := if p = .s then wireWord (porchWord p s) else []
    let out : Reply := if p = .s then .bytes first else .none
    let noted : Byte → Byte → Byte → PortSt → PortSt := fun c o t k => if k.errSet then { k with errMore := satInc k.errMore, errcnt := satInc k.errcnt } else
      { k with errCode := c, errOp := o, errTag := t, errMore := 0, errSet := true, errcnt := satInc k.errcnt }
    let i := portIdx p
    let quiet := fun (h : Nat) => ∀ e ∈ s.mem.errs, e.1 + 1 < h ∨ h + 512 ≤ e.1
    let h := fun (n : Nat) => Bytes.read 0 s.mem.bytes (outHalf i + n)
    let len := min 508 ((h 2).toNat + 256 * (h 3).toNat)
    (up → exec (.portPoll p) s = .next { s with out := .bytes (wireWord (porchWord p s)) }) ∧
    (up → exec (.portStatus p) s = .next { s.putPort p { k with errCode := 0, errOp := 0, errTag := 0, errMore := 0, errSet := false } with
                                           out := .bytes (first ++ [k.errCode, k.errOp, k.errTag, k.errMore]) }) ∧
    (portUp p s = false → exec (.portPoll p) s = .next { s with out := .none } ∧ exec (.portStatus p) s = .next { s with out := .none } ∧
      exec (.portRead p true) s = .next { s with out := .none }) ∧
    (∀ b : Byte, up → p = .u ∨ b.toNat < 0xA0 ∨ 0xA3 < b.toNat → exec (.portUnknownCommand p b) s = .next { s.putPort p (noted 8 b 0 k) with out := out }) ∧
    (portUp .u s = true → exec .portUIdleGap s = .next { s with prt.u.discLeft := 0 }) ∧
    (p = .u → up → exec .portUFramingError s = .next { s.putPort p (noted 9 0 0 k) with out := .none }) ∧
    (up → portReady s = true → k.posted = false → k.svc = false → ∀ w, exec (.portRead p w) s = .next { s with out := .bytes (first ++ wireMessage 0 0 []) }) ∧
    (up → portReady s = true → k.posted = true ∨ k.svc = true → quiet (outHalf i) →
      let answer := Reply.bytes (first ++ wireMessage (h 0) (h 1) ((List.range len).map fun n => h (4 + n)))
      exec (.portRead p false) s = .next { s with out := answer } ∧
      Does (.portRead p true) s { s.putPort p { k with posted := false, svc := false, txcnt := satInc k.txcnt } with out := answer }) ∧
    (s.awake = true → exec (.mailboxInRelease p) s = .next (s.putPort p { k with held := false })) ∧
    (s.awake = true → quiet (outHalf i) →
      (k.posted = false → k.svc = false → (h 2).toNat + 256 * (h 3).toNat ≤ 508 → exec (.mailboxOutPost p) s = .next (s.putPort p { k with posted := true })) ∧
      (k.posted = true ∨ k.svc = true ∨ 508 < (h 2).toNat + 256 * (h 3).toNat → exec (.mailboxOutPost p) s = .next (s.putPort p { k with refused := true }))) ∧
    ((∀ m ∈ s.img.replies, m.port ≠ p) ∨ k.posted = true ∨ k.svc = true ∨ portReady s = false → exec (.storeServiceReply p) s = .next s) ∧
    (∀ m rest, s.img.replies = m :: rest → m.port = p → (∀ x ∈ rest, x.port ≠ p) → k.posted = false → k.svc = false → portReady s = true →
      quiet (outHalf i) → m.payload.length ≤ 508 → Bytes.wf 0 s.mem.bytes = true →
      ∃ t, exec (.storeServiceReply p) s = .next t ∧ t = { s.putPort p { k with svc := true } with mem := t.mem, img := { s.img with replies := rest } } ∧
        ∀ a, Bytes.read 0 t.mem.bytes a = if outHalf i ≤ a ∧ a < outHalf i + 4 + m.payload.length
          then ([m.opcode, m.tag, BitVec.ofNat 8 m.payload.length, BitVec.ofNat 8 (m.payload.length / 256)] ++ m.payload).getD (a - outHalf i) 0
          else Bytes.read 0 s.mem.bytes a)

/-- PORT_WRITE places a good message, gives the store service its own, or records the first reason against it. On a port that
answers: while READY is 0 the message is turned away with ASLEEP and fires the wake source, with INSPACE 0 with FULL; then a
short one with SHORT, on port U a framing error with FRAME, a wrong CRC with CRC, a reserved opcode with OPCODE, a mailbox
without owner with NOOWNER; a good message from 0x01 to 0xEF lies in the in half, which is held and counted, one from 0xF1 to
0xF7 goes to the store service. Where several hold the first of the table is recorded. Port Q's earlier refusals record no
opcode (log entry 27) and are not said here. (R387, R388, R390, R391, R392, R393, R394, R395, R397, R398, R411) -/
def Obligations.PortWritesAreCheckedInOrder : Prop :=
  ∀ (s : State) (p : PortId) (op tag : Byte) (payload extra : List Byte) (ok : Bool),
    let k := s.prt.get p
    let up := portUp p s = true ∧ (p = .u → s.prt.u.discLeft = 0)
    let n := payload.length
    let sum := porchCrc ([op, tag, BitVec.ofNat 8 (n / 256), BitVec.ofNat 8 n] ++ payload)
    let good := payload ++ wireWord sum
    let out : Reply := if p = .s then .bytes (wireWord (porchWord p s)) else .none
    let noted : Byte → PortSt → PortSt := fun c k => if k.errSet then { k with errMore := satInc k.errMore, errcnt := satInc k.errcnt } else
      { k with errCode := c, errOp := op, errTag := tag, errMore := 0, errSet := true, errcnt := satInc k.errcnt }
    let writes := fun (l : List Byte) (okf : Bool) => exec (.portWrite p op tag (BitVec.ofNat 16 n) l okf) s
    let placed := fun (t : State) => ∀ a, Bytes.read 0 t.mem.bytes a = if inHalf (portIdx p) ≤ a ∧ a < inHalf (portIdx p) + 4 + n
      then ([op, tag, BitVec.ofNat 8 n, BitVec.ofNat 8 (n / 256)] ++ payload).getD (a - inHalf (portIdx p)) 0 else Bytes.read 0 s.mem.bytes a
    up → n ≤ 508 →
    (portReady s = true → inSpace p s = true →
      (s.mem.errs = [] → Bytes.wf 0 s.mem.bytes = true →
        (0x01 ≤ op.toNat → op.toNat ≤ 0xEF → s.pwr.phase = .awake → ownerOf k.cfg ≠ none →
          ∃ t u, writes good true = .next t ∧ Settled u t ∧ placed u ∧
            u = { s.putPort p { k with held := true, rxcnt := satInc k.rxcnt } with mem := u.mem, out := out }) ∧
        (0xF1 ≤ op.toNat → op.toNat ≤ 0xF7 → ∃ t, writes good true = .next t ∧ placed t ∧
          t = { s.putPort p { k with held := false, rxcnt := satInc k.rxcnt } with
                mem := t.mem, out := out, img := { s.img with svc := s.img.svc ++ [{ port := p, opcode := op, tag := tag, payload := payload }] } })) ∧
      (op = 0x00 ∨ op = 0xF0 ∨ 0xF8 ≤ op.toNat → writes good true = .next { s.putPort p (noted 6 k) with out := out }) ∧
      (0x01 ≤ op.toNat → op.toNat ≤ 0xEF → s.pwr.phase = .awake → ownerOf k.cfg = none → writes good true = .next { s.putPort p (noted 7 k) with out := out }) ∧
      (∀ w : Word, w ≠ sum → writes (payload ++ wireWord w) true = .next { s.putPort p (noted 2 k) with out := out }) ∧
      (extra.length < n + 2 → writes extra true = .next { s.putPort p (noted 3 k) with out := out }) ∧
      (p = .u → writes good false = .next { s.putPort p (noted 9 k) with out := out })) ∧
    (p ≠ .q → portReady s = true → inSpace p s = false → writes good ok = .next { s.putPort p (noted 4 k) with out := out }) ∧
    (p ≠ .q → portReady s = false → writes good ok = .next { fire (portSource p) (s.putPort p (noted 5 k)) with out := out })

/-- Port C on the bus: frames accepted, errors, integration, bus-off and BTREF; its owner's registers; the VIO banks. An accepted
frame of another node is counted and stamped, and queued for channel 0 or counted as lost behind four; an FD frame that port
C cannot take is ignored until integration. Errors give the counters as ISO 11898-1 has them, with passive at 128, and
bus-off counted; recovery ends in error-active with both at 0, under BOFF_HOLD only once started. Loss of BTREF or VIOA takes
port C off the bus. Its owner alone changes listen-only, PC_IN_RD and the reply slots. That a write of both ARMED and DISARM
is open is log entry 29. (R401, R402, R403, R404, R405, R406, R408, R409, R414, R550) -/
def Obligations.PortCFollowsTheBus : Prop :=
  ∀ (s : State) (f : CanFrame) (own b : Bool) (sub : BitVec 10) (who : Who) (v : BitVec 16) (tec rxe : BitVec 8) (n : BitVec 4),
    let s1 := { s with crs := { s.crs with subtick := sub } }
    let p := s.pc
    let left : PortC → PortC := fun p => { p with fsm := if p.fsm = .busOff then .busOff else .integrating, job := p.job.map fun j => { j with sending := false } }
    let onBus := pcOnBus s = true
    (onBus → f.fdf = false ∨ pcFd s = true →
      exec (.canFrameAccept f false sub) s = .next { s1 with pc := { p with
        job := p.job.map fun j => { j with sending := false }, rxcnt := satInc p.rxcnt
        rxlost := if 4 ≤ p.rxq.length then satInc p.rxlost else p.rxlost
        rxq := if 4 ≤ p.rxq.length then p.rxq else p.rxq ++ [{ f with tick := s.crs.tick, us := sub }] } }) ∧
    (own = true ∨ pcOnBus s = false ∨ (f.fdf = true ∧ pcFd s = false) → exec (.canFrameAccept f own sub) s = .next s1) ∧
    (onBus → pcFd s = false → Does .canFdfIgnore s { s with pc := { left p with fdign := satInc p.fdign } }) ∧
    (pcUp s = true → p.refBad = false → p.fsm = .integrating →
      Does .canBusIntegration s { s with pc.fsm := if 128 ≤ p.tec.toNat ∨ 128 ≤ p.rxe.toNat then .passive else .active }) ∧
    (onBus → pcListens s = false →
      Does (.canBusError tec rxe false) s { s with pc := { left p with fsm := if 128 ≤ tec.toNat ∨ 128 ≤ rxe.toNat then .passive else .active, tec := tec, rxe := rxe } } ∧
      Does (.canBusError tec rxe true) s { s with pc := { left p with fsm := .busOff, tec := tec, rxe := rxe, recovering := false, boffcnt := satInc p.boffcnt } }) ∧
    (pcListens s = true ∨ pcOnBus s = false → exec (.canBusError tec rxe b) s = .next s) ∧
    (pcUp s = true → p.refBad = false → p.fsm = .busOff → p.recovering = true ∨ p.cfg.getLsbD 5 = false →
      Does .canBusOffRecoveryEnd s { s with pc := { p with fsm := .active, recovering := false, tec := 0, rxe := 0 } }) ∧
    (p.fsm = .busOff → p.recovering = false → p.cfg.getLsbD 5 = true → exec .canBusOffRecoveryEnd s = .next s) ∧
    (s.powered = true → pcExt s = true → Does .btrefLoss s { s with pc := { left p with refBad := true } }) ∧ (pcExt s = false → exec .btrefLoss s = .next s) ∧
    (s.powered = true → s.pin.vioOk.getLsbD 0 = true → exec .btrefRecover s = .next { s with pc.refBad := false }) ∧
    Does (.vioLoss .a) s { s with pin.vioOk := setBit s.pin.vioOk 0 false, pc := { left p with refBad := p.refBad || pcExt s } } ∧
    Does (.vioLoss .b) s { s with pin.vioOk := setBit s.pin.vioOk 1 false } ∧ Does (.vioLoss .c) s { s with pin.vioOk := setBit s.pin.vioOk 2 false } ∧
    Does (.vioReturn .a) s { s with pin.vioOk := setBit s.pin.vioOk 0 true } ∧ Does (.vioReturn .b) s { s with pin.vioOk := setBit s.pin.vioOk 1 true } ∧
    Does (.vioReturn .c) s { s with pin.vioOk := setBit s.pin.vioOk 2 true } ∧
    (s.awake = true → pcOwner s = some (s.actsAs who) →
      let mode := { s with pc := { p with listen := v.getLsbD 0, recovering := p.recovering || (v.getLsbD 1 && p.fsm == .busOff && p.cfg.getLsbD 5) } }
      exec (.canListenWrite who v) s = .next mode ∧ exec (.canBusOffRecover who v) s = .next mode ∧
      exec (.canInConsume who v) s = .next { s with pc.inRd := v.setWidth 9 &&& 0x1FC } ∧
      (v.getLsbD 8 = false ∨ v.getLsbD 9 = false →
        let slot := { s with pc.rs := p.rs.set n.toFin { off := v.setWidth 7, keep := v.getLsbD 10
                                                         armed := ((p.rs.get n.toFin).armed || v.getLsbD 8) && !v.getLsbD 9 } }
        exec (.canReplySlotArm who n v) s = .next slot ∧ exec (.canReplySlotDisarm who n v) s = .next slot)) ∧
    (pcOwner s ≠ some (s.actsAs who) → exec (.canListenWrite who v) s = .next s ∧ exec (.canInConsume who v) s = .next s ∧
      exec (.canReplySlotArm who n v) s = .next s)

/-- CHANNEL0_SEARCH takes the oldest frame and acts on the first match or NOMATCH; replies are sent once under P5. An unfiltered
pass asks for P4 first. Else the oldest frame is searched and the result word acts: no bit does nothing more; RAISE pulses
its event in OPEN; WAKE fires C; KEEP asleep is counted as dropped; REPLY is not sent for SLEEP, LISTEN, UNARMED or BUSY, in
that order, with its slot and cause. A reply under leave is transmitted in OPEN on the bus; sent, it is counted, disarms its
slot unless KEEP, and releases P5; a window that runs out first counts it unsent with cause WINDOW. (R341, R344, R345, R346,
R347, R404, R405, R406, R407) -/
def Obligations.ChannelZeroActsOnFrames : Prop :=
  ∀ (s : State) (f : CanFrame),
    let p := s.pc
    let unsent : BitVec 4 → BitVec 3 → PortC → PortC := fun k why p => { p with unsent := satInc p.unsent, ulSlot := k, ulCause := why }
    (∀ j, p.job = some j →
      (j.granted = true → j.sending = false → s.awake = true → pcOnBus s = true → pcListens s = false →
        exec .canReplyTransmit s = .next { s with pc.job := some { j with sending := true } }) ∧
      (j.granted = false → exec .canReplyTransmit s = .next s) ∧
      (j.sending = true → exec .canReplySent s = .next
        { s with pc := { p with sent := satInc p.sent, job := none
                                rs := p.rs.set j.slot.toFin { p.rs.get j.slot.toFin with armed := (p.rs.get j.slot.toFin).armed && (p.rs.get j.slot.toFin).keep } }
                 tie.lane := s.tie.lane ++ [.fin 5 .portC] } ∧ exec .canReplyWindowExpiry s = .next s) ∧
      (j.sending = false → exec .canReplySent s = .next s ∧ exec .canReplyWindowExpiry s = .next
        { s with pc := { unsent j.slot 6 p with job := none }, tie.lane := s.tie.lane ++ [if j.granted then .fin 5 .portC else .withdraw 5 .portC] })) ∧
    (p.job = none → exec .canReplyTransmit s = .next s ∧ exec .canReplySent s = .next s ∧ exec .canReplyWindowExpiry s = .next s) ∧
    (∀ l, p.rxq = f :: l → s.powered = true → s.ash.ch0 = .idle →
      let banks := bankSet0 s
      let wide := ch0Unfiltered f false s
      let acts := fun (w : Word) =>
        let t := { s with pc.rxq := l, ash.ch0 := .idle }
        let k : BitVec 4 := (w >>> 12).setWidth 4
        (w &&& 0x1F0 = 0 → exec .channel0Search s = .next t) ∧ (w &&& 0x1F0 = 0x20 → exec .channel0Search s = .next (fire 3 t)) ∧
        (w &&& 0x1F0 = 0x10 → s.awake = true → Does .channel0Search s t) ∧
        (w &&& 0x1F0 = 0x80 → s.awake = false → exec .channel0Search s = .next { t with pc.slpdrop := satInc p.slpdrop }) ∧
        (w &&& 0x1F0 = 0x40 →
          (s.awake = false → exec .channel0Search s = .next { t with pc := unsent k 1 t.pc }) ∧
          (s.awake = true → pcListens s = true → exec .channel0Search s = .next { t with pc := unsent k 2 t.pc }) ∧
          (s.awake = true → pcListens s = false → (p.rs.get k.toFin).armed = false → exec .channel0Search s = .next { t with pc := unsent k 3 t.pc }) ∧
          (s.awake = true → pcListens s = false → (p.rs.get k.toFin).armed = true → p.job ≠ none → exec .channel0Search s = .next { t with pc := unsent k 4 t.pc }))
      (wide = true → exec .channel0Search s = .next { s with ash.ch0 := .waiting f false, tie.lane := s.tie.lane ++ [.ask 4 .ash0 (s.classCost 4)] }) ∧
      (wide = false → ashMatches (ch0Query s.ash f false) banks s.ash = [] → s.ash.c0pass2 = false → acts s.ash.nomat) ∧
      (∀ m r, wide = false → ashMatches (ch0Query s.ash f false) banks s.ash = m :: r → (ashEntry s.ash m.1).parity = true →
        acts (ashEntry s.ash m.1).data)) ∧
    (p.rxq = [] → s.ash.ch0 = .idle → exec .channel0Search s = .next s) ∧ (s.powered = false → exec .channel0Search s = .next s)

/-- Touch frames fall due, start in their window, end with their results; stuck touches and the rate. A frame that falls due is
pending, or skips the earlier one. It starts in an open window, with leave of P3 where a group is high-drive. Its results
land together at its end, FRM increments and the hold is released; a sensor of a lone SELF group is touched from TH on, and
stays so down to 7/8 of TH. A touch held for MAX_ON takes the raw value as baseline and sets STUCK; untouched time steps the
rate down. TCH_CTL takes writes of its owner alone; a read of TCH_FRM captures the results. (R173, R435, R436, R437, R440,
R441, R444, R449) -/
def Obligations.TouchFramesRunInTheirWindow : Prop :=
  ∀ (s : State) (who : Who) (v : BitVec 16) (noise cand : BitVec 12) (sub : BitVec 10) (raw : List (List (BitVec 16) × List (BitVec 16))),
    let s1 := { s with crs := { s.crs with subtick := sub } }
    let now := s.crs.tick.toNat * 15625 + sub.toNat * 16
    let x := s.tch
    (s.awake = true → x.on = true → x.pending = false → exec .touchFrameDue s = .next { s with tch.pending := true }) ∧
    (s.awake = true → x.on = true → x.pending = true →
      (x.leave = .none → exec .touchFrameDue s = .next { s with tch := { x with skip := satInc x.skip, skipWhy := 1 } }) ∧
      (x.leave = .granted → exec .touchFrameDue s = .next { s with tch := { x with skip := satInc x.skip, skipWhy := 1, leave := .none }
                                                                   tie.lane := s.tie.lane ++ [.fin 3 .touch] })) ∧
    (x.on = false → exec .touchFrameDue s = .next s) ∧
    (s.awake = true → s.crs.winTouch = true → x.pending = true → x.running = false → s.sent.running = false →
      (x.highDrive = true → x.leave = .none → exec .touchFrameStart s =
        .next { s with tch.leave := .asked, tie.lane := s.tie.lane ++ [.ask 3 .touch (s.classCost 3)] }) ∧
      (x.highDrive = true → x.leave = .asked → exec .touchFrameStart s = .next s) ∧
      (x.highDrive = false ∨ x.leave = .granted → ∃ t, exec .touchFrameStart s = .next t ∧ t = { s with tch := t.tch } ∧ t.tch.running = true ∧
        t.tch.pending = false ∧ t.tch.held = x.highDrive ∧ t.tch.frm = x.frm ∧ t.tch.res = x.res)) ∧
    (s.crs.winTouch = false ∨ x.pending = false → exec .touchFrameStart s = .next s) ∧
    (x.running = true → ∃ u, Does (.touchFrameEnd raw noise cand sub) s u ∧ u.tch.running = false ∧ u.tch.frm = x.frm + 1 ∧ u.tch.noise = noise ∧
      u.tch.res.freq = x.freq ∧ u.tch.res.noise = noise ∧ u.tch.cap = x.cap ∧ u.tie.lane = s.tie.lane ++ (if x.held then [.fin 3 .touch] else []) ∧
      u = { s1 with tch := u.tch, sent := u.sent, tie := u.tie, free := s.free + 4 }) ∧
    (x.running = false → exec (.touchFrameEnd raw noise cand sub) s = .next s1) ∧
    (∀ (n : BitVec 5) (r : Reading), x.running = true → x.chg = false → x.hold = 0 → x.hopped = false →
      let g := x.cfg.groups.get 0
      let tg := x.groups.get 0
      g.kind = .self → g.tx = [n] → g.rx = [] → g.palmSum = 0 → g.nbEn = false → g.deb = 0 → tg.acq = 16 → tg.self = [r] → tg.crossed = [] →
      tg.supp = false → tg.film = false → (∀ k : Fin 4, k ≠ 0 → (x.cfg.groups.get k).kind = .off ∧ (x.groups.get k).self = []) →
      ∃ u, Does (.touchFrameEnd [([v], [])] noise cand sub) s u ∧
        (u.tch.res.touch.getLsbD n.toNat = true ↔ if r.touched then 7 * (g.th.toNat : Int) ≤ 8 * ((v.toNat : Int) - r.base) else (g.th.toNat : Int) ≤ (v.toNat : Int) - r.base)) ∧
    (∀ k : BitVec 2, (x.cfg.groups.get k.toFin).maxOn = 0 → exec (.touchStuckReset k sub) s = .next s1) ∧
    (∀ (k : BitVec 2) (r : Reading), let tg := x.groups.get k.toFin
      let old := fun (e : Nat) => e + (x.cfg.groups.get k.toFin).maxOn.toNat * 16000000 ≤ now
      (x.cfg.groups.get k.toFin).maxOn ≠ 0 → tg.supp = false → tg.self = [r] → tg.crossed = [] → r.touched = true →
      let tg' := { tg with self := [{ r with base := r.raw, touched := false, on := 0, off := 0 }] }
      (old r.since → exec (.touchStuckReset k sub) s =
        .next { s1 with tch := { x with stuck := true, stkCnt := satInc x.stkCnt, relPend := true, groups := x.groups.set k.toFin tg' } }) ∧
      (¬ old r.since → exec (.touchStuckReset k sub) s = .next s1)) ∧
    (s.awake = true → x.on = true → x.busy = false → ∀ n, x.step.toNat = n → n < 3 →
      (x.quietSince + (x.cfg.times.toList.getD n 0).toNat * 16000000 ≤ now → exec (.touchRateStep sub) s = .next { s1 with tch.step := x.step + 1 }) ∧
      (now < x.quietSince + (x.cfg.times.toList.getD n 0).toNat * 16000000 → exec (.touchRateStep sub) s = .next s1)) ∧
    (s.actsAs who = (if x.cfg.owner then .b else .a) → exec (.touchReacquire who) s = .next { s with tch.reacq := true } ∧
      exec (.touchChgForce who v) s = .next { s with tch := { x with chgForce := v.getLsbD 0, reacq := x.reacq || v.getLsbD 1 } }) ∧
    (s.actsAs who ≠ (if x.cfg.owner then .b else .a) → exec (.touchReacquire who) s = .next s ∧ exec (.touchChgForce who v) s = .next s) ∧
    (exec .touchResultCapture s = .next { s with tch.cap := x.res, out := .word x.frm })

/-- The touch sentinel scans when no main frame runs, ignores noisy scans, and slows down without touches; DEB counts frames. A
scan that falls due starts once no main frame runs. A noisy one is counted and the next uses the other frequency. One in
which every sensor stays below 7/8 of STH touches nothing, reports no gesture, and counts towards the end of the burst rate
after 64 scans. With three frames of debouncing a touch or release is decided at the third frame in a row, and a drop decides
none. The default of a sensor that has not been scanned is the model's (log entry 31). (R433, R440, R445, R451, R452, R453,
R454) -/
def Obligations.SentinelScansQualifyTouches : Prop :=
  ∀ (s : State) (raw : List (BitVec 16)) (noise : BitVec 12),
    let c := s.tch.cfg.sent
    let old := fun (i : Nat) => s.sent.sensors.getD i { baseA := none, baseB := none, negA := 0, touched := false, qualified := false }
    (s.powered = true → 3 ≤ c.sensors.length → c.sensors.length ≤ 5 → s.sent.running = false →
      (s.tch.running = false → exec .sentinelScanDue s = .next { s with sent := { s.sent with due := false, running := true } }) ∧
      (s.tch.running = true → exec .sentinelScanDue s = .next { s with sent.due := true })) ∧
    (s.powered = false ∨ c.sensors.length < 3 ∨ s.sent.running = true → exec .sentinelScanDue s = .next s) ∧
    (s.sent.running = true → s.tch.cfg.chgTh.toNat < noise.toNat →
      exec (.sentinelScanEnd raw noise) s = .next { s with sent := { s.sent with running := false, snoise := satInc s.sent.snoise, useB := !s.sent.useB } }) ∧
    (s.sent.running = true → noise.toNat ≤ s.tch.cfg.chgTh.toNat → 1 ≤ c.spalmN.toNat →
      (∀ i, i < c.sensors.length → 8 * sentDelta s.sent.useB (old i) ((raw.getD i 0).toNat : Int) < 7 * (c.sth.toNat : Int)) →
      ∃ t, exec (.sentinelScanEnd raw noise) s = .next t ∧ t = { s with sent := t.sent } ∧ t.sent.running = false ∧ t.sent.supp = false ∧
        t.sent.sensors.length = c.sensors.length ∧ (∀ e ∈ t.sent.sensors, e.touched = false ∧ e.qualified = false) ∧ t.sent.gest = s.sent.gest ∧
        t.sent.new = s.sent.new ∧ t.sent.sdrop = s.sent.sdrop ∧ t.sent.snoise = s.sent.snoise ∧ t.sent.miss = s.sent.miss + 1 ∧
        t.sent.burst = (s.sent.burst && decide (s.sent.miss + 1 < 64))) ∧
    (s.sent.running = false → exec (.sentinelScanEnd raw noise) s = .next s) ∧
    (∀ (r : Reading) (d : Int) (th : Int) (now : Nat), d = r.delta →
      (r.touched = true → 8 * d < 7 * th → r.off = 2 → (decideTouch 3 th false now r).1.touched = false) ∧
      (r.touched = true → 8 * d < 7 * th → r.off < 2 → (decideTouch 3 th false now r).1 = { r with off := r.off + 1 }) ∧
      (r.touched = false → th ≤ d → r.on = 2 → (decideTouch 3 th false now r).1 = { r with touched := true, on := 0, off := 0, since := now }) ∧
      (r.touched = false → th ≤ d → r.on < 2 → (decideTouch 3 th false now r).1 = { r with on := r.on + 1 }) ∧
      (r.touched = false → th ≤ d → (decideTouch 3 th true now r).1 = { r with on := 0 }))

/-- The Pane's commands, rails, windows and sinks: each state's answer, and FAULT with its cause and rail. Of its owner alone: UP
in OFF begins RISE, or FAULT by order when a used rail is not off; DOWN in CLEAR and LIT begins the two last clear frames;
CLR in FAULT with the rails off returns to OFF; a sink code up to 240 is taken. Everything else is rejected with a late
fault. Comparators follow the rails: one that leaves good in CLEAR, LIT or DOWN faults, one good before its step faults,
steps of a matrix panel go on in order to CLEAR; a step that outlasts its window faults. STALE is set in LIT alone. (R297,
R469, R470, R471, R472, R473, R474, R475, R476, R477, R480, R484) -/
def Obligations.PaneFollowsItsStates : Prop :=
  ∀ (s : State) (who : Who) (rail : BitVec 3) (n : BitVec 2) (code : BitVec 8),
    let p := s.pane
    let own := s.powered = true ∧ s.actsAs who = (if p.cfg.owner then .b else .a)
    let faulted := fun (why : BitVec 2) (r : BitVec 3) (q : Pane) =>
      { s with pane := { q with st := .fault, orderFault := true, frail := r, fcause := why, frame := none, oor := 0 }
               tie.lane := s.tie.lane ++ (if p.frame.isSome then [LaneMsg.fin 2 .pane] else []) }
    let turnedAway := fun (i : Instr) (a : BitVec 12) (v : Word) => s.tie.lf.length < 8 → ∃ e, exec i s = .next { s with tie.lf := s.tie.lf ++ [e] } ∧
      e.addr = a ∧ e.outcome = 3 ∧ e.data = v ∧ e.who = who.code
    (own →
      (p.st = .off → p.cfg.mode ≠ .none → railsOff p = true → p.good.getLsbD 0 = false →
        exec (.paneUp who) s = .next { s with pane := { p with st := .rise, stepDone := 0 } }) ∧
      (p.st = .off → p.cfg.mode ≠ .none → railsOff p = false → ∃ r, exec (.paneUp who) s = .next (faulted 1 r p)) ∧
      (p.st ≠ .off ∨ p.cfg.mode = .none → turnedAway (.paneUp who) 0x381 1) ∧
      (p.st = .clear ∨ p.st = .lit → exec (.paneDown who) s = .next { s with pane := { p with st := .down, clrDone := 0, oor := 0 } }) ∧
      (p.st = .off ∨ p.st = .down ∨ p.st = .fall ∨ p.st = .fault ∨ p.st = .disch → turnedAway (.paneDown who) 0x381 2) ∧
      (p.st = .fault → railsOff p = true → exec (.paneClr who) s = .next { s with pane.st := .off }) ∧
      (p.st ≠ .fault ∨ railsOff p = false → turnedAway (.paneClr who) 0x381 4) ∧
      (code.toNat ≤ 240 → exec (.ledSinkSet who n code) s = .next { s with pane := { p with
        lsSet := p.lsSet.set n.toFin code, lsEff := p.lsEff.set n.toFin code, lsMin := p.lsMin.set n.toFin code } }) ∧
      (240 < code.toNat → turnedAway (.ledSinkSet who n code) (0x388 + n.setWidth 12) (code.setWidth 16))) ∧
    (¬ own → exec (.paneUp who) s = .next s ∧ exec (.paneDown who) s = .next s ∧ exec (.paneClr who) s = .next s ∧ exec (.ledSinkSet who n code) s = .next s) ∧
    (∀ good off : Bool, s.powered = true → rail.toNat < 7 →
      let q := { p with good := setBit p.good rail.toNat good, offs := setBit p.offs rail.toNat (off && !good) }
      (rail.toNat ∉ paneUsed p.cfg ∨ p.st = .off ∨ p.st = .fault ∨ p.st = .disch → exec (.paneRailChange rail good off) s = .next { s with pane := q }) ∧
      (rail.toNat ∈ paneUsed p.cfg → p.st = .clear ∨ p.st = .lit ∨ p.st = .down →
        (p.good.getLsbD rail.toNat = true → exec (.paneRailChange rail false off) s = .next (faulted 3 rail { p with
          good := setBit p.good rail.toNat false, offs := setBit p.offs rail.toNat off })) ∧
        exec (.paneRailChange rail true off) s = .next { s with pane := { p with good := setBit p.good rail.toNat true, offs := setBit p.offs rail.toNat false } }) ∧
      (rail.toNat ∈ paneUsed p.cfg → p.st = .rise → p.good.getLsbD rail.toNat = false → p.stepDone < stepOf (paneSteps p.cfg) rail.toNat →
        exec (.paneRailChange rail true off) s = .next (faulted 1 rail { p with
          good := setBit p.good rail.toNat true, offs := setBit p.offs rail.toNat false })) ∧
      (p.cfg.mode = .matrix → p.st = .rise → p.good.getLsbD rail.toNat = false →
        (p.stepDone = 0 → rail = 0 → p.good.getLsbD 1 = false → exec (.paneRailChange rail true off) s =
          .next { s with pane := { p with good := setBit p.good 0 true, offs := setBit p.offs 0 false, stepDone := 1 } }) ∧
        (p.stepDone = 3 → rail = 6 → p.good.getLsbD 3 = true → exec (.paneRailChange rail true off) s =
          .next { s with pane := { p with good := setBit p.good 6 true, offs := setBit p.offs 6 false, stepDone := 4, st := .clear, clrDone := 0 } }))) ∧
    (p.st = .rise ∨ p.st = .fall → ∃ r, exec .paneRailWindowExpiry s = .next (faulted 2 r p)) ∧
    (p.st ≠ .rise → p.st ≠ .fall → exec .paneRailWindowExpiry s = .next s) ∧
    (exec .paneStale s = .next { s with pane.stale := p.stale || (p.st == .lit && p.cfg.holdMs != 0) })

/-- Pane frames start under P2 in the window, read their lines, and end with counts and derate steps. A due frame asks for P2
once the window is open and PX0 low, and starts when granted with the polarity turned. Each line time of a matrix row reads
its four words; a second phase of a common reads none. The end of a frame counts it and releases P2; the second clear frame
of CLEAR leads to LIT; a sink with its derate bit that was out of regulation loses one code, never below 0. Out of regulation
is noted in LIT with PX1 low alone. That the polarity turns at the start of a frame is the model's choice (log entry 33).
(R461, R464, R466, R467, R468, R472, R473, R480, R481, R482) -/
def Obligations.PaneFramesAreDrawnUnderLeave : Prop :=
  ∀ (s : State) (n : BitVec 2),
    let p := s.pane
    (p.due = true → s.crs.winPane = true → p.freeze = false → p.frame = none → paneDraws p = true →
      (p.leave = .none → exec .paneFrameStart s = .next { s with pane.leave := .asked, tie.lane := s.tie.lane ++ [.ask 2 .pane (s.classCost 2)] }) ∧
      (p.leave = .asked → exec .paneFrameStart s = .next s) ∧
      (p.leave = .granted → exec .paneFrameStart s = .next { s with pane := { p with due := false, leave := .none, negNext := !p.negNext, oorFrame := p.oor
                                                                                     frame := some { clear := p.st != .lit, negative := p.negNext, line := 0 } } })) ∧
    (p.due = false ∨ s.crs.winPane = false ∨ p.freeze = true ∨ p.frame ≠ none ∨ paneDraws p = false → exec .paneFrameStart s = .next s) ∧
    (∀ f, p.frame = some f →
      (p.cfg.mode = .matrix → f.line < p.cfg.rows.toNat → exec .paneLineStart s =
        .next { s with pane := { p with frame := some { f with line := f.line + 1 }
                                        rowWords := [paneWord p (4 * f.line), paneWord p (4 * f.line + 1), paneWord p (4 * f.line + 2), paneWord p (4 * f.line + 3)] } }) ∧
      (p.cfg.mode = .segment → f.line < 2 * p.cfg.coms.toNat → f.line % 2 = 1 → exec .paneLineStart s =
        .next { s with pane := { p with frame := some { f with line := f.line + 1 } } }) ∧
      (paneLines p.cfg ≤ f.line → exec .paneLineStart s = .next s) ∧ (f.line < paneLines p.cfg → exec .paneFrameEnd s = .next s) ∧
      (paneLines p.cfg ≤ f.line → p.oorFrame = 0 →
        let done := fun (q : Pane) => { s with pane := q, tie.lane := s.tie.lane ++ [.fin 2 .pane] }
        let q := { p with frame := none, frm := p.frm + 1, oorFrame := 0 }
        (f.clear = false ∨ (p.st ≠ .clear ∧ p.st ≠ .down) → exec .paneFrameEnd s = .next (done q)) ∧
        (f.clear = true → p.st = .clear → exec .paneFrameEnd s =
          .next (done { q with clrDone := if p.clrDone = 0 then 1 else 2, st := if p.clrDone = 0 then .clear else .lit }))) ∧
      (paneLines p.cfg ≤ f.line → f.clear = false → ∃ t, exec .paneFrameEnd s = .next t ∧ t.pane.frm = p.frm + 1 ∧
        t = { s with pane := t.pane, tie.lane := s.tie.lane ++ [.fin 2 .pane] } ∧ t.pane.lsSet = p.lsSet ∧
        t.pane.lsEff.get n.toFin = if p.cfg.derate.getLsbD n.toNat = true ∧ p.oorFrame.getLsbD n.toNat = true ∧ p.lsEff.get n.toFin ≠ 0
          then p.lsEff.get n.toFin - 1 else p.lsEff.get n.toFin)) ∧
    (p.frame = none → exec .paneLineStart s = .next s ∧ exec .paneFrameEnd s = .next s) ∧
    (p.st = .lit → p.dark = false → exec (.ledSinkOutOfRegulation n) s =
      .next { s with pane := { p with oor := setBit p.oor n.toNat true, headroom := setBit p.headroom n.toNat true
                                      oorFrame := if p.frame.isSome then setBit p.oorFrame n.toNat true else p.oorFrame } }) ∧
    (p.st ≠ .lit ∨ p.dark = true → exec (.ledSinkOutOfRegulation n) s = .next s) ∧
    (exec (.ledSinkBackInRegulation n) s = .next { s with pane.oor := setBit p.oor n.toNat false })

/-- A search delivers COUNT, MULTI and the first match in its order, or NONE. When a channel-1 search lands (none of its matches
failing parity), COUNT is the number of matching entries saturated at 15, MULTI says whether two or more match, and INDEX,
DATA and PRIO are those of the first match in the order the search was given: higher PRIO first and the lower index among
equals, or the lower index first; NONE where nothing matches. A search takes its order from ASH_OPT.ORDER as it is started;
channel 0 always uses explicit priority. Nothing but the core's result set, the end of its leave and values left open
changes. (R337) -/
def Obligations.SearchesDeliverTheFirstMatch : Prop :=
  ∀ (s : State) (c : CoreId) (key mask : BitVec 48) (f g : BitVec 4) (ph : Bool),
    let k := s.ash.set c
    let banks := s.ash.ch1Banks &&& ~~~s.ash.fence
    let hits := s.ash.entries.filter fun e =>
      e.2.valid && banks.getLsbD (e.1 / 64) && ((e.2.tag ^^^ f) &&& g) == 0 && ((e.2.key ^^^ key) &&& mask) == 0
    (s.awake = true → s.pwr.ashRld = false → k.op = some (.search key mask f g ph) → k.leave ≠ .asked →
      (∀ e ∈ hits, (ashEntry s.ash e.1).parity = true) →
      ∃ u, exec (.ashlarSearchLand c) s = .next u ∧
        let j := u.ash.set c
        j.count.toNat = min 15 hits.length ∧ (j.multi = true ↔ 2 ≤ hits.length) ∧ (j.noMatch = true ↔ hits = []) ∧
        (hits ≠ [] → ∃ e ∈ hits, j.idx = BitVec.ofNat 10 e.1 ∧ j.prio = e.2.prio ∧ j.data = (ashEntry s.ash e.1).data ∧
          ∀ m ∈ hits, if ph then e.1 ≤ m.1 else m.2.prio.toNat < e.2.prio.toNat ∨ (m.2.prio = e.2.prio ∧ e.1 ≤ m.1)) ∧
        j.op = none ∧ j.st = 1 ∧ j.stale = false ∧ j.rep = false ∧ j.key = k.key ∧ j.mask = k.mask ∧ j.stage = k.stage ∧ j.commit = k.commit ∧
        u = { s with ash := u.ash, tie.lane := s.tie.lane ++ (if k.leave = .granted then [.fin 4 (ashReq c)] else []), free := u.free } ∧
        u.ash = (match c with | .a => { s.ash with setA := j } | .b => { s.ash with setB := j })) ∧
    (s.awake = true → k.leave = .none → s.ash.share ≠ 0 →
      ∃ u, exec (.ashlarGo c) s = .next u ∧ (u.ash.set c).op = some (.search k.key k.mask k.pfv k.pfm k.order)) ∧
    (∀ (x : Ashlar) (fr : CanFrame) (second : Bool), (ch0Query x fr second).physical = false)

/-- Searches, steps and commits start under the share; stages, commits, steps, scrub reads and self-tests take effect. GO, STEP
and COMMIT use one unit of ASH_SHARE and end SHARE where none is left; an unfiltered search of two or more banks asks in P4
and waits, and a search pending there is withdrawn by the next. A window write fills the core's stage from the entry and
changes the bytes written alone. A commit replaces the entry whole, or ends FENCED. A step moves to the next match and shows
whether it was committed since, or ends END. A scrub read or self-test that finds an entry bad fences its bank. (R331, R332,
R334, R338, R339, R340, R341, R349, R350, R353, R354) -/
def Obligations.AshlarCommitsStepsAndTests : Prop :=
  ∀ (s : State) (c : CoreId),
    let k := s.ash.set c
    let s1 := { s with ash.share := if s.ash.share = 0xFFFF then 0xFFFF else s.ash.share - 1 }
    let wide := manyBanks (s.ash.ch1Banks &&& ~~~s.ash.fence)
    let st : BitVec 3 := if s.pwr.ashRld then 3 else 2
    let search := some (AshOp.search k.key k.mask k.pfv k.pfm k.order)
    (s.awake = true → s.ash.share ≠ 0 → k.leave = .none →
      (k.pfm ≠ 0 ∨ wide = false → exec (.ashlarGo c) s = .next (s1.putAsh c { k with op := search, st := st })) ∧
      (k.pfm = 0 → wide = true → exec (.ashlarGo c) s =
        .next (({ s1 with tie.lane := s.tie.lane ++ [.ask 4 (ashReq c) (s.classCost 4)] } : State).putAsh c { k with op := search, st := 3, leave := .asked })) ∧
      exec (.ashlarStepWrite c) s = .next (s1.putAsh c { k with op := some .step, st := st })) ∧
    (s.awake = true → s.ash.share ≠ 0 → k.leave = .asked →
      exec (.ashlarStepWrite c) s = .next (({ s1 with tie.lane := s.tie.lane ++ [.withdraw 4 (ashReq c)] } : State).putAsh c { k with op := some .step, st := st, leave := .none })) ∧
    (s.awake = true → s.ash.share = 0 → k.leave = .none →
      exec (.ashlarGo c) s = .next (s.putAsh c { k with op := none, st := 5 }) ∧ exec (.ashlarStepWrite c) s = .next (s.putAsh c { k with op := none, st := 5 })) ∧
    (s.awake = true →
      (k.commit.isSome = true → exec (.ashlarCommitWrite c) s = .next (s.putAsh c { k with cst := 5 })) ∧
      (k.commit = none → s.ash.share = 0 → exec (.ashlarCommitWrite c) s = .next (s.putAsh c { k with cst := 4 })) ∧
      (k.commit = none → s.ash.share ≠ 0 → exec (.ashlarCommitWrite c) s = .next (s1.putAsh c { k with cst := 2, commit := some (k.target, k.stage) }))) ∧
    (∀ (n : BitVec 10) (e : AshEntry), s.awake = true → s.pwr.ashRld = false → k.commit = some (n, e) →
      (s.ash.fence.getLsbD (n.toNat / 64) = true → exec (.ashlarCommitPerform c) s = .next (s.putAsh c { k with commit := none, cst := 3 })) ∧
      (s.ash.fence.getLsbD (n.toNat / 64) = false → ∃ t, exec (.ashlarCommitPerform c) s = .next t ∧ t = { s with ash := t.ash } ∧
        t.ash.entries = sparsePut AshEntry.blank s.ash.entries n.toNat { e with parity := true } ∧ (t.ash.set c).commit = none ∧ (t.ash.set c).cst = 1 ∧
        (t.ash.set c).stage = k.stage ∧ (∀ d, (t.ash.set d).committed = (s.ash.set d).committed ++ [n]))) ∧
    (∀ (a : BitVec 16) (v : Byte), let n := winEntry s c a.toNat
      let o := a.toNat % 16
      s.awake = true → 0xD000 ≤ a.toNat → a.toNat < 0xE000 → o < 10 → n < 1024 → ∃ t, exec (.ashlarWindowWrite c a [v]) s = .next t ∧
        t = s.putAsh c { k with stage := (t.ash.set c).stage, staged := true, target := BitVec.ofNat 10 n } ∧
        (∀ p < 10, slotByte (t.ash.set c).stage false p = if p = o then (if o = 9 then v &&& 0x1F else v)
          else slotByte (if k.staged = true ∧ k.target.toNat = n then k.stage else ashEntry s.ash n) false p)) ∧
    (s.awake = true → s.pwr.ashRld = false → k.op = some .step →
      (∀ n l, k.ahead = n :: l → s.ash.fence.getLsbD (n.toNat / 64) = false → (ashEntry s.ash n.toNat).parity = true →
        exec (.ashlarStepLand c) s = .next (s.putAsh c { k with op := none, st := 1, idx := n, noMatch := false, data := (ashEntry s.ash n.toNat).data, prio := (ashEntry s.ash n.toNat).prio, ahead := l, stale := k.committed.contains n })) ∧
      (k.ahead = [] → exec (.ashlarStepLand c) s = .next (s.putAsh c { k with op := none, st := 6 }))) ∧
    (s.awake = true → s.ash.scrubLeft ≠ 0 → s.ash.fence = 0 → let n := s.ash.scrPtr.toNat
      let t := { s with ash := { s.ash with scrPtr := s.ash.scrPtr + 1, scrubLeft := s.ash.scrubLeft - 1 } }
      ((ashEntry s.ash n).parity = true → exec .ashlarScrubRead s = .next t) ∧
      ((ashEntry s.ash n).parity = false → exec .ashlarScrubRead s =
        .next { t with ash := { t.ash with fence := setBit 0 (n / 64) true, fcnt := satInc s.ash.fcnt, fenced := true, frecIndex := s.ash.scrPtr, frecCause := 2, frecBank := BitVec.ofNat 4 (n / 64) } })) ∧
    (s.awake = true → s.ash.testing ≠ 0 → (∀ e ∈ s.ash.entries, e.2.parity = true) →
      exec (.ashlarSelfTestEnd 0) s = .next { s with ash := { s.ash with testFail := (s.ash.testFail &&& ~~~s.ash.testing) ||| (s.ash.fence &&& s.ash.testing), testing := 0 } } ∧
      (∀ b : Fin 16, s.ash.testing.getLsbD b = true → s.ash.fence.getLsbD b = false → ∃ t, exec (.ashlarSelfTestEnd (1#16 <<< b.val)) s = .next t ∧
        t = { s with ash := t.ash } ∧ t.ash.fence = setBit s.ash.fence b true ∧ t.ash.fcnt = satInc s.ash.fcnt ∧ t.ash.frecCause = 1 ∧ t.ash.testing = 0 ∧
        t.ash.entries = s.ash.entries)) ∧
    (s.ash.scrubLeft = 0 → exec .ashlarScrubRead s = .next s) ∧ (s.ash.testing = 0 → exec (.ashlarSelfTestEnd 0) s = .next s)

/-- Ends of pulses and delays, latch clears, soft latches, pad levels and the pins' output and enable words. While awake: a pulse
ends and its line is no longer driven; a lookup that has held its value for the delay reaches a DIRECT cell's output or sets
a LATCH cell; a PULSE cell's output ends; a write to MRT_LAT0 or MRT_LAT1 clears the latches it names and no other; a
soft-latch word is written; a pad takes a level from outside; a write of an output or enable word changes the bits of pins
that the writer owns (and, for an enable, that may drive) and no other, and does nothing where it would change a trusted pin
in a session. The lines then settle. (R311, R313, R316, R317, R416, R418, R419, R420, R529, R530) -/
def Obligations.CellsPulsesAndPinsChange : Prop :=
  ∀ (s : State) (who : Who),
    let m := s.mrt
    (∀ src, (s.awake = true → m.pulses.contains src = true → Does (.sourcePulseEnd src) s { s with mrt.pulses := m.pulses.filter (· != src) }) ∧
      (m.pulses.contains src = false → exec (.sourcePulseEnd src) s = .next s)) ∧
    (∀ (n : BitVec 5) (v : Bool), s.awake = true → m.wait.find? (fun e => e.1 == n) = some (n, v) →
      let w := m.wait.filter fun e => e.1 != n
      (cellMode m n.toNat = .direct → Does (.cellDelayExpiry n) s { s with mrt := { m with wait := w, out := setBit m.out n.toNat v } }) ∧
      (cellMode m n.toNat = .latch → Does (.cellDelayExpiry n) s
        { s with mrt := { m with wait := w, lat := setBit m.lat n.toNat true, out := setBit m.out n.toNat true } })) ∧
    (∀ n : BitVec 5, m.wait.find? (fun e => e.1 == n) = none → exec (.cellDelayExpiry n) s = .next s) ∧
    (∀ n : BitVec 5, (s.awake = true → cellMode m n.toNat = .pulse → m.out.getLsbD n.toNat = true →
        Does (.cellPulseEnd n) s { s with mrt.out := setBit m.out n.toNat false }) ∧
      (cellMode m n.toNat ≠ .pulse ∨ m.out.getLsbD n.toNat = false → exec (.cellPulseEnd n) s = .next s)) ∧
    (∀ (k : Fin 2) (v : Word), s.awake = true → ∃ u, Does (.cellLatchClear who (BitVec.ofNat 12 (0x10A + k.val)) v) s u ∧
      u = { s with mrt := { m with lat := u.mrt.lat, out := u.mrt.out } } ∧ ∀ j < 32,
        let clears := j / 16 = k.val ∧ v.getLsbD (j % 16) = true ∧ cellMode m j = .latch
        (clears → u.mrt.lat.getLsbD j = false ∧ u.mrt.out.getLsbD j = false) ∧
        (¬ clears → u.mrt.lat.getLsbD j = m.lat.getLsbD j ∧ u.mrt.out.getLsbD j = m.out.getLsbD j)) ∧
    (∀ (k : Fin 4) (v : Word), s.awake = true → ∃ u, Does (.mortarSoftWrite who (BitVec.ofNat 12 (0x104 + k.val)) v) s u ∧
      u = { s with mrt.soft := u.mrt.soft } ∧
      ∀ j < 64, u.mrt.soft.getLsbD j = if j / 16 = k.val then v.getLsbD (j % 16) else m.soft.getLsbD j) ∧
    (∀ (p : BitVec 6) (l : Bool), p.toNat < 48 → Does (.pinInputChange p l) s { s with pin.pad := setBit s.pin.pad p.toNat l }) ∧
    (∀ (g : PinBank) (v : Word), s.awake = true →
      let owned := fun (j : Nat) => j / 16 = PinBank.idx g ∧ pinOwner s.pin j = (if (s.actsAs who).isB then PinOwner.coreB else .coreA)
      let free := fun (old : BitVec 48) => ∀ j < 48, j / 16 = PinBank.idx g → pinTrust s.pin j = true → v.getLsbD (j % 16) = old.getLsbD j
      (s.hng.session = false ∨ free s.pin.out → ∃ u, Does (.pinOutputWrite who g v) s u ∧ u = { s with pin.out := u.pin.out } ∧
        ∀ j < 48, (owned j → u.pin.out.getLsbD j = v.getLsbD (j % 16)) ∧ (¬ owned j → u.pin.out.getLsbD j = s.pin.out.getLsbD j)) ∧
      (s.hng.session = false ∨ free s.pin.oe → ∃ u, Does (.pinEnableWrite who g v) s u ∧ u = { s with pin.oe := u.pin.oe } ∧
        ∀ j < 48, (owned j ∧ pinDrives s.pin j = true → u.pin.oe.getLsbD j = v.getLsbD (j % 16)) ∧
          (¬ (owned j ∧ pinDrives s.pin j = true) → u.pin.oe.getLsbD j = s.pin.oe.getLsbD j)) ∧
      (s.hng.session = true → (∃ j < 48, owned j ∧ pinTrust s.pin j = true ∧ v.getLsbD (j % 16) ≠ s.pin.out.getLsbD j) →
        exec (.pinOutputWrite who g v) s = .next s) ∧
      (s.hng.session = true → (∃ j < 48, owned j ∧ pinTrust s.pin j = true ∧ v.getLsbD (j % 16) ≠ s.pin.oe.getLsbD j) →
        exec (.pinEnableWrite who g v) s = .next s)) ∧
    (∀ (c : CellCfg) (line : BitVec 64) (w x y z : BitVec 6), c.in0 = some w → c.in1 = some x → c.in2 = some y → c.in3 = some z →
      let bit := fun (e : BitVec 6) => if line.getLsbD e.toNat then 1 else 0
      c.lookup line = c.lut.getLsbD (bit w + 2 * bit x + 4 * bit y + 8 * bit z))

/-- The calendar advances by 1/1024 s under the Gregorian rules, holds at its end, loads corrected values and is captured.
Thirty-two cycles untrimmed advance the calendar by one 1/1024 s: seconds, minutes, hours, days of each month, leap years and
years carry, and the last value holds. A new second that equals the enabled alarm fields sets ALM. The N cycles of a trim
window add up over its 32 768 steps. LOAD limits each field to its range and a day to its month, and restarts the divider and
the window. A read of CAL_SUB captures the other words whole. (R509, R510, R511, R512, R513, R514, R515) -/
def Obligations.CalendarCountsLoadsAndCaptures : Prop :=
  ∀ (s : State) (who : Who),
    let r := s.rtc
    let t := r.now
    let stepped := fun (x : CalTime) => { s with rtc := { r with now := x, div := r.div, win := if s.crs.onRc then r.win else if r.win = 32767 then 0 else r.win + 1, trimWin := if s.crs.onRc ∨ r.win ≠ 32767 then r.trimWin else r.trim } }
    let plain := r.div < 32 ∧ (s.crs.onRc = false → r.trimWin = 0 ∧ r.win < 32768)
    let leap := (2000 + t.year.toNat) % 4 = 0 ∧ ((2000 + t.year.toNat) % 100 ≠ 0 ∨ (2000 + t.year.toNat) % 400 = 0)
    let len := if t.mon = 2 then (if leap then 29 else 28) else if t.mon = 4 ∨ t.mon = 6 ∨ t.mon = 9 ∨ t.mon = 11 then 30 else 31
    let ends := t.year = 199 ∧ t.mon = 12 ∧ t.day = 31 ∧ t.hour = 23 ∧ t.min = 59 ∧ t.sec = 59
    let due := r.almEn = true ∧ r.amsk = 1 ∧ ((t.sec + 1).setWidth 16 : Word) = r.alm0 &&& 0x3F
    (plain → t.sub ≠ 1023 → exec .calendarTick s = .next (stepped { t with sub := t.sub + 1 })) ∧
    (plain → t.sub = 1023 → ends → exec .calendarTick s = .next (stepped t)) ∧
    (plain → t.sub = 1023 → t.sec.toNat < 59 → s.awake = true →
      (due → r.alm = false → ∃ u, Does .calendarTick s u ∧ u.rtc.alm = true ∧ u.rtc.now = { t with sub := 0, sec := t.sec + 1 }) ∧
      (r.almEn = false → Does .calendarTick s (stepped { t with sub := 0, sec := t.sec + 1 }))) ∧
    (plain → t.sub = 1023 → t.sec = 59 → ¬ ends → r.almEn = false → s.awake = true →
      (t.min.toNat < 59 → Does .calendarTick s (stepped { t with sub := 0, sec := 0, min := t.min + 1 })) ∧
      (t.min = 59 → t.hour.toNat < 23 → Does .calendarTick s (stepped { t with sub := 0, sec := 0, min := 0, hour := t.hour + 1 })) ∧
      (t.min = 59 → t.hour = 23 → t.day.toNat < len → Does .calendarTick s (stepped { t with sub := 0, sec := 0, min := 0, hour := 0, day := t.day + 1 })) ∧
      (t.min = 59 → t.hour = 23 → t.day.toNat = len → t.mon.toNat < 12 →
        Does .calendarTick s (stepped { t with sub := 0, sec := 0, min := 0, hour := 0, day := 1, mon := t.mon + 1 })) ∧
      (t.min = 59 → t.hour = 23 → t.day = 31 → t.mon = 12 →
        Does .calendarTick s (stepped { t with sub := 0, sec := 0, min := 0, hour := 0, day := 1, mon := 1, year := t.year + 1 }))) ∧
    (∀ n : Int, ((List.range 32768).map (trimCycles n)).sum = n) ∧
    (∃ x, exec (.calendarLoad who) s = .next { s with rtc := { r with now := x, div := 0, win := 0, trimWin := r.trim } } ∧
      x.sub = r.set0.setWidth 10 ∧ x.sec.toNat = min 59 (r.set1.toNat % 64) ∧ x.min.toNat = min 59 (r.set1.toNat / 256 % 64) ∧
      x.hour.toNat = min 23 (r.set2.toNat % 32) ∧ x.mon.toNat = max 1 (min 12 (r.set3.toNat / 256 % 16)) ∧ x.year.toNat = min 199 (r.set4.toNat % 256) ∧
      x.day.toNat = min (monthDays x.year.toNat x.mon.toNat) (max 1 (r.set3.toNat % 32))) ∧
    exec .calendarCapture s = .next { s with rtc.cap := t, out := .word (t.sub.setWidth 16) }

/-- Sill instants start bursts or MISS; landed samples enter the queue, choose the next range and step thresholds; reads capture.
An instant starts a burst with the next sequence count, or adds a MISS while one has not landed. A landed shunt sample enters
the queue with its tag or is lost from a full one; a clipped one goes to the top range, the eighth low one in a row down by
one; an ABOVE threshold on SH in the same range asserts at the COUNT-th sample beyond and deasserts at the COUNT-th back.
TEMP lands alone while no instants are taken. SILL_CTL takes writes of its owner alone. Reads of SH_DATA, AUXn, RSEQ_LO,
RTICK_LO, QIN_LO and QOUT_LO pop or capture. (R488, R490, R492, R493, R494, R495, R496, R498, R499, R500, R502, R504) -/
def Obligations.SillSamplesQueueAndRange : Prop :=
  ∀ (s : State) (who : Who) (sub : BitVec 10) (v : Word) (hi : Bool) (n : BitVec 3),
    let x := s.sill
    let s1 := { s with crs := { s.crs with subtick := sub } }
    let on := s.awake = true ∧ x.cfg.per ≠ 0 ∧ x.run = true
    let tag := fun (b : SillBurst) (clip : Bool) => fieldAt 16 0 b.range ||| bitAt 16 3 b.settle ||| bitAt 16 4 clip ||| bitAt 16 6 b.resume ||| fieldAt 16 7 (b.seq.setWidth 9)
    (on → x.burst = none → x.cfg.shOn = true → x.cfg.aux = [] → x.auto = true →
      let b := { range := x.range, seq := x.seq, settle := x.settle || x.resume, resume := x.resume, shunt := true, aux := none, temp := x.tempDue }
      exec (.sillSampleInstant sub) s = .next { s1 with sill := { x with burst := some b, tempDue := false, seq := x.seq + 1, resume := false, settle := false, rseq := if x.resume then x.seq else x.rseq, rtick := if x.resume then s.crs.tick.setWidth 32 else x.rtick, rsub := if x.resume then sub else x.rsub } }) ∧
    (on → x.burst.isSome = true → x.cfg.shOn = true → ∃ u, exec (.sillSampleInstant sub) s = .next u ∧ u = { s1 with sill := u.sill } ∧
      u.sill.seq = x.seq + 1 ∧ u.sill.misscnt = satInc x.misscnt ∧ u.sill.miss = true ∧ u.sill.range = x.range ∧ u.sill.auxNext = x.auxNext ∧ u.sill.burst = x.burst ∧
      (x.queue.length < 64 → u.sill.queue = x.queue ++ [(0, fieldAt 16 0 x.range ||| bitAt 16 5 true ||| fieldAt 16 7 (x.seq.setWidth 9))]) ∧
      (64 ≤ x.queue.length → u.sill.queue = x.queue ∧ u.sill.ovf = true ∧ u.sill.lost = satInc x.lost)) ∧
    (¬ on → exec (.sillSampleInstant sub) s = .next s1) ∧
    (∀ (b : SillBurst) (clip : Option Bool), s.awake = true → x.burst = some b → b.shunt = true → b.aux = none → b.temp = false → x.run = true → x.auto = true → x.range = b.range →
      let code : Word := match clip with | some true => 0x7FFF | some false => 0x8000 | none => v
      ∃ u, Does (.sillBurstLand [v] clip false [] none) s u ∧ u = { s with sill := u.sill } ∧ u.sill.burst = none ∧ u.sill.lastRange = b.range ∧ u.sill.seq = x.seq ∧
        (x.queue.length < 64 → u.sill.queue = x.queue ++ [(code, tag b clip.isSome)]) ∧ (64 ≤ x.queue.length → u.sill.queue = x.queue ∧ u.sill.ovf = true) ∧
        (clip.isSome = true → x.range.toNat < x.cfg.rmax.toNat → u.sill.range = x.cfg.rmax ∧ u.sill.settle = true ∧ u.sill.swcnt = satInc x.swcnt ∧ u.sill.low = 0) ∧
        (clip = none → b.settle = false → v.toInt.natAbs < 4096 → x.low = 7 → x.cfg.rmin.toNat < x.range.toNat → u.sill.range = x.range - 1 ∧ u.sill.settle = true ∧ u.sill.low = 0) ∧
        (clip = none → b.settle = false → v.toInt.natAbs < 4096 → x.low ≠ 7 → u.sill.range = x.range ∧ u.sill.low = x.low + 1) ∧
        (clip = none → 4096 ≤ v.toInt.natAbs → u.sill.range = x.range ∧ u.sill.low = 0) ∧
        (∀ (i : Fin 8), let c := x.cfg.thr.get i
          let h := x.thr.get i
          c.ch = some 0xF → c.above = true → c.trange = b.range → clip = none →
          (c.level.toInt ≤ v.toInt → (u.sill.thr.get i).on = (h.on || decide (c.count.toNat ≤ h.beyond)) ∧ (u.sill.thr.get i).beyond = h.beyond + 1) ∧
          (v.toInt < c.level.toInt - c.hyst.toNat → (u.sill.thr.get i).on = (h.on && decide (h.back < c.count.toNat)) ∧ (u.sill.thr.get i).beyond = 0))) ∧
    (x.burst = none → exec (.sillBurstLand [v] none false [] none) s = .next s) ∧
    (s.awake = true → x.tempDue = true → x.run = false → (∀ i : Fin 8, (x.cfg.thr.get i).ch ≠ some 9) →
      Does (.sillTempLand v) s { s with sill := { x with tempDue := false, temp := v, tempValid := true } }) ∧
    (x.tempDue = false → exec (.sillTempLand v) s = .next s) ∧
    exec .sillShuntPop s = .next (match x.queue with
      | [] => { s with sill.tagCap := 7, out := .word 0 }
      | (c, t) :: l => { s with sill := { x with queue := l, tagCap := t }, out := .word c }) ∧
    (x.cfg.owner = 1 → s.actsAs who = .a → ∃ u, Does (.sillCtlWrite who v) s u ∧ u = { s with sill := { x with run := v.getLsbD 0, auto := v.getLsbD 1, rangeCtl := (v >>> 2).setWidth 3, resume := u.sill.resume, settle := u.sill.settle, thr := u.sill.thr } } ∧
      (u.sill.resume = true ↔ x.resume = true ∨ v.getLsbD 0 ≠ x.run) ∧ (u.sill.settle = true ↔ x.settle = true ∨ v.getLsbD 1 ≠ x.auto ∨ (v >>> 2).setWidth 3 ≠ x.rangeCtl) ∧
      (v.getLsbD 0 = true → u.sill.thr = x.thr) ∧ (v.getLsbD 0 = false → ∀ i : Fin 8, (u.sill.thr.get i).on = false)) ∧
    (x.cfg.owner = 1 → s.actsAs who = .b → exec (.sillCtlWrite who v) s = .next s) ∧ (x.cfg.owner = 0 → exec (.sillCtlWrite who v) s = .next s) ∧
    exec (.sillAuxCapture n) s = .next { s with out := .word (x.aux.get n.toFin), sill.auxT := x.auxT.set n.toFin (fieldAt 16 0 (x.cfg.aux.getD n.toNat 0) ||| fieldAt 16 4 (x.auxCnt.get n.toFin)) } ∧
    exec (.sillResumeCapture hi) s = .next (if hi then { s with sill := { x with rtickHiCap := (x.rtick >>> 16).setWidth 16, rsubCap := x.rsub }, out := .word (x.rtick.setWidth 16) }
      else { s with sill.rseqHiCap := (x.rseq >>> 16).setWidth 16, out := .word (x.rseq.setWidth 16) }) ∧
    exec (.storeChargeCapture hi) s = .next (if hi then { s with sill.qoutHiCap := (x.qout >>> 16).setWidth 16, out := .word (x.qout.setWidth 16) }
      else { s with sill.qinHiCap := (x.qin >>> 16).setWidth 16, out := .word (x.qin.setWidth 16) })

/-- The version floor, the engines' jobs, the random source, OTP words and the fetch counts. SEC_FLRCMD raises the floor into the
lowest free entry, or gives SAME before FULL, and is ignored while one is programmed. CRY_OP with GO starts a job, waits for
the engines, or reads OP, ADDR or LEN (one of the two where it breaks both); at its end DST holds the digest, MAC or cipher
text of the bytes as they stand, and nothing else of memory changes, or CRY_ST says whether the signature is valid. RNG_DATA
gives a ready word once, none after a failed test until a restart. An OTP word is programmed alone. A read of FCNT_LO
captures FCNT_HI. (R520, R521, R524, R525, R526, R527, R528, R543) -/
def Obligations.EnginesFloorRandomAndOtp : Prop :=
  ∀ (s : State) (who : Who) (c : CoreId) (v : Word),
    let x := s.sec
    let j := x.jobs c
    let op := v.toNat % 8
    let fits := ∀ b ∈ jobBuffers op j.src.toNat j.len.toNat j.dst.toNat j.key.toNat, b.1 + b.2 ≤ 0xD000
    let lenOk := (op ≤ 1 → j.len.toNat ≤ 4096) ∧ ((op = 2 ∨ op = 3) → 16 ≤ j.len.toNat ∧ j.len.toNat ≤ 4096 ∧ j.len.toNat % 16 = 0)
    let put := fun (k : JobSet) => { s with sec := x.setJobs c k }
    (v ≠ 0xF1A3 ∨ x.flrBusy.isSome = true → exec (.floorRaise who v) s = .next s) ∧
    (v = 0xF1A3 → x.flrBusy = none →
      (s.img.secVer.toNat ≤ (verFloor x).toNat → exec (.floorRaise who v) s = .next { s with sec.flr := 2 }) ∧
      ((verFloor x).toNat < s.img.secVer.toNat →
        ((∀ i < 16, (floorEntry x i).isSome = true) → exec (.floorRaise who v) s = .next { s with sec.flr := 3 }) ∧
        (∀ i < 16, floorEntry x i = none → (∀ k < i, (floorEntry x k).isSome = true) →
          exec (.floorRaise who v) s = .next { s with sec.flrBusy := some (i, s.img.secVer) }))) ∧
    (x.flrBusy = none → exec .floorProgramEnd s = .next s) ∧
    (∀ (i : Nat) (f : BitVec 32), x.flrBusy = some (i, f) → floorEntry x i = none → ∃ t, exec .floorProgramEnd s = .next t ∧ t = { s with sec := t.sec } ∧
      t.sec = { x with otp := t.sec.otp, flrBusy := none, flr := 1 } ∧ floorEntry t.sec i = some f ∧
      ∀ o, o ≠ 0x080 + 4 * i → o ≠ 0x082 + 4 * i → otpWord t.sec o = otpWord x o) ∧
    (v.getLsbD 15 = false → exec (.cryptoJobStart c v) s = .next (put { j with op := v.setWidth 3 })) ∧
    (v.getLsbD 15 = true →
      (j.st = 1 ∨ j.st = 2 → exec (.cryptoJobStart c v) s = .next (put { j with op := v.setWidth 3 })) ∧
      (j.st ≠ 1 → j.st ≠ 2 →
        (4 < op → exec (.cryptoJobStart c v) s = .next (put { j with op := v.setWidth 3, st := 8 })) ∧
        (op ≤ 4 → ¬ fits → lenOk → exec (.cryptoJobStart c v) s = .next (put { j with op := v.setWidth 3, st := 6 })) ∧
        (op ≤ 4 → fits → ¬ lenOk → exec (.cryptoJobStart c v) s = .next (put { j with op := v.setWidth 3, st := 7 })) ∧
        (op ≤ 4 → ¬ fits → ¬ lenOk → ∃ e, (e = 6 ∨ e = 7) ∧ exec (.cryptoJobStart c v) s = .next { put { j with op := v.setWidth 3, st := e } with free := s.free + 1 }) ∧
        (op ≤ 4 → fits → lenOk → let started := fun (st : BitVec 4) => x.setJobs c { j with op := v.setWidth 3, st := st, job := some (v.setWidth 3, j.src, j.len, j.dst, j.key) }
          (x.engine = none → exec (.cryptoJobStart c v) s = .next { s with sec := { started 2 with engine := some (engUser c) } }) ∧
          (x.engine.isSome = true → exec (.cryptoJobStart c v) s = .next { s with sec := { started 1 with waiters := x.waiters ++ [engUser c] } })))) ∧
    (∀ (o : BitVec 3) (src len dst key : Word), s.awake = true → s.mem.sound → s.mem.errs = [] → x.engine = some (engUser c) → j.job = some (o, src, len, dst, key) → x.waiters = [] →
      let bytes := fun (a : Word) (n : Nat) => (List.range n).map fun k => Bytes.read 0 s.mem.bytes (a.toNat + k)
      let out := if o = 0 then sha256 (bytes src len.toNat) else if o = 1 then hmac (bytes key 32) (bytes src len.toNat)
        else if o = 2 then aesEcb aesEnc (bytes key 16) (bytes src len.toNat) else aesEcb aesDec (bytes key 16) (bytes src len.toNat)
      let ended := fun (st : BitVec 4) => { x.setJobs c { j with st := st, job := none } with engine := none }
      (o.toNat < 4 → ∃ t, exec .cryptoJobEnd s = .next t ∧ t = { s with mem.bytes := t.mem.bytes, sec := ended 3 } ∧
        ∀ a, Bytes.read 0 t.mem.bytes a = if dst.toNat ≤ a ∧ a < dst.toNat + out.length then out.getD (a - dst.toNat) 0 else Bytes.read 0 s.mem.bytes a) ∧
      (o = 4 → exec .cryptoJobEnd s = .next { s with sec := ended (if ecdsaVerify (ofLe ((bytes key 64).take 32)) (ofLe ((bytes key 64).drop 32)) (ofLe ((bytes dst 64).take 32)) (ofLe ((bytes dst 64).drop 32)) (bytes src 32) then 4 else 5) })) ∧
    (s.awake = true → x.engine = some .coreA → x.jobA.job = none → x.waiters = [.coreB] →
      exec .cryptoJobEnd s = .next { s with sec := { x with jobB := { x.jobB with st := 2 }, engine := some .coreB, waiters := [] } }) ∧
    (x.engine = none → exec .cryptoJobEnd s = .next s) ∧
    (x.rngReady = true → x.rngHalt = false → exec .rngRead s = .next { s with sec.rngReady := false, out := .word x.rngHeld }) ∧
    (x.rngReady = false ∨ x.rngHalt = true → exec .rngRead s = .next { s with out := .word 0 }) ∧
    exec .rngHealthFail s = .next { s with sec := { x with rngFault := true, rngHalt := true, rngReady := false, rngRestart := false } } ∧
    exec (.rngRestart who) s = .next { s with sec.rngRestart := x.rngRestart || x.rngHalt } ∧
    (s.awake = true → x.rngReady = false → x.rngHalt = false ∨ x.rngRestart = true →
      exec (.rngRefillEnd v) s = .next { s with sec := { x with rngReady := true, rngHeld := v, rngHalt := false, rngRestart := false } }) ∧
    (x.rngReady = true ∨ (x.rngHalt = true ∧ x.rngRestart = false) → exec (.rngRefillEnd v) s = .next s) ∧
    (x.otpBusy = none → exec .otpProgEnd s = .next s) ∧
    (∀ (o : Nat) (w : Word), x.otpBusy = some (o, w) → otpWord x o = none → ∃ t, exec .otpProgEnd s = .next t ∧ t = { s with sec := { x with otp := t.sec.otp, otpBusy := none } } ∧
      otpWord t.sec o = some w ∧ ∀ p, p ≠ o → otpWord t.sec p = otpWord x p) ∧
    exec (.fetchCountCapture c) s = .next { s.setCore c { s.core c with fcntHiCap := ((s.core c).fcnt >>> 16).setWidth 16 } with out := .word ((s.core c).fcnt.setWidth 16) }

/-- The Hinge's transactions: answers and faults in order, sessions, run control, reads and writes, OTP and the lifecycle. The
Hinge is silent before the first course; a bad check, an unknown command, a missing session or right, a core that is not
halted, a refused OTP command and a lockout each fault with their reason and change nothing but LASTERR. Reads and writes act
where the session's rights allow, and a Derzor-side read waits and is held. A session opens at once in FACTORY, and in LOCKED
after a check of key and signature, whose failures count. Halt, resume, step, schedule check and the program counter act on a
core; a close resumes the cores. That schedule and halt requests end with a session, and the order of faults, are the model's
reading (log entry 34). (R520, R521, R522, R532, R533, R535, R536, R537, R538, R540, R542, R544) -/
def Obligations.HingeAnswersItsTransactions : Prop :=
  ∀ (s : State) (c : CoreId) (a v : Word) (rnd : List Byte),
    let h := s.hng
    let k := s.core c
    let live := s.awake = true ∧ hingeLive s = true ∧ s.pin.vioOk.getLsbD 0 = true
    let quiet := live ∧ h.checking = false ∧ h.reading = none ∧ h.held = none ∧ h.dropRead = false
    let ok := fun (t : State) => (.next { t with out := .hinge 5 none } : Host.Outcome State Fault Refusal)
    let gives := fun (w : Word) (t : State) => (.next { t with out := .hinge 5 (some w) } : Host.Outcome State Fault Refusal)
    let fault := fun (why : BitVec 4) => (.next { s with hng.lasterr := why, out := .hinge 9 none } : Host.Outcome State Fault Refusal)
    let may := fun (r : Nat) => h.session = true ∧ h.rights.getLsbD r = true
    let n := a.toNat
    (live → h.checking = false → exec (.hingeId true) s = gives 0x7216 { s with hng := { h with held := none, dropRead := h.reading.isSome } }) ∧
    (s.awake = true → hingeLive s = false → exec (.hingeId true) s = .next { s with out := .hinge 15 none }) ∧
    (live → h.checking = true → h.reading = none → h.held = none → h.dropRead = false →
      exec (.hingeId true) s = .next { s with out := .hinge 6 none } ∧ exec (.hingeRead .hinge 0 true) s = gives (hstatWord s) s) ∧
    (quiet → exec (.hingeId false) s = fault 1 ∧ (∀ sp, exec (.hingeRead sp a false) s = fault 1 ∧ exec (.hingeWrite sp a v false true) s = fault 1 ∧
        exec (.hingeWrite sp a v true false) s = fault 1) ∧
      (∀ cmd, hingeKnown cmd = false → exec (.hingeUnknownCommand cmd true) s = fault 2) ∧ exec (.hingeWrite .instr a v true true) s = fault 2) ∧
    (quiet → may 1 → exec (.hingeRead .instr a true) s = gives (codeWord s a) s ∧
      (a.getLsbD 0 = false → n < 0xD000 → s.mem.errs = [] → exec (.hingeRead .data a true) s = gives (sramWord s.mem n) s) ∧
      (a.getLsbD 0 = true → exec (.hingeRead .data a true) s = fault 6) ∧
      (∀ w, h.norc = true → derzorRange n = false → ioMapped n s = true → ioVal (s.actsAs .hinge) n s = some w → exec (.hingeRead .io a true) s = gives w s) ∧
      (derzorRange n = true → ioMapped n s = true → exec (.hingeRead .io a true) s = .next { s with hng.reading := some (a, s.tie.post.length), out := .hinge 6 none })) ∧
    (quiet → ¬ may 1 → ∀ sp, sp ≠ HingeSpace.hinge → exec (.hingeRead sp a true) s = fault 3) ∧
    (∀ w, s.awake = true → h.reading = some (a, 0) → h.dropRead = false → h.norc = true → ioVal (s.actsAs .hinge) (a.setWidth 12 : BitVec 12).toNat s = some w →
      exec (.tieReadComplete .hinge none) s = .next { s with hng.reading := none, hng.held := some (a, w) }) ∧
    (∀ w, live → h.checking = false → h.held = some (a, w) → may 1 → derzorRange n = true → ioMapped n s = true →
      exec (.hingeRead .io a true) s = gives w { s with hng.held := none }) ∧
    (quiet → ¬ may 2 → exec (.hingeWrite .data a v true true) s = fault 3 ∧ exec (.hingeWrite .io a v true true) s = fault 3) ∧
    (quiet → may 2 → s.mem.sound → a.getLsbD 0 = false → n < 0xD000 → ∃ t, exec (.hingeWrite .data a v true true) s = .next t ∧
      t = { s with mem := { s.mem with bytes := t.mem.bytes, errs := t.mem.errs }, out := .hinge 5 none } ∧ sramWord t.mem n = v ∧
      ∀ b, b ≠ n → b ≠ n + 1 → Bytes.read 0 t.mem.bytes b = Bytes.read 0 s.mem.bytes b) ∧
    (quiet → may 2 → derzorRange n = true → ioMapped n s = true → ioForeign (s.actsAs .hinge) n s = false → s.tie.post.length < 8 →
      exec (.hingeWrite .io a v true true) s = ok { s with tie.post := s.tie.post ++ [{ addr := a.setWidth 12, data := .word v, who := .hinge }] }) ∧
    (quiet → exec (.hingeWrite .hinge 0x04 v true true) s = ok { s with hng.req := v &&& 0x001F } ∧
      (∀ i : Fin 64, exec (.hingeWrite .hinge (BitVec.ofNat 16 (0x60 + i.val)) v true true) s = ok { s with hng.resp := h.resp.set i v })) ∧
    (quiet → rnd.length = 32 → exec (.hingeChallenge rnd) s = ok { s with hng.chal := rnd, hng.chalv := true }) ∧
    (quiet → (h.fails = 3 → exec .hingeOpen s = fault 10) ∧
      (h.fails ≠ 3 → s.sec.lc = .factory → exec .hingeOpen s = ok { s with hng.session := true, hng.rights := 0x1F }) ∧
      (h.fails ≠ 3 → s.sec.lc = .locked → h.chalv = true → exec .hingeOpen s = ok { s with hng.checking := true, sec := engAsk .session s.sec }) ∧
      (h.fails ≠ 3 → s.sec.lc = .locked → h.chalv = false → exec .hingeOpen s = .next { s with hng := { h with fails := h.fails + 1, lasterr := 11 }, out := .hinge 9 none })) ∧
    (h.checking = true → s.sec.engine = some .session → s.sec.waiters = [] → let b := h.resp.toList.flatMap fun w => [loB w, hiB w]
      let keyOk := dbgHashSet s.sec = true ∧ sha256 (b.take 64) = dbgHash s.sec
      let msg := h.chal ++ leBytes 8 s.sec.uid.toNat ++ leBytes 2 h.req.toNat
      let sigOk := ecdsaVerify (leAt b 0 32) (leAt b 32 32) (leAt b 64 32) (leAt b 96 32) (sha256 msg) = true
      let ends := fun (x : Hinge) => (.next { s with hng := { x with checking := false, chalv := false }, sec.engine := none } : Host.Outcome State Fault Refusal)
      let failed := if h.fails = 3 then 3 else h.fails + 1
      (keyOk → sigOk → exec .hingeSessionCheckEnd s = ends { h with session := true, rights := h.req.setWidth 5 }) ∧
      (keyOk → ¬ sigOk → exec .hingeSessionCheckEnd s = ends { h with fails := failed, lasterr := 11 }) ∧
      (¬ keyOk → exec .hingeSessionCheckEnd s = ends { h with fails := failed, lasterr := 12 })) ∧
    (h.checking = false → exec .hingeSessionCheckEnd s = .next s) ∧
    (quiet → h.session = false → exec .hingeClose s = fault 3 ∧ exec (.hingeHalt c) s = fault 3 ∧ exec (.hingeReset v) s = fault 3 ∧ exec .otpProg s = fault 3 ∧
      exec .lifecycleLock s = fault 3 ∧ exec .lifecycleRetire s = fault 3) ∧
    (quiet → h.session = true → s.crs.timeUp = false → ∃ t, exec .hingeClose s = .next t ∧ t = { s with coreA := t.coreA, coreB := t.coreB, hng := { h with session := false, rights := 0, norc := false }, out := .hinge 5 none } ∧
      ∀ d, (t.core d) = { s.core d with st := (t.core d).st, sched := false, haltReq := false, stepping := false } ∧
        (∀ f, (s.core d).st = .halted f → (t.core d).st = f.st) ∧ (isHalted (s.core d) = false → (t.core d).st = (s.core d).st)) ∧
    (quiet → may 0 →
      (isHalted k = false → exec (.hingeHalt c) s = ok (s.setCore c { k with haltReq := true }) ∧ exec (.hingeResume c) s = fault 8 ∧ exec (.hingeStep c) s = fault 8 ∧
        exec (.hingePcWrite c v) s = fault 8) ∧
      (∀ f, k.st = .halted f → s.crs.timeUp = false → exec (.hingeResume c) s = ok (s.setCore c { k with st := f.st, stepping := false, haltReq := false }) ∧
        exec (.hingeStep c) s = ok (s.setCore c { k with st := f.st, stepping := true, haltReq := false })) ∧
      (isHalted k = true → exec (.hingePcWrite c v) s = ok (s.setCore c { k with pc := v, xfer := none, call := false })) ∧
      (∀ b, exec (.hingeSchedWrite c b) s = ok (s.setCore c { k with sched := b }))) ∧
    (s.awake = true → k.haltReq = true → k.st = .running → k.xfer = none → k.busy = none → exec (.coreHalted c) s =
      .next { s.setCore c { k with haltReq := false, stepping := false, st := .halted .running } with crs := { s.crs with flags := if s.crs.running then setBit s.crs.flags 4 true else s.crs.flags } }) ∧
    (k.haltReq = false ∨ k.busy.isSome = true ∧ k.st = .running → exec (.coreHalted c) s = .next s) ∧
    (quiet → may 3 → v ≠ 0x5EA1 → exec (.hingeReset v) s = ok s) ∧
    (quiet → may 3 → ∃ t, exec (.hingeReset 0x5EA1) s = .next t ∧ t.isl.rstCause = 5 ∧ t.crs.running = false ∧ t.hng = h ∧ t.out = .hinge 5 none ∧ t.coreA.sched = s.coreA.sched) ∧
    (quiet → h.session = true → let o := h.otpAddr.toNat
      let may := s.sec.lc = .factory ∧ o % 2 = 0 ∧ 0x00A ≤ o ∧ o ≤ 0x07F ∧ otpWord s.sec o = none
      (s.sec.otpBusy = none → may → exec .otpProg s = ok { s with sec.otpBusy := some (o, h.otpData) }) ∧ (s.sec.otpBusy = none → ¬ may → exec .otpProg s = fault 9) ∧
      (s.sec.otpBusy.isSome = true → exec .otpProg s = .next { s with out := .hinge 6 none })) ∧
    (quiet → h.session = true → s.crs.timeUp = false →
      (s.sec.lc = .factory → keyHashSet s.sec = true → ∃ t, exec .lifecycleLock s = .next t ∧ t.sec = { s.sec with lc := .locked } ∧ t.hng.session = false ∧ t.out = .hinge 5 none) ∧
      (s.sec.lc ≠ .factory ∨ keyHashSet s.sec = false → exec .lifecycleLock s = fault 9) ∧
      (s.sec.lc = .factory ∨ s.sec.lc = .locked ∧ h.rights.getLsbD 4 = true → ∃ t, exec .lifecycleRetire s = .next t ∧ t.sec = { s.sec with lc := .retired } ∧ t.hng.session = false) ∧
      (s.sec.lc = .retired ∨ s.sec.lc = .locked ∧ h.rights.getLsbD 4 = false → exec .lifecycleRetire s = fault 9))
end

