-- ==== Sys2Proof/Laws/Bytes.lean ====
section
/-!
SUPPORT. Byte stores: every operation keeps the canonical form; what a read gives after a write.
-/
namespace Sys2Proof
namespace Laws
open Machine

variable {d : Byte} {m : Bytes} {a b lo : Nat} {v : Byte}

theorem wfFrom_mono (h : Bytes.wfFrom d lo m = true) (hb : b ≤ lo) : Bytes.wfFrom d b m = true := by
  cases m with
  | nil => rfl
  | cons e r => simp only [Bytes.wfFrom, Bool.and_eq_true, decide_eq_true_eq] at h ⊢; exact ⟨⟨by omega, h.1.2⟩, h.2⟩

theorem wfFrom_write (h : Bytes.wfFrom d lo m = true) (ha : lo ≤ a) : Bytes.wfFrom d lo (Bytes.write d m a v) = true := by
  induction m generalizing lo with
  | nil => simp only [Bytes.write]; split <;> simp [Bytes.wfFrom, *]
  | cons e r ih =>
    obtain ⟨b, w⟩ := e
    simp only [Bytes.wfFrom, Bool.and_eq_true, decide_eq_true_eq] at h
    simp only [Bytes.write]
    split
    · split
      · simp [Bytes.wfFrom, h]
      · simp only [Bytes.wfFrom, Bool.and_eq_true, decide_eq_true_eq]
        exact ⟨⟨ha, by assumption⟩, ⟨by omega, h.1.2⟩, h.2⟩
    · split
      · subst_vars
        split
        · exact wfFrom_mono h.2 (by omega)
        · simp [Bytes.wfFrom, *]
      · simp only [Bytes.wfFrom, Bool.and_eq_true, decide_eq_true_eq]
        exact ⟨h.1, ih h.2 (by omega)⟩

/-- A byte written keeps the canonical form. -/
theorem wf_write (h : Bytes.wf d m = true) : Bytes.wf d (Bytes.write d m a v) = true := wfFrom_write h (Nat.zero_le _)

/-- Bytes written in a row keep the canonical form. -/
theorem wf_writeL {l : List Byte} (h : Bytes.wf d m = true) : Bytes.wf d (Bytes.writeL d m a l) = true := by
  induction l generalizing m a with
  | nil => exact h
  | cons v l ih => exact ih (wf_write h)

theorem wfFrom_filter {f : Nat × BitVec 8 → Bool} (h : Bytes.wfFrom d lo m = true) : Bytes.wfFrom d lo (m.filter f) = true := by
  induction m generalizing lo with
  | nil => rfl
  | cons e r ih =>
    obtain ⟨b, w⟩ := e
    simp only [Bytes.wfFrom, Bool.and_eq_true, decide_eq_true_eq] at h
    simp only [List.filter]
    split
    · simp only [Bytes.wfFrom, Bool.and_eq_true, decide_eq_true_eq]; exact ⟨h.1, ih h.2⟩
    · exact wfFrom_mono (ih h.2) (by omega)

/-- Entries taken out leave the canonical form. -/
theorem wf_filter {f : Nat × BitVec 8 → Bool} (h : Bytes.wf d m = true) : Bytes.wf d (m.filter f) = true := wfFrom_filter h

theorem read_lt (h : Bytes.wfFrom d lo m = true) (ha : a < lo) : Bytes.read d m a = d := by
  induction m generalizing lo with
  | nil => rfl
  | cons e r ih =>
    obtain ⟨b, w⟩ := e
    simp only [Bytes.wfFrom, Bool.and_eq_true, decide_eq_true_eq] at h
    simp only [Bytes.read]
    rw [if_neg (by omega)]
    exact ih h.2 (by omega)

theorem read_write_from (h : Bytes.wfFrom d lo m = true) :
    Bytes.read d (Bytes.write d m a v) b = if b = a then v else Bytes.read d m b := by
  induction m generalizing lo with
  | nil =>
    simp only [Bytes.write]
    by_cases hv : v = d
    · rw [if_pos hv]; simp [Bytes.read, hv]
    · rw [if_neg hv]
      by_cases hb : b = a
      · simp [Bytes.read, hb]
      · rw [if_neg hb]; simp only [Bytes.read]; rw [if_neg (fun hh => hb hh.symm)]
  | cons e r ih =>
    obtain ⟨c, w⟩ := e
    simp only [Bytes.wfFrom, Bool.and_eq_true, decide_eq_true_eq] at h
    have hr : ∀ k, k < c + 1 → Bytes.read d r k = d := fun k hk => read_lt h.2 hk
    simp only [Bytes.write]
    split
    · split
      · simp only [Bytes.read]
        by_cases hb : b = a
        · subst hb; rw [if_neg (by omega), if_pos rfl, hr b (by omega)]; simp_all
        · rw [if_neg hb]
      · simp only [Bytes.read]
        by_cases hb : b = a
        · subst hb; simp
        · rw [if_neg (fun hh => hb hh.symm), if_neg hb]
    · split
      · subst_vars
        split
        · subst_vars
          simp only [Bytes.read]
          by_cases hb : b = c
          · subst hb; simp [hr b (by omega)]
          · rw [if_neg hb, if_neg (fun hh => hb hh.symm)]
        · simp only [Bytes.read]
          by_cases hb : b = c
          · subst hb; simp
          · rw [if_neg (fun hh => hb hh.symm), if_neg hb, if_neg (fun hh => hb hh.symm)]
      · simp only [Bytes.read, ih h.2]
        by_cases hb : b = a
        · subst hb; rw [if_neg (by omega), if_pos rfl, if_pos rfl]
        · simp [hb]

/-- A byte read after a write. -/
theorem read_write (h : Bytes.wf d m = true) : Bytes.read d (Bytes.write d m a v) b = if b = a then v else Bytes.read d m b :=
  read_write_from h

/-- A byte read after a row is written: the row's byte inside it, the old one outside. -/
theorem read_writeL {l : List Byte} (h : Bytes.wf d m = true) :
    Bytes.read d (Bytes.writeL d m a l) b = if a ≤ b ∧ b < a + l.length then l.getD (b - a) d else Bytes.read d m b := by
  induction l generalizing m a with
  | nil => rw [if_neg (by simp)]; rfl
  | cons w l ih =>
    simp only [Bytes.writeL, ih (wf_write h), read_write h, List.length_cons]
    by_cases h1 : a = b
    · subst h1; simp
    · by_cases h2 : a + 1 ≤ b ∧ b < a + 1 + l.length
      · rw [if_pos h2, if_pos (by omega)]
        obtain ⟨k, rfl⟩ : ∃ k, b = a + 1 + k := ⟨b - (a + 1), by omega⟩
        have : a + 1 + k - a = (a + 1 + k - (a + 1)) + 1 := by omega
        rw [this, List.getD_cons_succ]
      · rw [if_neg h2, if_neg (fun hh => h1 hh.symm), if_neg (by omega)]

end Laws
end Sys2Proof
end

