-- ==== Sys2Proof/Laws/State.lean ====
section
/-!
SUPPORT. The named updates of the state, field by field.
-/
namespace Sys2Proof
namespace Machine

variable {s : State} {c : CoreId} {k : Core}

/-! ### A core written -/

@[simp] theorem State.core_setCore : (s.setCore c k).core c = k := by cases c <;> rfl
@[simp] theorem State.core_setCore_other {d : CoreId} (h : d ≠ c) : (s.setCore c k).core d = s.core d := by cases c <;> cases d <;> first | rfl | exact absurd rfl h
@[simp] theorem State.setCore_setCore {k' : Core} : (s.setCore c k).setCore c k' = s.setCore c k' := by cases c <;> rfl
@[simp] theorem State.setCore_core : s.setCore c (s.core c) = s := by cases c <;> rfl
@[simp] theorem State.setCore_en : (s.setCore c k).en = s.en := by cases c <;> rfl
@[simp] theorem State.setCore_por : (s.setCore c k).por = s.por := by cases c <;> rfl
@[simp] theorem State.setCore_pwr : (s.setCore c k).pwr = s.pwr := by cases c <;> rfl
@[simp] theorem State.setCore_isl : (s.setCore c k).isl = s.isl := by cases c <;> rfl
@[simp] theorem State.setCore_crs : (s.setCore c k).crs = s.crs := by cases c <;> rfl
@[simp] theorem State.setCore_img : (s.setCore c k).img = s.img := by cases c <;> rfl
@[simp] theorem State.setCore_mem : (s.setCore c k).mem = s.mem := by cases c <;> rfl
@[simp] theorem State.setCore_tie : (s.setCore c k).tie = s.tie := by cases c <;> rfl
@[simp] theorem State.setCore_mrt : (s.setCore c k).mrt = s.mrt := by cases c <;> rfl
@[simp] theorem State.setCore_ash : (s.setCore c k).ash = s.ash := by cases c <;> rfl
@[simp] theorem State.setCore_vlt : (s.setCore c k).vlt = s.vlt := by cases c <;> rfl
@[simp] theorem State.setCore_prt : (s.setCore c k).prt = s.prt := by cases c <;> rfl
@[simp] theorem State.setCore_pc : (s.setCore c k).pc = s.pc := by cases c <;> rfl
@[simp] theorem State.setCore_pin : (s.setCore c k).pin = s.pin := by cases c <;> rfl
@[simp] theorem State.setCore_tch : (s.setCore c k).tch = s.tch := by cases c <;> rfl
@[simp] theorem State.setCore_sent : (s.setCore c k).sent = s.sent := by cases c <;> rfl
@[simp] theorem State.setCore_pane : (s.setCore c k).pane = s.pane := by cases c <;> rfl
@[simp] theorem State.setCore_sill : (s.setCore c k).sill = s.sill := by cases c <;> rfl
@[simp] theorem State.setCore_rtc : (s.setCore c k).rtc = s.rtc := by cases c <;> rfl
@[simp] theorem State.setCore_sec : (s.setCore c k).sec = s.sec := by cases c <;> rfl
@[simp] theorem State.setCore_hng : (s.setCore c k).hng = s.hng := by cases c <;> rfl
@[simp] theorem State.setCore_free : (s.setCore c k).free = s.free := by cases c <;> rfl
@[simp] theorem State.setCore_out : (s.setCore c k).out = s.out := by cases c <;> rfl
@[simp] theorem State.setCore_pending : (s.setCore c k).pending = s.pending := by cases c <;> rfl

/-! ### The time told, an answer given, a message sent -/

@[simp] theorem State.atSub_en {sub : BitVec 10} : (s.atSub sub).en = s.en := rfl
@[simp] theorem State.atSub_por {sub : BitVec 10} : (s.atSub sub).por = s.por := rfl
@[simp] theorem State.atSub_pwr {sub : BitVec 10} : (s.atSub sub).pwr = s.pwr := rfl
@[simp] theorem State.atSub_isl {sub : BitVec 10} : (s.atSub sub).isl = s.isl := rfl
@[simp] theorem State.atSub_img {sub : BitVec 10} : (s.atSub sub).img = s.img := rfl
@[simp] theorem State.atSub_coreA {sub : BitVec 10} : (s.atSub sub).coreA = s.coreA := rfl
@[simp] theorem State.atSub_coreB {sub : BitVec 10} : (s.atSub sub).coreB = s.coreB := rfl
@[simp] theorem State.atSub_mem {sub : BitVec 10} : (s.atSub sub).mem = s.mem := rfl
@[simp] theorem State.atSub_tie {sub : BitVec 10} : (s.atSub sub).tie = s.tie := rfl
@[simp] theorem State.atSub_mrt {sub : BitVec 10} : (s.atSub sub).mrt = s.mrt := rfl
@[simp] theorem State.atSub_ash {sub : BitVec 10} : (s.atSub sub).ash = s.ash := rfl
@[simp] theorem State.atSub_vlt {sub : BitVec 10} : (s.atSub sub).vlt = s.vlt := rfl
@[simp] theorem State.atSub_prt {sub : BitVec 10} : (s.atSub sub).prt = s.prt := rfl
@[simp] theorem State.atSub_pc {sub : BitVec 10} : (s.atSub sub).pc = s.pc := rfl
@[simp] theorem State.atSub_pin {sub : BitVec 10} : (s.atSub sub).pin = s.pin := rfl
@[simp] theorem State.atSub_tch {sub : BitVec 10} : (s.atSub sub).tch = s.tch := rfl
@[simp] theorem State.atSub_sent {sub : BitVec 10} : (s.atSub sub).sent = s.sent := rfl
@[simp] theorem State.atSub_pane {sub : BitVec 10} : (s.atSub sub).pane = s.pane := rfl
@[simp] theorem State.atSub_sill {sub : BitVec 10} : (s.atSub sub).sill = s.sill := rfl
@[simp] theorem State.atSub_rtc {sub : BitVec 10} : (s.atSub sub).rtc = s.rtc := rfl
@[simp] theorem State.atSub_sec {sub : BitVec 10} : (s.atSub sub).sec = s.sec := rfl
@[simp] theorem State.atSub_hng {sub : BitVec 10} : (s.atSub sub).hng = s.hng := rfl
@[simp] theorem State.atSub_free {sub : BitVec 10} : (s.atSub sub).free = s.free := rfl
@[simp] theorem State.atSub_out {sub : BitVec 10} : (s.atSub sub).out = s.out := rfl
@[simp] theorem State.atSub_pending {sub : BitVec 10} : (s.atSub sub).pending = s.pending := rfl
@[simp] theorem State.reply_en {r : Reply} : (s.reply r).en = s.en := rfl
@[simp] theorem State.reply_por {r : Reply} : (s.reply r).por = s.por := rfl
@[simp] theorem State.reply_pwr {r : Reply} : (s.reply r).pwr = s.pwr := rfl
@[simp] theorem State.reply_isl {r : Reply} : (s.reply r).isl = s.isl := rfl
@[simp] theorem State.reply_crs {r : Reply} : (s.reply r).crs = s.crs := rfl
@[simp] theorem State.reply_img {r : Reply} : (s.reply r).img = s.img := rfl
@[simp] theorem State.reply_coreA {r : Reply} : (s.reply r).coreA = s.coreA := rfl
@[simp] theorem State.reply_coreB {r : Reply} : (s.reply r).coreB = s.coreB := rfl
@[simp] theorem State.reply_mem {r : Reply} : (s.reply r).mem = s.mem := rfl
@[simp] theorem State.reply_tie {r : Reply} : (s.reply r).tie = s.tie := rfl
@[simp] theorem State.reply_mrt {r : Reply} : (s.reply r).mrt = s.mrt := rfl
@[simp] theorem State.reply_ash {r : Reply} : (s.reply r).ash = s.ash := rfl
@[simp] theorem State.reply_vlt {r : Reply} : (s.reply r).vlt = s.vlt := rfl
@[simp] theorem State.reply_prt {r : Reply} : (s.reply r).prt = s.prt := rfl
@[simp] theorem State.reply_pc {r : Reply} : (s.reply r).pc = s.pc := rfl
@[simp] theorem State.reply_pin {r : Reply} : (s.reply r).pin = s.pin := rfl
@[simp] theorem State.reply_tch {r : Reply} : (s.reply r).tch = s.tch := rfl
@[simp] theorem State.reply_sent {r : Reply} : (s.reply r).sent = s.sent := rfl
@[simp] theorem State.reply_pane {r : Reply} : (s.reply r).pane = s.pane := rfl
@[simp] theorem State.reply_sill {r : Reply} : (s.reply r).sill = s.sill := rfl
@[simp] theorem State.reply_rtc {r : Reply} : (s.reply r).rtc = s.rtc := rfl
@[simp] theorem State.reply_sec {r : Reply} : (s.reply r).sec = s.sec := rfl
@[simp] theorem State.reply_hng {r : Reply} : (s.reply r).hng = s.hng := rfl
@[simp] theorem State.reply_free {r : Reply} : (s.reply r).free = s.free := rfl
@[simp] theorem State.reply_pending {r : Reply} : (s.reply r).pending = s.pending := rfl
@[simp] theorem State.reply_out {r : Reply} : (s.reply r).out = r := rfl
@[simp] theorem State.send_en {m : LaneMsg} : (s.send m).en = s.en := rfl
@[simp] theorem State.send_por {m : LaneMsg} : (s.send m).por = s.por := rfl
@[simp] theorem State.send_pwr {m : LaneMsg} : (s.send m).pwr = s.pwr := rfl
@[simp] theorem State.send_isl {m : LaneMsg} : (s.send m).isl = s.isl := rfl
@[simp] theorem State.send_crs {m : LaneMsg} : (s.send m).crs = s.crs := rfl
@[simp] theorem State.send_img {m : LaneMsg} : (s.send m).img = s.img := rfl
@[simp] theorem State.send_coreA {m : LaneMsg} : (s.send m).coreA = s.coreA := rfl
@[simp] theorem State.send_coreB {m : LaneMsg} : (s.send m).coreB = s.coreB := rfl
@[simp] theorem State.send_mem {m : LaneMsg} : (s.send m).mem = s.mem := rfl
@[simp] theorem State.send_mrt {m : LaneMsg} : (s.send m).mrt = s.mrt := rfl
@[simp] theorem State.send_ash {m : LaneMsg} : (s.send m).ash = s.ash := rfl
@[simp] theorem State.send_vlt {m : LaneMsg} : (s.send m).vlt = s.vlt := rfl
@[simp] theorem State.send_prt {m : LaneMsg} : (s.send m).prt = s.prt := rfl
@[simp] theorem State.send_pc {m : LaneMsg} : (s.send m).pc = s.pc := rfl
@[simp] theorem State.send_pin {m : LaneMsg} : (s.send m).pin = s.pin := rfl
@[simp] theorem State.send_tch {m : LaneMsg} : (s.send m).tch = s.tch := rfl
@[simp] theorem State.send_sent {m : LaneMsg} : (s.send m).sent = s.sent := rfl
@[simp] theorem State.send_pane {m : LaneMsg} : (s.send m).pane = s.pane := rfl
@[simp] theorem State.send_sill {m : LaneMsg} : (s.send m).sill = s.sill := rfl
@[simp] theorem State.send_rtc {m : LaneMsg} : (s.send m).rtc = s.rtc := rfl
@[simp] theorem State.send_sec {m : LaneMsg} : (s.send m).sec = s.sec := rfl
@[simp] theorem State.send_hng {m : LaneMsg} : (s.send m).hng = s.hng := rfl
@[simp] theorem State.send_free {m : LaneMsg} : (s.send m).free = s.free := rfl
@[simp] theorem State.send_out {m : LaneMsg} : (s.send m).out = s.out := rfl
@[simp] theorem State.send_pending {m : LaneMsg} : (s.send m).pending = s.pending := rfl
@[simp] theorem State.send_lane {m : LaneMsg} : (s.send m).tie.lane = s.tie.lane ++ [m] := rfl

end Machine
end Sys2Proof
end

