-- ==== Sys2Proof/Laws/Issue.lean ====
section
/-!
SUPPORT. What issuing an instruction does: when it runs, when it traps, and what landing and counting leave alone.
-/
namespace Sys2Proof
namespace Laws
open Machine

variable {c : CoreId} {words extra : Nat} {ill : Core → Option (BitVec 4)} {body : State → Effect} {s t : State} {k : Core}

/-! ### Landing, counting, the program counter -/

/-- A landing changes result registers, flags and the unit alone. -/
theorem landOne_eq (k : Core) (r : AuRes) :
    landOne k r = { k with mh := (landOne k r).mh, ml := (landOne k r).ml, qt := (landOne k r).qt, rm := (landOne k r).rm,
                           fr := (landOne k r).fr, ff := (landOne k r).ff, z := (landOne k r).z, n := (landOne k r).n,
                           c := (landOne k r).c, v := (landOne k r).v, au := (landOne k r).au } := by
  unfold landOne
  dsimp only
  (repeat' split) <;> rfl

/-- A core but for the result registers, the flags and the unit. -/
def Lands (k k' : Core) : Prop :=
  k' = { k with mh := k'.mh, ml := k'.ml, qt := k'.qt, rm := k'.rm, fr := k'.fr, ff := k'.ff, z := k'.z, n := k'.n, c := k'.c,
                v := k'.v, au := k'.au }

theorem lands_trans {a b d : Core} (h : Lands a b) (g : Lands b d) : Lands a d := by
  unfold Lands at *
  rw [h] at g
  exact g

theorem lands_foldl (l : List AuRes) (k : Core) : Lands k (l.foldl landOne k) := by
  induction l generalizing k with
  | nil => exact rfl
  | cons r l ih => exact lands_trans (landOne_eq k r) (ih _)

/-- What is due lands, and nothing else changes. -/
theorem landDue_lands (k : Core) : Lands k k.landDue := by
  unfold Core.landDue
  exact lands_trans (b := { k with au := { k.au with flight := k.au.flight.filter fun r => r.left != 0 } }) rfl (lands_foldl _ _)

@[simp] theorem landDue_k : k.landDue.k = k.k := by rw [landDue_lands k]
@[simp] theorem landDue_pc : k.landDue.pc = k.pc := by rw [landDue_lands k]
@[simp] theorem landDue_xfer : k.landDue.xfer = k.xfer := by rw [landDue_lands k]
@[simp] theorem landDue_call : k.landDue.call = k.call := by rw [landDue_lands k]
@[simp] theorem landDue_st : k.landDue.st = k.st := by rw [landDue_lands k]
@[simp] theorem landDue_rs : k.landDue.rs = k.rs := by rw [landDue_lands k]
@[simp] theorem landDue_rsP : k.landDue.rsP = k.rsP := by rw [landDue_lands k]
@[simp] theorem landDue_rsD : k.landDue.rsD = k.rsD := by rw [landDue_lands k]

/-- With nothing in flight nothing lands. -/
theorem landDue_none (h : k.au.flight = []) : k.landDue = k := by
  cases k with
  | mk =>
    rename_i au _ _ _
    cases au
    simp_all [Core.landDue]

/-! ### Issue -/

/-- A core that does not issue ignores an instruction. -/
theorem issue_idle (h : issuing c s = false) : issue c words ill body s = s := by simp [issue, h]

/-- An instruction that meets no check and does not trap leaves what its body leaves, its slots counted. -/
theorem issue_done (h : issuing c s = true) (hc : issueCheck c words ill (s.core c).landDue = none)
    (hb : body (s.setCore c ((s.core c).landDue.advancePc words)) = .done t extra) :
    issue c words ill body s = t.setCore c ((t.core c).spend (words + extra)).stepEnd := by
  simp [issue, h, hc, hb]

/-- An instruction that meets a check traps. -/
theorem issue_check (h : issuing c s = true) {p : Trap} (hc : issueCheck c words ill (s.core c).landDue = some p) :
    issue c words ill body s = issueTrap c p words (s.setCore c (s.core c).landDue) := by
  simp [issue, h, hc]

/-- An instruction that traps has no other effect. -/
theorem issue_trap (h : issuing c s = true) (hc : issueCheck c words ill (s.core c).landDue = none) {p : Trap}
    (hb : body (s.setCore c ((s.core c).landDue.advancePc words)) = .trap p) :
    issue c words ill body s = issueTrap c p words (s.setCore c (s.core c).landDue) := by
  simp [issue, h, hc, hb]

/-- No check stops an instruction that is legal and lies where its core may issue. -/
theorem issueCheck_none (hi : ill k = none) (hp : c = .b → k.pc.toNat + words ≤ 0x2000) (hw : words = 1 ∨ words = 2) :
    issueCheck c words ill k = none := by
  cases c
  · simp [issueCheck, hi, CoreId.isB]
  · have := hp rfl
    simp only [issueCheck, hi, CoreId.isB, Bool.true_and, decide_eq_true_eq, Bool.and_eq_true]
    rw [if_neg (by omega), if_neg]
    rintro ⟨h2, h3⟩
    rw [h3] at this
    simp at this
    omega

end Laws
end Sys2Proof
end

