-- ==== Sys2Proof/Laws/Keep.lean ====
section
/-!
SUPPORT. How soundness and the queue are carried through every operation: `Kept x s` says that the queue is the one `x` names,
and that s is sound where `x` asks for it. Each operation has its own lemma in the files beside this one.
-/
namespace Sys2Proof
namespace Laws
open Machine

/-- What is carried: whether soundness is asked for, and the queue. -/
structure Carry where
  inv : Prop
  queue : List Instr

variable {x : Carry}

def BytesK (x : Carry) (d : Byte) (m : Bytes) : Prop := x.inv → Bytes.wf d m = true
def LenK {α : Type} (x : Carry) (n : Nat) (l : List α) : Prop := x.inv → l.length ≤ n
def LedgK (x : Carry) (n : Nat) : Prop := x.inv → n ≤ ledgerTop
def DepthK (x : Carry) (n : Nat) : Prop := x.inv → n ≤ 8
def QueueK (x : Carry) (l : List Instr) : Prop := l = x.queue

def MemK (x : Carry) (m : Memory) : Prop := BytesK x 0#8 m.bytes
def TieK (x : Carry) (t : Tie) : Prop := LenK x 8 t.post ∧ LenK x 8 t.lf
def VltK (x : Carry) (v : Vault) : Prop := BytesK x 255#8 v.store
def SlotK (x : Carry) (k : Slot) : Prop := BytesK x 255#8 k.code ∧ BytesK x 255#8 k.str
def ImgK (x : Carry) (i : Store) : Prop := SlotK x i.slot0 ∧ SlotK x i.slot1
def PorK (x : Carry) (p : Porter) : Prop := LedgK x p.ledger
def CrsK (x : Carry) (c : CourseEngine) : Prop := LenK x 8 c.recs
def SillK (x : Carry) (y : Sill) : Prop := LenK x 64 y.queue
def PcK (x : Carry) (p : PortC) : Prop := LenK x 4 p.rxq
def CoreK (x : Carry) (k : Core) : Prop := DepthK x k.rsD

/-- The queue is the one named, and the state is sound where that is asked for. -/
def Kept (x : Carry) (s : State) : Prop :=
  MemK x s.mem ∧ TieK x s.tie ∧ VltK x s.vlt ∧ ImgK x s.img ∧ PorK x s.por ∧ CrsK x s.crs ∧ SillK x s.sill ∧ PcK x s.pc ∧ CoreK x s.coreA ∧ CoreK x s.coreB ∧ QueueK x s.pending

/-! ### The parts -/

@[simp] theorem Kept.mem {s : State} (h : Kept x s) : MemK x s.mem := h.1
@[simp] theorem Kept.tie {s : State} (h : Kept x s) : TieK x s.tie := h.2.1
@[simp] theorem Kept.vlt {s : State} (h : Kept x s) : VltK x s.vlt := h.2.2.1
@[simp] theorem Kept.img {s : State} (h : Kept x s) : ImgK x s.img := h.2.2.2.1
@[simp] theorem Kept.por {s : State} (h : Kept x s) : PorK x s.por := h.2.2.2.2.1
@[simp] theorem Kept.crs {s : State} (h : Kept x s) : CrsK x s.crs := h.2.2.2.2.2.1
@[simp] theorem Kept.sill {s : State} (h : Kept x s) : SillK x s.sill := h.2.2.2.2.2.2.1
@[simp] theorem Kept.pc {s : State} (h : Kept x s) : PcK x s.pc := h.2.2.2.2.2.2.2.1
@[simp] theorem Kept.coreA {s : State} (h : Kept x s) : CoreK x s.coreA := h.2.2.2.2.2.2.2.2.1
@[simp] theorem Kept.coreB {s : State} (h : Kept x s) : CoreK x s.coreB := h.2.2.2.2.2.2.2.2.2.1
@[simp] theorem Kept.pending {s : State} (h : Kept x s) : QueueK x s.pending := h.2.2.2.2.2.2.2.2.2.2
@[simp] theorem MemK.bytes {m : Memory} (h : MemK x m) : BytesK x 0#8 m.bytes := h
@[simp] theorem TieK.post {t : Tie} (h : TieK x t) : LenK x 8 t.post := h.1
@[simp] theorem TieK.lf {t : Tie} (h : TieK x t) : LenK x 8 t.lf := h.2
@[simp] theorem VltK.store {v : Vault} (h : VltK x v) : BytesK x 255#8 v.store := h
@[simp] theorem SlotK.code {k : Slot} (h : SlotK x k) : BytesK x 255#8 k.code := h.1
@[simp] theorem SlotK.str {k : Slot} (h : SlotK x k) : BytesK x 255#8 k.str := h.2
@[simp] theorem ImgK.slot0 {i : Store} (h : ImgK x i) : SlotK x i.slot0 := h.1
@[simp] theorem ImgK.slot1 {i : Store} (h : ImgK x i) : SlotK x i.slot1 := h.2
@[simp] theorem PorK.ledger {p : Porter} (h : PorK x p) : LedgK x p.ledger := h
@[simp] theorem CrsK.recs {c : CourseEngine} (h : CrsK x c) : LenK x 8 c.recs := h
@[simp] theorem SillK.queue {y : Sill} (h : SillK x y) : LenK x 64 y.queue := h
@[simp] theorem PcK.rxq {p : PortC} (h : PcK x p) : LenK x 4 p.rxq := h
@[simp] theorem CoreK.rsD {k : Core} (h : CoreK x k) : DepthK x k.rsD := h

/-! ### Updates -/

@[simp] theorem memK_mk {a0 a1 a2 a3 a4 a5 a6 a7 a8 a9 a10 a11 a12} : MemK x (Memory.mk a0 a1 a2 a3 a4 a5 a6 a7 a8 a9 a10 a11 a12) ↔ BytesK x 0#8 a0 := Iff.rfl
@[simp] theorem tieK_mk {a0 a1 a2 a3 a4 a5} : TieK x (Tie.mk a0 a1 a2 a3 a4 a5) ↔ LenK x 8 a0 ∧ LenK x 8 a1 := Iff.rfl
@[simp] theorem vltK_mk {a0 a1 a2 a3 a4 a5 a6 a7 a8 a9 a10 a11 a12 a13 a14 a15 a16 a17 a18 a19 a20 a21 a22 a23 a24 a25 a26 a27 a28 a29 a30 a31 a32 a33 a34 a35 a36 a37 a38 a39 a40 a41 a42 a43 a44 a45} : VltK x (Vault.mk a0 a1 a2 a3 a4 a5 a6 a7 a8 a9 a10 a11 a12 a13 a14 a15 a16 a17 a18 a19 a20 a21 a22 a23 a24 a25 a26 a27 a28 a29 a30 a31 a32 a33 a34 a35 a36 a37 a38 a39 a40 a41 a42 a43 a44 a45) ↔ BytesK x 255#8 a0 := Iff.rfl
@[simp] theorem slotK_mk {a0 a1 a2 a3 a4 a5 a6} : SlotK x (Slot.mk a0 a1 a2 a3 a4 a5 a6) ↔ BytesK x 255#8 a0 ∧ BytesK x 255#8 a1 := Iff.rfl
@[simp] theorem imgK_mk {a0 a1 a2 a3 a4 a5 a6 a7 a8 a9 a10 a11 a12 a13 a14 a15 a16 a17 a18} : ImgK x (Store.mk a0 a1 a2 a3 a4 a5 a6 a7 a8 a9 a10 a11 a12 a13 a14 a15 a16 a17 a18) ↔ SlotK x a0 ∧ SlotK x a1 := Iff.rfl
@[simp] theorem porK_mk {a0 a1 a2 a3 a4 a5 a6 a7 a8 a9 a10 a11 a12 a13 a14 a15 a16 a17 a18 a19 a20 a21 a22 a23 a24 a25 a26 a27 a28 a29 a30 a31 a32 a33 a34} : PorK x (Porter.mk a0 a1 a2 a3 a4 a5 a6 a7 a8 a9 a10 a11 a12 a13 a14 a15 a16 a17 a18 a19 a20 a21 a22 a23 a24 a25 a26 a27 a28 a29 a30 a31 a32 a33 a34) ↔ LedgK x a0 := Iff.rfl
@[simp] theorem crsK_mk {a0 a1 a2 a3 a4 a5 a6 a7 a8 a9 a10 a11 a12 a13 a14 a15 a16 a17 a18 a19 a20 a21 a22 a23 a24 a25 a26 a27 a28 a29 a30 a31 a32 a33 a34 a35 a36 a37 a38 a39 a40 a41 a42} : CrsK x (CourseEngine.mk a0 a1 a2 a3 a4 a5 a6 a7 a8 a9 a10 a11 a12 a13 a14 a15 a16 a17 a18 a19 a20 a21 a22 a23 a24 a25 a26 a27 a28 a29 a30 a31 a32 a33 a34 a35 a36 a37 a38 a39 a40 a41 a42) ↔ LenK x 8 a34 := Iff.rfl
@[simp] theorem sillK_mk {a0 a1 a2 a3 a4 a5 a6 a7 a8 a9 a10 a11 a12 a13 a14 a15 a16 a17 a18 a19 a20 a21 a22 a23 a24 a25 a26 a27 a28 a29 a30 a31 a32 a33 a34 a35 a36 a37 a38 a39 a40} : SillK x (Sill.mk a0 a1 a2 a3 a4 a5 a6 a7 a8 a9 a10 a11 a12 a13 a14 a15 a16 a17 a18 a19 a20 a21 a22 a23 a24 a25 a26 a27 a28 a29 a30 a31 a32 a33 a34 a35 a36 a37 a38 a39 a40) ↔ LenK x 64 a7 := Iff.rfl
@[simp] theorem pcK_mk {a0 a1 a2 a3 a4 a5 a6 a7 a8 a9 a10 a11 a12 a13 a14 a15 a16 a17 a18 a19 a20 a21 a22 a23 a24 a25 a26 a27} : PcK x (PortC.mk a0 a1 a2 a3 a4 a5 a6 a7 a8 a9 a10 a11 a12 a13 a14 a15 a16 a17 a18 a19 a20 a21 a22 a23 a24 a25 a26 a27) ↔ LenK x 4 a20 := Iff.rfl
@[simp] theorem coreK_mk {a0 a1 a2 a3 a4 a5 a6 a7 a8 a9 a10 a11 a12 a13 a14 a15 a16 a17 a18 a19 a20 a21 a22 a23 a24 a25 a26 a27 a28 a29 a30 a31 a32 a33 a34 a35 a36 a37 a38 a39 a40 a41 a42 a43 a44 a45} : CoreK x (Core.mk a0 a1 a2 a3 a4 a5 a6 a7 a8 a9 a10 a11 a12 a13 a14 a15 a16 a17 a18 a19 a20 a21 a22 a23 a24 a25 a26 a27 a28 a29 a30 a31 a32 a33 a34 a35 a36 a37 a38 a39 a40 a41 a42 a43 a44 a45) ↔ DepthK x a20 := Iff.rfl
@[simp] theorem kept_mk {a0 a1 a2 a3 a4 a5 a6 a7 a8 a9 a10 a11 a12 a13 a14 a15 a16 a17 a18 a19 a20 a21 a22 a23 a24 a25} : Kept x (State.mk a0 a1 a2 a3 a4 a5 a6 a7 a8 a9 a10 a11 a12 a13 a14 a15 a16 a17 a18 a19 a20 a21 a22 a23 a24 a25) ↔ MemK x a8 ∧ TieK x a9 ∧ VltK x a12 ∧ ImgK x a5 ∧ PorK x a1 ∧ CrsK x a4 ∧ SillK x a19 ∧ PcK x a14 ∧ CoreK x a6 ∧ CoreK x a7 ∧ QueueK x a25 := Iff.rfl

/-! ### Leaves -/

@[simp] theorem bytesK_write {d : Byte} {m : Bytes} {a : Nat} {v : Byte} (h : BytesK x d m) : BytesK x d (Bytes.write d m a v) :=
  fun i => wf_write (h i)
@[simp] theorem bytesK_writeL {d : Byte} {m : Bytes} {a : Nat} {l : List Byte} (h : BytesK x d m) : BytesK x d (Bytes.writeL d m a l) :=
  fun i => wf_writeL (h i)
@[simp] theorem bytesK_filter {d : Byte} {m : Bytes} {f : Nat × BitVec 8 → Bool} (h : BytesK x d m) : BytesK x d (m.filter f) :=
  fun i => wf_filter (h i)
@[simp] theorem bytesK_nil {d : Byte} : BytesK x d [] := fun _ => rfl
@[simp] theorem lenK_nil {α : Type} {n : Nat} : LenK (α := α) x n [] := fun _ => by simp
@[simp] theorem lenK_drop {α : Type} {n k : Nat} {l : List α} (h : LenK x n l) : LenK x n (l.drop k) :=
  fun i => by have := h i; simp; omega
@[simp] theorem lenK_tail {α : Type} {n : Nat} {l : List α} (h : LenK x n l) : LenK x n l.tail :=
  fun i => by have := h i; simp; omega
@[simp] theorem lenK_filter {α : Type} {n : Nat} {f : α → Bool} {l : List α} (h : LenK x n l) : LenK x n (l.filter f) :=
  fun i => Nat.le_trans (List.length_filter_le _ _) (h i)
@[simp] theorem depthK_zero : DepthK x 0 := fun _ => by simp
@[simp] theorem ledgK_zero : LedgK x 0 := fun _ => Nat.zero_le _

/-! ### Choices, and the forms in which operations answer -/

@[simp] theorem kept_ite {b : Prop} [Decidable b] {s t : State} : Kept x (if b then s else t) ↔ (b → Kept x s) ∧ (¬b → Kept x t) := by
  split <;> simp_all

theorem kept_foldl {α : Type} {f : State → α → State} (hf : ∀ s a, Kept x s → Kept x (f s a)) (l : List α) {s : State} (h : Kept x s) :
    Kept x (l.foldl f s) := by
  induction l generalizing s with
  | nil => exact h
  | cons a l ih => exact ih (hf s a h)

/-- What a command answers: a next state is kept. -/
def KeptO (x : Carry) (o : Host.Outcome State Fault Refusal) : Prop := ∀ t, o = .next t → Kept x t

@[simp] theorem keptO_next {t : State} : KeptO x (.next t) ↔ Kept x t := by simp [KeptO]
@[simp] theorem keptO_fault {r : Fault} : KeptO x (.fault r) := by simp [KeptO]
@[simp] theorem keptO_refused {r : Refusal} : KeptO x (.refused r) := by simp [KeptO]

/-- What an instruction does: the state it leaves is kept. -/
def KeptE (x : Carry) (e : Effect) : Prop := ∀ t n, e = .done t n → Kept x t

@[simp] theorem keptE_done {t : State} {n : Nat} : KeptE x (.done t n) ↔ Kept x t := by simp [KeptE]
@[simp] theorem keptE_trap {t : Trap} : KeptE x (.trap t) := by simp [KeptE]

theorem kept_iff (s : State) : Kept ⟨True, s.pending⟩ s ↔ s.Inv := by
  simp only [Kept, State.Inv, MemK, TieK, VltK, ImgK, SlotK, PorK, CrsK, SillK, PcK, CoreK, QueueK, BytesK, LenK, LedgK, DepthK,
    Memory.sound, Tie.sound, Vault.sound, Store.sound, Porter.sound, CourseEngine.sound, Sill.sound, PortC.sound, Core.sound,
    true_implies, and_true]
  exact Iff.rfl

theorem kept_queue (s : State) : Kept ⟨False, s.pending⟩ s := by
  simp [Kept, MemK, TieK, VltK, ImgK, SlotK, PorK, CrsK, SillK, PcK, CoreK, QueueK, BytesK, LenK, LedgK, DepthK]

end Laws
end Sys2Proof
end

