-- ==== Sys2Proof/Laws/KeptState.lean ====
section
/-!
SUPPORT. Every operation of Machine/State.lean carries the queue and soundness through.
-/
namespace Sys2Proof
namespace Laws
open Machine

variable {x : Carry}

@[simp] theorem kept_Porter_reset  : PorK x (Porter.reset) := by simp (maxDischargeDepth := 9) [Porter.reset, *]
@[simp] theorem kept_CourseEngine_reset  : CrsK x (CourseEngine.reset) := by simp (maxDischargeDepth := 9) [CourseEngine.reset, *]
@[simp] theorem kept_Slot_shipped  : SlotK x (Slot.shipped) := by simp (maxDischargeDepth := 9) [Slot.shipped, *]
@[simp] theorem kept_Store_reset  : ImgK x (Store.reset) := by simp (maxDischargeDepth := 9) [Store.reset, *]
@[simp] theorem kept_Core_reset  : CoreK x (Core.reset) := by simp (maxDischargeDepth := 9) [Core.reset, *]
@[simp] theorem kept_Memory_reset  : MemK x (Memory.reset) := by simp (maxDischargeDepth := 9) [Memory.reset, *]
@[simp] theorem kept_Tie_reset  : TieK x (Tie.reset) := by simp (maxDischargeDepth := 9) [Tie.reset, *]
@[simp] theorem kept_Vault_reset  : VltK x (Vault.reset) := by simp (maxDischargeDepth := 9) [Vault.reset, *]
@[simp] theorem kept_PortC_reset  : PcK x (PortC.reset) := by simp (maxDischargeDepth := 9) [PortC.reset, *]
@[simp] theorem kept_Sill_reset  : SillK x (Sill.reset) := by simp (maxDischargeDepth := 9) [Sill.reset, *]

end Laws
end Sys2Proof
end

