-- ==== Sys2Proof/Laws/KeptOps.lean ====
section
/-!
SUPPORT. Every operation of Machine/Ops.lean carries the queue and soundness through.
-/
namespace Sys2Proof
namespace Laws
open Machine

variable {x : Carry}

theorem coreK_foldl {α : Type} {f : Core → α → Core} (hf : ∀ k a, CoreK x k → CoreK x (f k a)) (l : List α) {k : Core} (h : CoreK x k) :
    CoreK x (l.foldl f k) := by
  induction l generalizing k with
  | nil => exact h
  | cons a l ih => exact ih (hf k a h)

@[simp] theorem kept_State_atSub (s : State) (sub : BitVec 10) (hs : Kept x s) : Kept x (State.atSub s sub) := by simp (maxDischargeDepth := 9) [State.atSub, *]
@[simp] theorem kept_State_core (s : State) (a1 : CoreId) (hs : Kept x s) : CoreK x (State.core s a1) := by
  unfold State.core
  (repeat' split) <;> simp (maxDischargeDepth := 9) [*]
@[simp] theorem kept_State_setCore (s : State) (c : CoreId) (k : Core) (hs : Kept x s) (hk : CoreK x k) : Kept x (State.setCore s c k) := by
  unfold State.setCore
  (repeat' split) <;> simp (maxDischargeDepth := 9) [*]
@[simp] theorem kept_eccSingle (m : Memory) (a : ℕ) (hm : MemK x m) : MemK x (eccSingle m a) := by simp (maxDischargeDepth := 9) [eccSingle, *]
@[simp] theorem kept_eccDouble (r : Reader) (m : Memory) (a : ℕ) (hm : MemK x m) : MemK x (eccDouble r m a) := by simp (maxDischargeDepth := 9) [eccDouble, *]
@[simp] theorem kept_eccTouch (r : Reader) (s : State) (a : ℕ) (hs : Kept x s) : Kept x (eccTouch r s a) := by
  unfold eccTouch
  (repeat' split) <;> simp (maxDischargeDepth := 9) [*]
@[simp] theorem kept_sramRead (r : Reader) (a : ℕ) (s : State) (hs : Kept x s) : Kept x (sramRead r a s).2 := by simp (maxDischargeDepth := 9) [sramRead, *]
@[simp] theorem kept_sramWrite (a : ℕ) (v : Word) (s : State) (hs : Kept x s) : Kept x (sramWrite a v s) := by simp (maxDischargeDepth := 9) [sramWrite, *]
@[simp] theorem kept_sramReadB (r : Reader) (a : ℕ) (s : State) (hs : Kept x s) : Kept x (sramReadB r a s).2 := by simp (maxDischargeDepth := 9) [sramReadB, *]
@[simp] theorem kept_sramWriteB (r : Reader) (a : ℕ) (v : Byte) (s : State) (hs : Kept x s) : Kept x (sramWriteB r a v s) := by simp (maxDischargeDepth := 9) [sramWriteB, *]
@[simp] theorem kept_sramWriteL (a0 : Reader) (a1 : ℕ) (a2 : List Byte) (a3 : State) (ha3 : Kept x a3) : Kept x (sramWriteL a0 a1 a2 a3) := by
  fun_induction sramWriteL <;> simp_all
@[simp] theorem kept_sramReadL (r : Reader) (a n : Nat) {s : State} (hs : Kept x s) : Kept x (sramReadL r a n s).2 := by
  induction n generalizing a s with
  | zero => exact hs
  | succ n ih => exact ih _ (kept_sramReadB r a s hs)

@[simp] theorem kept_sramClear (a : ℕ) (n : ℕ) (s : State) (hs : Kept x s) : Kept x (sramClear a n s) := by simp (maxDischargeDepth := 9) [sramClear, *]
@[simp] theorem kept_takeFree (s : State) (hs : Kept x s) : Kept x (takeFree s).2 := by simp (maxDischargeDepth := 9) [takeFree, *]
@[simp] theorem kept_freeBytes (n : ℕ) (s : State) (hs : Kept x s) : Kept x (freeBytes n s).2 := by simp (maxDischargeDepth := 9) [freeBytes, *]
@[simp] theorem kept_State_send (s : State) (m : LaneMsg) (hs : Kept x s) : Kept x (State.send s m) := by simp (maxDischargeDepth := 9) [State.send, *]
@[simp] theorem kept_State_ask (s : State) (k : BitVec 3) (r : Requester) (hs : Kept x s) : Kept x (State.ask s k r) := by simp (maxDischargeDepth := 9) [State.ask, *]
@[simp] theorem kept_State_withdraw (s : State) (k : BitVec 3) (r : Requester) (hs : Kept x s) : Kept x (State.withdraw s k r) := by simp (maxDischargeDepth := 9) [State.withdraw, *]
@[simp] theorem kept_State_fin (s : State) (k : BitVec 3) (r : Requester) (hs : Kept x s) : Kept x (State.fin s k r) := by simp (maxDischargeDepth := 9) [State.fin, *]
@[simp] theorem kept_State_lateFault (s : State) (f : LateFault) (hs : Kept x s) : Kept x (State.lateFault s f) := by
  simp only [State.lateFault]
  split
  · simp [*]
  · simp [*]
    intro _; simp; omega
@[simp] theorem kept_State_lateWord (s : State) (a : ℕ) (outcome : BitVec 3) (v : Word) (who : Who) (hs : Kept x s) : Kept x (State.lateWord s a outcome v who) := by simp (maxDischargeDepth := 9) [State.lateWord, *]
@[simp] theorem kept_State_reply (s : State) (r : Reply) (hs : Kept x s) : Kept x (State.reply s r) := by simp (maxDischargeDepth := 9) [State.reply, *]

end Laws
end Sys2Proof
end

