-- ==== Sys2Proof/Laws/KeptCores.lean ====
section
/-!
SUPPORT. Every operation of Machine/Cores.lean carries the queue and soundness through.
-/
namespace Sys2Proof
namespace Laws
open Machine

variable {x : Carry}

@[simp] theorem kept_Core_latch (k : Core) (n : ℕ) (hk : CoreK x k) : CoreK x (Core.latch k n) := by simp (maxDischargeDepth := 9) [Core.latch, *]
@[simp] theorem kept_Core_snapshot (k : Core) (timeUp : Bool) (hk : CoreK x k) : CoreK x (Core.snapshot k timeUp) := by simp (maxDischargeDepth := 9) [Core.snapshot, *]
@[simp] theorem kept_Core_permit (k : Core) (cls : BitVec 3) (a : Answer) (hk : CoreK x k) : CoreK x (Core.permit k cls a) := by simp (maxDischargeDepth := 9) [Core.permit, *]
@[simp] theorem kept_Core_emptyStack (k : Core) (hk : CoreK x k) : CoreK x (Core.emptyStack k) := by simp (maxDischargeDepth := 9) [Core.emptyStack, *]
@[simp] theorem kept_Core_startTask (k : Core) (entry : Word) (hk : CoreK x k) : CoreK x (Core.startTask k entry) := by simp (maxDischargeDepth := 9) [Core.startTask, *]
@[simp] theorem kept_Core_stepEnd (k : Core) (hk : CoreK x k) : CoreK x (Core.stepEnd k) := by
  unfold Core.stepEnd
  (repeat' split) <;> simp (maxDischargeDepth := 9) [*]
@[simp] theorem kept_Core_idle (k : Core) (hk : CoreK x k) : CoreK x (Core.idle k) := by simp (maxDischargeDepth := 9) [Core.idle, *]
@[simp] theorem kept_Core_restart (k : Core) (hk : CoreK x k) : CoreK x (Core.restart k) := by simp (maxDischargeDepth := 9) [Core.restart, *]
@[simp] theorem kept_Core_cold (k : Core) (hk : CoreK x k) : CoreK x (Core.cold k) := by simp (maxDischargeDepth := 9) [Core.cold, *]
@[simp] theorem kept_Core_freeze (k : Core) (hk : CoreK x k) : CoreK x (Core.freeze k) := by simp (maxDischargeDepth := 9) [Core.freeze, *]
@[simp] theorem kept_Core_thaw (k : Core) (hk : CoreK x k) : CoreK x (Core.thaw k) := by simp (maxDischargeDepth := 9) [Core.thaw, *]
@[simp] theorem kept_Core_trap (k : Core) (t : Trap) (words : ℕ) (hk : CoreK x k) : CoreK x (Core.trap k t words) := by simp (maxDischargeDepth := 9) [Core.trap, *]
@[simp] theorem kept_coreSide (k : Core) (a : ℕ) (hk : CoreK x k) : CoreK x (coreSide k a) := by
  unfold coreSide
  (repeat' split) <;> simp (maxDischargeDepth := 9) [*]
@[simp] theorem kept_corePut (k : Core) (a : ℕ) (v : Word) (hk : CoreK x k) : CoreK x (corePut k a v) := by
  unfold corePut
  (repeat' split) <;> simp (maxDischargeDepth := 9) [*]

end Laws
end Sys2Proof
end

