-- ==== Sys2Proof/Laws/KeptWake.lean ====
section
/-!
SUPPORT. Every operation of Machine/Wake.lean carries the queue and soundness through.
-/
namespace Sys2Proof
namespace Laws
open Machine

variable {x : Carry}

@[simp] theorem kept_abandonEntry (v : BitVec 12) (s : State) (hs : Kept x s) : Kept x (abandonEntry v s) := by simp (maxDischargeDepth := 9) [abandonEntry, *]
@[simp] theorem kept_wakeAsk (n : ℕ) (s : State) (hs : Kept x s) : Kept x (wakeAsk n s) := by simp (maxDischargeDepth := 9) [wakeAsk, *]
@[simp] theorem kept_wakeFrom (t : Sleep) (n : ℕ) (s : State) (hs : Kept x s) : Kept x (wakeFrom t n s) := by simp (maxDischargeDepth := 9) [wakeFrom, *]
@[simp] theorem kept_fireStarting (n : ℕ) (s : State) (hs : Kept x s) : Kept x (fireStarting n s) := by simp (maxDischargeDepth := 9) [fireStarting, *]
@[simp] theorem kept_fire (n : ℕ) (s : State) (hs : Kept x s) : Kept x (fire n s) := by
  unfold fire
  (repeat' split) <;> simp (maxDischargeDepth := 9) [*]
@[simp] theorem kept_execWakeLandEdge (land : Bool) (s : State) (hs : Kept x s) : KeptO x (execWakeLandEdge land s) := by simp (maxDischargeDepth := 9) [execWakeLandEdge, *]
@[simp] theorem kept_execPortActivityDetect (p : PortId) (s : State) (hs : Kept x s) : KeptO x (execPortActivityDetect p s) := by simp (maxDischargeDepth := 9) [execPortActivityDetect, *]
@[simp] theorem kept_slpCapture (s : State) (hs : Kept x s) : Kept x (slpCapture s) := by simp (maxDischargeDepth := 9) [slpCapture, *]
@[simp] theorem kept_powerSide (a : ℕ) (s : State) (hs : Kept x s) : Kept x (powerSide a s) := by simp (maxDischargeDepth := 9) [powerSide, *]
@[simp] theorem kept_powerPut (a : ℕ) (v : Word) (s : State) (hs : Kept x s) : Kept x (powerPut a v s) := by simp (maxDischargeDepth := 9) [powerPut, *]

end Laws
end Sys2Proof
end

