-- ==== Sys2Proof/Laws/KeptDue.lean ====
section
/-!
SUPPORT. Every operation of Machine/Due.lean carries the queue and soundness through.
-/
namespace Sys2Proof
namespace Laws
open Machine

variable {x : Carry}

@[simp] theorem kept_addRecord (r : ContractRec) (c : CourseEngine) (hc : CrsK x c) : CrsK x (addRecord r c) := by
  unfold addRecord
  split
  · simp [*]
  · simp only [crsK_mk]
    intro i; simp; omega
@[simp] theorem kept_skipOccurrence (o : Occurrence) (c : CourseEngine) (hc : CrsK x c) : CrsK x (skipOccurrence o c) := by simp (maxDischargeDepth := 9) [skipOccurrence, *]
@[simp] theorem kept_addDue (n : BitVec 6) (us : BitVec 10) (gasp : Bool) (c : CourseEngine) (hc : CrsK x c) : CrsK x (addDue n us gasp c) := by
  unfold addDue
  (repeat' split) <;> simp (maxDischargeDepth := 9) [*]
@[simp] theorem kept_dueAsleep (n : BitVec 6) (us : BitVec 10) (s : State) (hs : Kept x s) : Kept x (dueAsleep n us s) := by simp (maxDischargeDepth := 9) [dueAsleep, *]
@[simp] theorem kept_fallDue (n : BitVec 6) (us : BitVec 10) (s : State) (hs : Kept x s) : Kept x (fallDue n us s) := by
  unfold fallDue
  (repeat' split) <;> simp (maxDischargeDepth := 9) [*]
@[simp] theorem kept_lineEdge (line : ℕ) (rise : Bool) (s : State) (hs : Kept x s) : Kept x (lineEdge line rise s) := by
  unfold lineEdge
  exact kept_foldl (fun s a h => kept_fallDue _ _ _ h) _ hs

end Laws
end Sys2Proof
end

