-- ==== Sys2Proof/Laws/KeptSecurity.lean ====
section
/-!
SUPPORT. Every operation of Machine/Security.lean carries the queue and soundness through.
-/
namespace Sys2Proof
namespace Laws
open Machine

variable {x : Carry}

@[simp] theorem kept_floorCmd (v : Word) (s : State) (hs : Kept x s) : Kept x (floorCmd v s) := by
  unfold floorCmd
  (repeat' split) <;> simp (maxDischargeDepth := 9) [*]
@[simp] theorem kept_execFloorRaise (a0 : Who) (v : BitVec 16) (s : State) (hs : Kept x s) : KeptO x (execFloorRaise a0 v s) := by simp (maxDischargeDepth := 9) [execFloorRaise, *]
@[simp] theorem kept_execFloorProgramEnd (s : State) (hs : Kept x s) : KeptO x (execFloorProgramEnd s) := by
  unfold execFloorProgramEnd
  (repeat' split) <;> simp (maxDischargeDepth := 9) [*]
@[simp] theorem kept_jobStart (c : CoreId) (v : Word) (s : State) (hs : Kept x s) : Kept x (jobStart c v s) := by simp (maxDischargeDepth := 9) [jobStart, *]
@[simp] theorem kept_cryOpWrite (c : CoreId) (v : Word) (s : State) (hs : Kept x s) : Kept x (cryOpWrite c v s) := by simp (maxDischargeDepth := 9) [cryOpWrite, *]
@[simp] theorem kept_execCryptoJobStart (c : CoreId) (v : BitVec 16) (s : State) (hs : Kept x s) : KeptO x (execCryptoJobStart c v s) := by simp (maxDischargeDepth := 9) [execCryptoJobStart, *]
@[simp] theorem kept_coreJobEnd (c : CoreId) (s : State) (hs : Kept x s) : Kept x (coreJobEnd c s) := by
  unfold coreJobEnd
  split
  · dsimp only
    split <;> simp (maxDischargeDepth := 12) [*]
  · exact hs
@[simp] theorem kept_execRngRead (s : State) (hs : Kept x s) : KeptO x (execRngRead s) := by simp (maxDischargeDepth := 9) [execRngRead, *]
@[simp] theorem kept_execRngHealthFail (s : State) (hs : Kept x s) : KeptO x (execRngHealthFail s) := by simp (maxDischargeDepth := 9) [execRngHealthFail, *]
@[simp] theorem kept_rngStatWrite (v : Word) (s : State) (hs : Kept x s) : Kept x (rngStatWrite v s) := by simp (maxDischargeDepth := 9) [rngStatWrite, *]
@[simp] theorem kept_execRngRestart (a0 : Who) (s : State) (hs : Kept x s) : KeptO x (execRngRestart a0 s) := by simp (maxDischargeDepth := 9) [execRngRestart, *]
@[simp] theorem kept_execRngRefillEnd (w : BitVec 16) (s : State) (hs : Kept x s) : KeptO x (execRngRefillEnd w s) := by simp (maxDischargeDepth := 9) [execRngRefillEnd, *]
@[simp] theorem kept_fcntCapture (c : CoreId) (s : State) (hs : Kept x s) : Kept x (fcntCapture c s) := by simp (maxDischargeDepth := 9) [fcntCapture, *]
@[simp] theorem kept_execFetchCountCapture (c : CoreId) (s : State) (hs : Kept x s) : KeptO x (execFetchCountCapture c s) := by simp (maxDischargeDepth := 9) [execFetchCountCapture, *]
@[simp] theorem kept_secSide (a : ℕ) (s : State) (hs : Kept x s) : Kept x (secSide a s) := by simp (maxDischargeDepth := 9) [secSide, *]
@[simp] theorem kept_jobPut (c : CoreId) (k : ℕ) (v : Word) (s : State) (hs : Kept x s) : Kept x (jobPut c k v s) := by simp (maxDischargeDepth := 9) [jobPut, *]
@[simp] theorem kept_secPut (a : ℕ) (v : Word) (s : State) (hs : Kept x s) : Kept x (secPut a v s) := by simp (maxDischargeDepth := 9) [secPut, *]

end Laws
end Sys2Proof
end

