-- ==== Sys2Proof/Laws/KeptVault.lean ====
section
/-!
SUPPORT. Every operation of Machine/Vault.lean carries the queue and soundness through.
-/
namespace Sys2Proof
namespace Laws
open Machine

variable {x : Carry}

@[simp] theorem kept_tableDirty (v : Vault) (hv : VltK x v) : VltK x (tableDirty v) := by
  unfold tableDirty
  (repeat' split) <;> simp (maxDischargeDepth := 9) [*]
@[simp] theorem kept_vAccept (type : Byte) (stream : BitVec 4) (flags : Byte) (body : List Byte) (copying : Bool) (unsealed : Bool) (s : State) (hs : Kept x s) : Kept x (vAccept type stream flags body copying unsealed s) := by simp (maxDischargeDepth := 9) [vAccept, *]
@[simp] theorem kept_vPatch (seq : BitVec 32) (off : ℕ) (l : List Byte) (v : Vault) (hv : VltK x v) : VltK x (vPatch seq off l v) := by simp (maxDischargeDepth := 9) [vPatch, *]
@[simp] theorem kept_addGap (cause : GapCause) (stream : BitVec 4) (s : State) (hs : Kept x s) : Kept x (addGap cause stream s) := by simp (maxDischargeDepth := 9) [addGap, *]
@[simp] theorem kept_writeGap (s : State) (hs : Kept x s) : Kept x (writeGap s) := by
  unfold writeGap
  (repeat' split) <;> simp (maxDischargeDepth := 9) [*]
@[simp] theorem kept_shedOffer (cause : GapCause) (stream : BitVec 4) (s : State) (hs : Kept x s) : Kept x (shedOffer cause stream s) := by simp (maxDischargeDepth := 9) [shedOffer, *]
@[simp] theorem kept_overload (type : Byte) (stream : BitVec 4) (flags : Byte) (room : ℕ) (body : List Byte) (copying : Bool) (s : State) (hs : Kept x s) : Kept x (overload type stream flags room body copying s).2 := by
  simp only [overload, keptO_next]
  (repeat' split) <;> simp (maxDischargeDepth := 9) [*]
@[simp] theorem kept_offer (core : Bool) (type : Byte) (stream : BitVec 4) (flags : Byte) (bad : BitVec 4) (room : ℕ) (body : List Byte) (copying : Bool) (s : State) (hs : Kept x s) : Kept x (offer core type stream flags bad room body copying s).2 := by
  simp only [offer, keptO_next]
  (repeat' split) <;> simp (maxDischargeDepth := 9) [*]
@[simp] theorem kept_offerEngine (type : Byte) (body : List Byte) (s : State) (hs : Kept x s) : Kept x (offerEngine type body s) := by simp (maxDischargeDepth := 9) [offerEngine, *]
@[simp] theorem kept_offerCan (f : CanFrame) (s : State) (hs : Kept x s) : Kept x (offerCan f s) := by simp (maxDischargeDepth := 9) [offerCan, *]
@[simp] theorem kept_offerTrig (n : ℕ) (s : State) (hs : Kept x s) : Kept x (offerTrig n s) := by simp (maxDischargeDepth := 9) [offerTrig, *]
@[simp] theorem kept_offerChain (s : State) (hs : Kept x s) : Kept x (offerChain s) := by
  simp only [offerChain, keptO_next]
  (repeat' split) <;> simp (maxDischargeDepth := 9) [*]
@[simp] theorem kept_offerGasp (s : State) (hs : Kept x s) : Kept x (offerGasp s) := by simp (maxDischargeDepth := 9) [offerGasp, *]
@[simp] theorem kept_vaultMacEnd (s : State) (hs : Kept x s) : Kept x (vaultMacEnd s) := by
  simp only [vaultMacEnd, keptO_next]
  (repeat' split) <;> simp (maxDischargeDepth := 9) [*]
@[simp] theorem kept_gaspAdvance (s : State) (hs : Kept x s) : Kept x (gaspAdvance s) := by
  unfold gaspAdvance
  (repeat' split) <;> simp (maxDischargeDepth := 9) [*]
@[simp] theorem kept_tailOn (v : Vault) (hv : VltK x v) : VltK x (tailOn v) := by
  simp only [tailOn, keptO_next]
  (repeat' split) <;> simp (maxDischargeDepth := 9) [*]
@[simp] theorem kept_startProg (n : NextProg) (s : State) (hs : Kept x s) : Kept x (startProg n s) := by
  unfold startProg
  dsimp only
  split <;> simp (maxDischargeDepth := 9) [*]
@[simp] theorem kept_execVaultPageProgramStart (s : State) (hs : Kept x s) : KeptO x (execVaultPageProgramStart s) := by
  simp only [execVaultPageProgramStart, keptO_next]
  (repeat' split) <;> simp (maxDischargeDepth := 9) [*]
@[simp] theorem kept_vaultAnswer (k : BitVec 3) (r : Requester) (a : Answer) (s : State) (hs : Kept x s) : Kept x (vaultAnswer k r a s) := by
  unfold vaultAnswer
  (repeat' split) <;> simp (maxDischargeDepth := 9) [*]
@[simp] theorem kept_vaultDropLeave (s : State) (hs : Kept x s) : Kept x (vaultDropLeave s) := by
  unfold vaultDropLeave
  (repeat' split) <;> simp (maxDischargeDepth := 9) [*]
@[simp] theorem kept_vaultWindowClose (s : State) (hs : Kept x s) : Kept x (vaultWindowClose s) := by simp (maxDischargeDepth := 9) [vaultWindowClose, *]
@[simp] theorem kept_execVaultFlushAgeExpiry (s : State) (hs : Kept x s) : KeptO x (execVaultFlushAgeExpiry s) := by
  unfold execVaultFlushAgeExpiry
  (repeat' split) <;> simp (maxDischargeDepth := 9) [*]
@[simp] theorem kept_vaultFault (f : VaultFault) (v : Vault) (hv : VltK x v) : VltK x (vaultFault f v) := by
  unfold vaultFault
  (repeat' split) <;> simp (maxDischargeDepth := 9) [*]
@[simp] theorem kept_wearCheck (s : State) (hs : Kept x s) : Kept x (wearCheck s) := by simp (maxDischargeDepth := 9) [wearCheck, *]
@[simp] theorem kept_readOnlyCheck (s : State) (hs : Kept x s) : Kept x (readOnlyCheck s) := by simp (maxDischargeDepth := 9) [readOnlyCheck, *]
@[simp] theorem kept_losePage (g : Prog) (p : BitVec 14) (spare : Option ℕ) (s : State) (hs : Kept x s) : Kept x (losePage g p spare s) := by simp (maxDischargeDepth := 9) [losePage, *]
@[simp] theorem kept_progFailed (g : Prog) (s : State) (hs : Kept x s) : Kept x (progFailed g s) := by
  simp only [progFailed, keptO_next]
  (repeat' split) <;> simp (maxDischargeDepth := 9) [*]
@[simp] theorem kept_chainDue (s : State) (hs : Kept x s) : Kept x (chainDue s) := by simp (maxDischargeDepth := 9) [chainDue, *]
@[simp] theorem kept_progVerified (g : Prog) (s : State) (hs : Kept x s) : Kept x (progVerified g s) := by
  unfold progVerified
  (repeat' split) <;> simp (maxDischargeDepth := 9) [*]
@[simp] theorem kept_retryCount (attempts : BitVec 2) (ok : Bool) (v : Vault) (hv : VltK x v) : VltK x (retryCount attempts ok v) := by
  unfold retryCount
  (repeat' split) <;> simp (maxDischargeDepth := 9) [*]
@[simp] theorem kept_execVaultProgramEnd (id : ℕ) (attempts : BitVec 2) (ok : Bool) (s : State) (hs : Kept x s) : KeptO x (execVaultProgramEnd id attempts ok s) := by
  unfold execVaultProgramEnd
  (repeat' split) <;> simp (maxDischargeDepth := 9) [*]
@[simp] theorem kept_execVaultGapRecord (s : State) (hs : Kept x s) : KeptO x (execVaultGapRecord s) := by simp (maxDischargeDepth := 9) [execVaultGapRecord, *]
@[simp] theorem kept_vaultRelease (n : BitVec 14) (s : State) (hs : Kept x s) : Kept x (vaultRelease n s) := by simp (maxDischargeDepth := 9) [vaultRelease, *]
@[simp] theorem kept_execVaultRelease (a0 : Who) (v : BitVec 16) (s : State) (hs : Kept x s) : KeptO x (execVaultRelease a0 v s) := by simp (maxDischargeDepth := 9) [execVaultRelease, *]
@[simp] theorem kept_Vault_putSet (v : Vault) (c : CoreId) (a2 : AppendSet) (hv : VltK x v) : VltK x (Vault.putSet v c a2) := by
  unfold Vault.putSet
  (repeat' split) <;> simp (maxDischargeDepth := 9) [*]
@[simp] theorem kept_append (c : CoreId) (len : ℕ) (s : State) (hs : Kept x s) : Kept x (append c len s) := by simp (maxDischargeDepth := 9) [append, *]
@[simp] theorem kept_execVaultAppend (c : CoreId) (len : BitVec 16) (s : State) (hs : Kept x s) : KeptO x (execVaultAppend c len s) := by simp (maxDischargeDepth := 9) [execVaultAppend, *]
@[simp] theorem kept_execVaultAppendCopyDone (c : CoreId) (s : State) (hs : Kept x s) : KeptO x (execVaultAppendCopyDone c s) := by simp (maxDischargeDepth := 9) [execVaultAppendCopyDone, *]
@[simp] theorem kept_vaultMount (s : State) (hs : Kept x s) : Kept x (vaultMount s) := by simp (maxDischargeDepth := 9) [vaultMount, *]
@[simp] theorem kept_execVaultMountEnd (s : State) (hs : Kept x s) : KeptO x (execVaultMountEnd s) := by simp (maxDischargeDepth := 9) [execVaultMountEnd, *]
@[simp] theorem kept_discardQueue (s : State) (hs : Kept x s) : Kept x (discardQueue s) := by
  simp only [discardQueue, keptO_next]
  (repeat' split) <;> simp (maxDischargeDepth := 9) [*]
@[simp] theorem kept_execDrainBoundExpiry (s : State) (hs : Kept x s) : KeptO x (execDrainBoundExpiry s) := by simp (maxDischargeDepth := 9) [execDrainBoundExpiry, *]
@[simp] theorem kept_Vault_tick (v : Vault) (hv : VltK x v) : VltK x (Vault.tick v) := by simp (maxDischargeDepth := 9) [Vault.tick, *]
@[simp] theorem kept_Vault_cold (v : Vault) (hv : VltK x v) : VltK x (Vault.cold v) := by simp (maxDischargeDepth := 9) [Vault.cold, *]
@[simp] theorem kept_vaultLfPop (s : State) (hs : Kept x s) : Kept x (vaultLfPop s) := by simp (maxDischargeDepth := 9) [vaultLfPop, *]
@[simp] theorem kept_execVaultLateFaultPop (s : State) (hs : Kept x s) : KeptO x (execVaultLateFaultPop s) := by simp (maxDischargeDepth := 9) [execVaultLateFaultPop, *]
@[simp] theorem kept_aseqCapture (c : CoreId) (s : State) (hs : Kept x s) : Kept x (aseqCapture c s) := by simp (maxDischargeDepth := 9) [aseqCapture, *]
@[simp] theorem kept_execVaultAseqCapture (c : CoreId) (s : State) (hs : Kept x s) : KeptO x (execVaultAseqCapture c s) := by simp (maxDischargeDepth := 9) [execVaultAseqCapture, *]
@[simp] theorem kept_vaultSide (a : ℕ) (s : State) (hs : Kept x s) : Kept x (vaultSide a s) := by simp (maxDischargeDepth := 9) [vaultSide, *]
@[simp] theorem kept_appendPut (c : CoreId) (k : ℕ) (v : Word) (s : State) (hs : Kept x s) : Kept x (appendPut c k v s) := by simp (maxDischargeDepth := 9) [appendPut, *]
@[simp] theorem kept_vaultPut (a : ℕ) (v : Word) (s : State) (hs : Kept x s) : Kept x (vaultPut a v s) := by
  unfold vaultPut
  (repeat' split) <;> simp (maxDischargeDepth := 9) [*]

end Laws
end Sys2Proof
end

