-- ==== Sys2Proof/Laws/KeptFabric.lean ====
section
/-!
SUPPORT. Every operation of Machine/Fabric.lean carries the queue and soundness through.
-/
namespace Sys2Proof
namespace Laws
open Machine

variable {x : Carry}

@[simp] theorem kept_viewStep (v : Vector SinkCfg 12) (rise : BitVec 64) (fall : BitVec 64) (k : Core) (hk : CoreK x k) : CoreK x (viewStep v rise fall k) := by
  unfold viewStep
  refine coreK_foldl (fun k n h => ?_) _ hk
  dsimp only
  (repeat' split) <;> simp [h]
@[simp] theorem kept_sinkStep (rise : BitVec 64) (fall : BitVec 64) (line : BitVec 64) (s : State) (hs : Kept x s) : Kept x (sinkStep rise fall line s) := by
  unfold sinkStep
  dsimp only
  have h1 : Kept x { s with coreA := viewStep s.mrt.cfg.viewA rise fall s.coreA, coreB := viewStep s.mrt.cfg.viewB rise fall s.coreB } := by
    simp (maxDischargeDepth := 9) [*]
  have h2 := kept_foldl (f := fun s n => if rise.getLsbD n then lineEdge n true s else if fall.getLsbD n then lineEdge n false s else s)
    (fun s n h => by (repeat' split) <;> simp (maxDischargeDepth := 9) [h]) (List.range 64) h1
  (repeat' split) <;> simp (maxDischargeDepth := 9) [h2]
@[simp] theorem kept_wrCheck (s : State) (hs : Kept x s) : Kept x (wrCheck s) := by
  unfold wrCheck
  (repeat' split) <;> simp (maxDischargeDepth := 9) [*]
@[simp] theorem kept_settleRound (s : State) (hs : Kept x s) : Kept x (settleRound s).1 := by simp (maxDischargeDepth := 9) [settleRound, *]
@[simp] theorem kept_settle (n : ℕ) (s : State) (hs : Kept x s) : Kept x (settle n s) := by
  induction n generalizing s with
  | zero => exact hs
  | succ n ih =>
    unfold settle
    dsimp only
    split
    · exact kept_settleRound s hs
    · exact ih _ (kept_settleRound s hs)

@[simp] theorem kept_emit (ps : List (BitVec 8)) (s : State) (hs : Kept x s) : Kept x (emit ps s) := by simp (maxDischargeDepth := 9) [emit, *]
@[simp] theorem kept_quietSettle (n : ℕ) (s : State) (hs : Kept x s) : Kept x (quietSettle n s) := by
  induction n generalizing s with
  | zero => exact hs
  | succ n ih =>
    unfold quietSettle
    dsimp only
    split
    · exact hs
    · exact ih _ (by simp [*])

@[simp] theorem kept_mortarStart (s : State) (hs : Kept x s) : Kept x (mortarStart s) := by simp (maxDischargeDepth := 9) [mortarStart, *]
@[simp] theorem kept_mortarLoad (cfg : MortarCfg) (s : State) (hs : Kept x s) : Kept x (mortarLoad cfg s) := by simp (maxDischargeDepth := 9) [mortarLoad, *]

end Laws
end Sys2Proof
end

