-- ==== Sys2Proof/Laws/KeptMortar.lean ====
section
/-!
SUPPORT. Every operation of Machine/Mortar.lean carries the queue and soundness through.
-/
namespace Sys2Proof
namespace Laws
open Machine

variable {x : Carry}

@[simp] theorem kept_execSourcePulseEnd (src : BitVec 8) (s : State) (hs : Kept x s) : KeptO x (execSourcePulseEnd src s) := by simp (maxDischargeDepth := 9) [execSourcePulseEnd, *]
@[simp] theorem kept_execCellDelayExpiry (n : BitVec 5) (s : State) (hs : Kept x s) : KeptO x (execCellDelayExpiry n s) := by
  unfold execCellDelayExpiry
  (repeat' split) <;> simp (maxDischargeDepth := 9) [*]
@[simp] theorem kept_execCellPulseEnd (n : BitVec 5) (s : State) (hs : Kept x s) : KeptO x (execCellPulseEnd n s) := by simp (maxDischargeDepth := 9) [execCellPulseEnd, *]
@[simp] theorem kept_latchClear (k : ℕ) (v : Word) (s : State) (hs : Kept x s) : Kept x (latchClear k v s) := by simp (maxDischargeDepth := 9) [latchClear, *]
@[simp] theorem kept_softPut (k : ℕ) (v : Word) (s : State) (hs : Kept x s) : Kept x (softPut k v s) := by simp (maxDischargeDepth := 9) [softPut, *]
@[simp] theorem kept_execCellLatchClear (a0 : Who) (a : BitVec 12) (v : BitVec 16) (s : State) (hs : Kept x s) : KeptO x (execCellLatchClear a0 a v s) := by simp (maxDischargeDepth := 9) [execCellLatchClear, *]
@[simp] theorem kept_execMortarSoftWrite (a0 : Who) (a : BitVec 12) (v : BitVec 16) (s : State) (hs : Kept x s) : KeptO x (execMortarSoftWrite a0 a v s) := by simp (maxDischargeDepth := 9) [execMortarSoftWrite, *]
@[simp] theorem kept_mortarPut (a : ℕ) (v : Word) (s : State) (hs : Kept x s) : Kept x (mortarPut a v s) := by simp (maxDischargeDepth := 9) [mortarPut, *]

end Laws
end Sys2Proof
end

