-- ==== Sys2Proof/Laws/KeptAshlar.lean ====
section
/-!
SUPPORT. Every operation of Machine/Ashlar.lean carries the queue and soundness through.
-/
namespace Sys2Proof
namespace Laws
open Machine

variable {x : Carry}

@[simp] theorem kept_fenceBank (n : ℕ) (cause : BitVec 2) (s : State) (hs : Kept x s) : Kept x (fenceBank n cause s) := by simp (maxDischargeDepth := 9) [fenceBank, *]
@[simp] theorem kept_ashSearch (q : AshQuery) (banks : State → BitVec 16) (s : State) (hs : Kept x s) : Kept x (ashSearch q banks s).2.2.2 := by
  unfold ashSearch
  (repeat' split) <;> (try dsimp only) <;> (repeat' split) <;> simp [*]
@[simp] theorem kept_State_putAsh (s : State) (c : CoreId) (k : AshSet) (hs : Kept x s) : Kept x (State.putAsh s c k) := by
  unfold State.putAsh
  (repeat' split) <;> simp (maxDischargeDepth := 9) [*]
@[simp] theorem kept_ashAbandon (c : CoreId) (s : State) (hs : Kept x s) : Kept x (ashAbandon c s) := by
  simp only [ashAbandon, keptO_next]
  (repeat' split) <;> simp (maxDischargeDepth := 9) [*]
@[simp] theorem kept_ashGo (c : CoreId) (s : State) (hs : Kept x s) : Kept x (ashGo c s) := by
  simp only [ashGo, keptO_next]
  (repeat' split) <;> simp (maxDischargeDepth := 9) [*]
@[simp] theorem kept_ashStep (c : CoreId) (s : State) (hs : Kept x s) : Kept x (ashStep c s) := by
  simp only [ashStep, keptO_next]
  (repeat' split) <;> simp (maxDischargeDepth := 9) [*]
@[simp] theorem kept_ashCommit (c : CoreId) (s : State) (hs : Kept x s) : Kept x (ashCommit c s) := by
  unfold ashCommit
  (repeat' split) <;> simp (maxDischargeDepth := 9) [*]
@[simp] theorem kept_execAshlarGo (c : CoreId) (s : State) (hs : Kept x s) : KeptO x (execAshlarGo c s) := by simp (maxDischargeDepth := 9) [execAshlarGo, *]
@[simp] theorem kept_execAshlarStepWrite (c : CoreId) (s : State) (hs : Kept x s) : KeptO x (execAshlarStepWrite c s) := by simp (maxDischargeDepth := 9) [execAshlarStepWrite, *]
@[simp] theorem kept_execAshlarCommitWrite (c : CoreId) (s : State) (hs : Kept x s) : KeptO x (execAshlarCommitWrite c s) := by simp (maxDischargeDepth := 9) [execAshlarCommitWrite, *]
@[simp] theorem kept_execAshlarCommitPerform (c : CoreId) (s : State) (hs : Kept x s) : KeptO x (execAshlarCommitPerform c s) := by
  unfold execAshlarCommitPerform
  (repeat' split) <;> simp (maxDischargeDepth := 9) [*]
@[simp] theorem kept_ashFirst (m : Option (ℕ × BitVec 8)) (k : AshSet) (s : State) (hs : Kept x s) : Kept x (ashFirst m k s).2 := by
  unfold ashFirst
  (repeat' split) <;> simp (maxDischargeDepth := 9) [*]
@[simp] theorem kept_ashLand (c : CoreId) (q : AshQuery) (s : State) (hs : Kept x s) : Kept x (ashLand c q s) := by simp (maxDischargeDepth := 9) [ashLand, *]
@[simp] theorem kept_execAshlarSearchLand (c : CoreId) (s : State) (hs : Kept x s) : KeptO x (execAshlarSearchLand c s) := by
  simp only [execAshlarSearchLand, keptO_next]
  (repeat' split) <;> simp (maxDischargeDepth := 9) [*]
@[simp] theorem kept_stepTo (l : List (BitVec 10)) (k : Bool) (s : State) (hs : Kept x s) : Kept x (stepTo l k s).2.2 := by
  induction l generalizing k s with
  | nil => exact hs
  | cons n l ih =>
    unfold stepTo
    (repeat' split)
    · exact ih _ _ hs
    · exact hs
    · exact ih _ _ (by simp [*])

@[simp] theorem kept_execAshlarStepLand (c : CoreId) (s : State) (hs : Kept x s) : KeptO x (execAshlarStepLand c s) := by
  simp only [execAshlarStepLand, keptO_next]
  have h := kept_stepTo (s.ash.set c).ahead false s hs
  split
  · split <;> rename_i e <;> rw [e] at h <;> simp (maxDischargeDepth := 9) [h]
  · exact hs
@[simp] theorem kept_ashAnswer (c : CoreId) (a : Answer) (s : State) (hs : Kept x s) : Kept x (ashAnswer c a s) := by
  simp only [ashAnswer, keptO_next]
  (repeat' split) <;> simp (maxDischargeDepth := 9) [*]
@[simp] theorem kept_slotRead (n : ℕ) (o : ℕ) (s : State) (hs : Kept x s) : Kept x (slotRead n o s).2 := by simp (maxDischargeDepth := 9) [slotRead, *]
@[simp] theorem kept_stageWrite (c : CoreId) (n : ℕ) (o : ℕ) (l : List Byte) (s : State) (hs : Kept x s) : Kept x (stageWrite c n o l s) := by simp (maxDischargeDepth := 9) [stageWrite, *]
@[simp] theorem kept_execAshlarWindowWrite (c : CoreId) (a : BitVec 16) (bytes : List Byte) (s : State) (hs : Kept x s) : KeptO x (execAshlarWindowWrite c a bytes s) := by simp (maxDischargeDepth := 9) [execAshlarWindowWrite, *]
@[simp] theorem kept_testBank (fail : BitVec 16) (s : State) (b : ℕ) (hs : Kept x s) : Kept x (testBank fail s b) := by
  unfold testBank
  (repeat' split) <;> simp (maxDischargeDepth := 9) [*]
@[simp] theorem kept_execAshlarSelfTestEnd (fail : BitVec 16) (s : State) (hs : Kept x s) : KeptO x (execAshlarSelfTestEnd fail s) := by
  simp only [execAshlarSelfTestEnd, keptO_next]
  have h := kept_foldl (fun s n h => kept_testBank fail s n h) (List.range 16) hs
  split
  · simp [h]
  · exact hs
@[simp] theorem kept_execAshlarReloadEnd (s : State) (hs : Kept x s) : KeptO x (execAshlarReloadEnd s) := by simp (maxDischargeDepth := 9) [execAshlarReloadEnd, *]
@[simp] theorem kept_execAshlarScrubRead (s : State) (hs : Kept x s) : KeptO x (execAshlarScrubRead s) := by
  unfold execAshlarScrubRead
  (repeat' split) <;> simp (maxDischargeDepth := 9) [*]
@[simp] theorem kept_ashSide (a : ℕ) (s : State) (hs : Kept x s) : Kept x (ashSide a s) := by simp (maxDischargeDepth := 9) [ashSide, *]
@[simp] theorem kept_ashSetPut (c : CoreId) (o : ℕ) (v : Word) (s : State) (hs : Kept x s) : Kept x (ashSetPut c o v s) := by simp (maxDischargeDepth := 9) [ashSetPut, *]
@[simp] theorem kept_ashPut (a : ℕ) (v : Word) (s : State) (hs : Kept x s) : Kept x (ashPut a v s) := by
  unfold ashPut
  (repeat' split) <;> simp (maxDischargeDepth := 9) [*]

end Laws
end Sys2Proof
end

