-- ==== Sys2Proof/Laws/KeptEnergy.lean ====
section
/-!
SUPPORT. Every operation of Machine/Energy.lean carries the queue and soundness through.
-/
namespace Sys2Proof
namespace Laws
open Machine

variable {x : Carry}

@[simp] theorem kept_execSourceQualify (src : Source) (s : State) (hs : Kept x s) : KeptO x (execSourceQualify src s) := by simp (maxDischargeDepth := 9) [execSourceQualify, *]
@[simp] theorem kept_execSourceLoss (src : Source) (s : State) (hs : Kept x s) : KeptO x (execSourceLoss src s) := by simp (maxDischargeDepth := 9) [execSourceLoss, *]
@[simp] theorem kept_execSelectorHoldEnd (s : State) (hs : Kept x s) : KeptO x (execSelectorHoldEnd s) := by simp (maxDischargeDepth := 9) [execSelectorHoldEnd, *]
@[simp] theorem kept_execFlybackStart (s : State) (hs : Kept x s) : KeptO x (execFlybackStart s) := by simp (maxDischargeDepth := 9) [execFlybackStart, *]
@[simp] theorem kept_execFlybackStop (s : State) (hs : Kept x s) : KeptO x (execFlybackStop s) := by simp (maxDischargeDepth := 9) [execFlybackStop, *]
@[simp] theorem kept_execFlybackSwitchingStart (s : State) (hs : Kept x s) : KeptO x (execFlybackSwitchingStart s) := by simp (maxDischargeDepth := 9) [execFlybackSwitchingStart, *]
@[simp] theorem kept_execFlybackVddpLow (s : State) (hs : Kept x s) : KeptO x (execFlybackVddpLow s) := by simp (maxDischargeDepth := 9) [execFlybackVddpLow, *]
@[simp] theorem kept_execFlybackFault (cause : FlybackCause) (s : State) (hs : Kept x s) : KeptO x (execFlybackFault cause s) := by
  unfold execFlybackFault
  (repeat' split) <;> simp (maxDischargeDepth := 9) [*]
@[simp] theorem kept_execFlybackRestart (cooled : Bool) (s : State) (hs : Kept x s) : KeptO x (execFlybackRestart cooled s) := by
  unfold execFlybackRestart
  (repeat' split) <;> simp (maxDischargeDepth := 9) [*]
@[simp] theorem kept_execXCapDischarge (s : State) (hs : Kept x s) : KeptO x (execXCapDischarge s) := by simp (maxDischargeDepth := 9) [execXCapDischarge, *]
@[simp] theorem kept_execVehOvervoltage (above : Bool) (s : State) (hs : Kept x s) : KeptO x (execVehOvervoltage above s) := by simp (maxDischargeDepth := 9) [execVehOvervoltage, *]
@[simp] theorem kept_execHvsecOvervoltage (above : Bool) (s : State) (hs : Kept x s) : KeptO x (execHvsecOvervoltage above s) := by simp (maxDischargeDepth := 9) [execHvsecOvervoltage, *]
@[simp] theorem kept_execEntryBuckMargin (met : Bool) (s : State) (hs : Kept x s) : KeptO x (execEntryBuckMargin met s) := by simp (maxDischargeDepth := 9) [execEntryBuckMargin, *]
@[simp] theorem kept_execHarvTrackingSample (voc : BitVec 16) (store : BitVec 16) (s : State) (hs : Kept x s) : KeptO x (execHarvTrackingSample voc store s) := by simp (maxDischargeDepth := 9) [execHarvTrackingSample, *]
@[simp] theorem kept_execPrechargeEnd (s : State) (hs : Kept x s) : KeptO x (execPrechargeEnd s) := by simp (maxDischargeDepth := 9) [execPrechargeEnd, *]
@[simp] theorem kept_execColdStarterStart (s : State) (hs : Kept x s) : KeptO x (execColdStarterStart s) := by simp (maxDischargeDepth := 9) [execColdStarterStart, *]
@[simp] theorem kept_execColdStarterHandover (s : State) (hs : Kept x s) : KeptO x (execColdStarterHandover s) := by simp (maxDischargeDepth := 9) [execColdStarterHandover, *]
@[simp] theorem kept_execStoreTargetReached (reached : Bool) (s : State) (hs : Kept x s) : KeptO x (execStoreTargetReached reached s) := by simp (maxDischargeDepth := 9) [execStoreTargetReached, *]
@[simp] theorem kept_execStoreOvervoltage (above : Bool) (s : State) (hs : Kept x s) : KeptO x (execStoreOvervoltage above s) := by simp (maxDischargeDepth := 9) [execStoreOvervoltage, *]
@[simp] theorem kept_execDerzorOvertemp (above : Bool) (s : State) (hs : Kept x s) : KeptO x (execDerzorOvertemp above s) := by simp (maxDischargeDepth := 9) [execDerzorOvertemp, *]
@[simp] theorem kept_execIslandSupplySwitch (toCell : Bool) (s : State) (hs : Kept x s) : KeptO x (execIslandSupplySwitch toCell s) := by simp (maxDischargeDepth := 9) [execIslandSupplySwitch, *]
@[simp] theorem kept_execCellLow (s : State) (hs : Kept x s) : KeptO x (execCellLow s) := by simp (maxDischargeDepth := 9) [execCellLow, *]
@[simp] theorem kept_execCellPresent (s : State) (hs : Kept x s) : KeptO x (execCellPresent s) := by simp (maxDischargeDepth := 9) [execCellPresent, *]
@[simp] theorem kept_execCellChargeChange (on : Bool) (s : State) (hs : Kept x s) : KeptO x (execCellChargeChange on s) := by simp (maxDischargeDepth := 9) [execCellChargeChange, *]
@[simp] theorem kept_execCellOvervoltage (s : State) (hs : Kept x s) : KeptO x (execCellOvervoltage s) := by simp (maxDischargeDepth := 9) [execCellOvervoltage, *]
@[simp] theorem kept_vout3Apply (m : VoutMode) (s : State) (hs : Kept x s) : Kept x (vout3Apply m s) := by simp (maxDischargeDepth := 9) [vout3Apply, *]
@[simp] theorem kept_execVout3CurrentLimit (s : State) (hs : Kept x s) : KeptO x (execVout3CurrentLimit s) := by simp (maxDischargeDepth := 9) [execVout3CurrentLimit, *]
@[simp] theorem kept_vout3Write (v : Word) (s : State) (hs : Kept x s) : Kept x (vout3Write v s) := by simp (maxDischargeDepth := 9) [vout3Write, *]
@[simp] theorem kept_execVout3ModeWrite (v : BitVec 16) (s : State) (hs : Kept x s) : KeptO x (execVout3ModeWrite v s) := by simp (maxDischargeDepth := 9) [execVout3ModeWrite, *]
@[simp] theorem kept_vout3Wake (s : State) (hs : Kept x s) : Kept x (vout3Wake s) := by simp (maxDischargeDepth := 9) [vout3Wake, *]
@[simp] theorem kept_vout3Sleep (t : Sleep) (s : State) (hs : Kept x s) : Kept x (vout3Sleep t s) := by simp (maxDischargeDepth := 9) [vout3Sleep, *]
@[simp] theorem kept_energySide (a : ℕ) (s : State) (hs : Kept x s) : Kept x (energySide a s) := by simp (maxDischargeDepth := 9) [energySide, *]
@[simp] theorem kept_energyPut (a : ℕ) (v : Word) (s : State) (hs : Kept x s) : Kept x (energyPut a v s) := by simp (maxDischargeDepth := 9) [energyPut, *]

end Laws
end Sys2Proof
end

