-- ==== Sys2Proof/Laws/KeptPane.lean ====
section
/-!
SUPPORT. Every operation of Machine/Pane.lean carries the queue and soundness through.
-/
namespace Sys2Proof
namespace Laws
open Machine

variable {x : Carry}

@[simp] theorem kept_paneFault (cause : BitVec 2) (rail : ℕ) (s : State) (hs : Kept x s) : Kept x (paneFault cause rail s) := by simp (maxDischargeDepth := 9) [paneFault, *]
@[simp] theorem kept_paneUp (s : State) (hs : Kept x s) : Kept x (paneUp s) := by
  unfold paneUp
  (repeat' split) <;> simp (maxDischargeDepth := 9) [*]
@[simp] theorem kept_paneDown (s : State) (hs : Kept x s) : Kept x (paneDown s) := by
  unfold paneDown
  (repeat' split) <;> simp (maxDischargeDepth := 9) [*]
theorem kept_paneCtl (v : Word) (s : State) (hs : Kept x s) : ∀ t, paneCtl v s = some t → Kept x t := by
  simp only [paneCtl, keptO_next]
  (repeat' split) <;> simp (maxDischargeDepth := 9) [*]
@[simp] theorem kept_orReject (a : ℕ) (v : Word) (who : Who) (s : State) (r : Option State) (hs : Kept x s) (hr : ∀ t, r = some t → Kept x t) :
    Kept x (orReject a v who s r) := by
  unfold orReject
  split
  · exact hr _ rfl
  · simp [hs]

@[simp] theorem kept_paneCmd (who : Who) (v : Word) (s : State) (hs : Kept x s) : Kept x (paneCmd who v s) := by
  unfold paneCmd
  split
  · exact kept_orReject _ _ _ _ _ hs (kept_paneCtl _ _ hs)
  · exact hs
@[simp] theorem kept_execPaneUp (who : Who) (s : State) (hs : Kept x s) : KeptO x (execPaneUp who s) := by simp (maxDischargeDepth := 9) [execPaneUp, *]
@[simp] theorem kept_execPaneDown (who : Who) (s : State) (hs : Kept x s) : KeptO x (execPaneDown who s) := by simp (maxDischargeDepth := 9) [execPaneDown, *]
@[simp] theorem kept_execPaneClr (who : Who) (s : State) (hs : Kept x s) : KeptO x (execPaneClr who s) := by simp (maxDischargeDepth := 9) [execPaneClr, *]
@[simp] theorem kept_railJudge (r : ℕ) (rose : Bool) (fell : Bool) (s : State) (hs : Kept x s) : Kept x (railJudge r rose fell s) := by
  simp only [railJudge, keptO_next]
  (repeat' split) <;> simp (maxDischargeDepth := 9) [*]
@[simp] theorem kept_execPaneRailChange (rail : BitVec 3) (good : Bool) (isOff : Bool) (s : State) (hs : Kept x s) : KeptO x (execPaneRailChange rail good isOff s) := by simp (maxDischargeDepth := 9) [execPaneRailChange, *]
@[simp] theorem kept_execPaneRailWindowExpiry (s : State) (hs : Kept x s) : KeptO x (execPaneRailWindowExpiry s) := by
  simp only [execPaneRailWindowExpiry, keptO_next]
  (repeat' split) <;> simp (maxDischargeDepth := 9) [*]
@[simp] theorem kept_paneWindowOpen (s : State) (hs : Kept x s) : Kept x (paneWindowOpen s) := by simp (maxDischargeDepth := 9) [paneWindowOpen, *]
@[simp] theorem kept_paneDropLeave (s : State) (hs : Kept x s) : Kept x (paneDropLeave s) := by
  unfold paneDropLeave
  (repeat' split) <;> simp (maxDischargeDepth := 9) [*]
@[simp] theorem kept_paneSkip (why : BitVec 2) (s : State) (hs : Kept x s) : Kept x (paneSkip why s) := by simp (maxDischargeDepth := 9) [paneSkip, *]
@[simp] theorem kept_paneWindowClose (s : State) (hs : Kept x s) : Kept x (paneWindowClose s) := by simp (maxDischargeDepth := 9) [paneWindowClose, *]
@[simp] theorem kept_execPaneFrameStart (s : State) (hs : Kept x s) : KeptO x (execPaneFrameStart s) := by
  simp only [execPaneFrameStart, keptO_next]
  (repeat' split) <;> simp (maxDischargeDepth := 9) [*]
@[simp] theorem kept_paneAnswer (a : Answer) (s : State) (hs : Kept x s) : Kept x (paneAnswer a s) := by
  unfold paneAnswer
  (repeat' split) <;> simp (maxDischargeDepth := 9) [*]
@[simp] theorem kept_execPaneLineStart (s : State) (hs : Kept x s) : KeptO x (execPaneLineStart s) := by
  simp only [execPaneLineStart, keptO_next]
  (repeat' split) <;> simp (maxDischargeDepth := 9) [*]
@[simp] theorem kept_execPaneFrameEnd (s : State) (hs : Kept x s) : KeptO x (execPaneFrameEnd s) := by
  unfold execPaneFrameEnd
  (repeat' split) <;> simp (maxDischargeDepth := 9) [*]
@[simp] theorem kept_execPaneStale (s : State) (hs : Kept x s) : KeptO x (execPaneStale s) := by simp (maxDischargeDepth := 9) [execPaneStale, *]
theorem kept_ledSet (n : ℕ) (v : Word) (s : State) (hs : Kept x s) : ∀ t, ledSet n v s = some t → Kept x t := by simp (maxDischargeDepth := 9) [ledSet, *]
@[simp] theorem kept_execLedSinkSet (who : Who) (n : BitVec 2) (code : BitVec 8) (s : State) (hs : Kept x s) : KeptO x (execLedSinkSet who n code s) := by
  simp only [execLedSinkSet, keptO_next]
  split
  · exact kept_orReject _ _ _ _ _ hs (kept_ledSet _ _ _ hs)
  · exact hs
@[simp] theorem kept_execLedSinkOutOfRegulation (n : BitVec 2) (s : State) (hs : Kept x s) : KeptO x (execLedSinkOutOfRegulation n s) := by simp (maxDischargeDepth := 9) [execLedSinkOutOfRegulation, *]
@[simp] theorem kept_execLedSinkBackInRegulation (n : BitVec 2) (s : State) (hs : Kept x s) : KeptO x (execLedSinkBackInRegulation n s) := by simp (maxDischargeDepth := 9) [execLedSinkBackInRegulation, *]
@[simp] theorem kept_paneDisch (s : State) (hs : Kept x s) : Kept x (paneDisch s) := by simp (maxDischargeDepth := 9) [paneDisch, *]
@[simp] theorem kept_paneSide (a : ℕ) (s : State) (hs : Kept x s) : Kept x (paneSide a s) := by simp (maxDischargeDepth := 9) [paneSide, *]
theorem kept_panePut (a : ℕ) (v : Word) (s : State) (hs : Kept x s) : ∀ t, panePut a v s = some t → Kept x t := fun t ht => by
  simp only [panePut] at ht
  (repeat' split at ht)
  all_goals first
    | exact kept_paneCtl _ _ hs _ ht
    | exact kept_ledSet _ _ _ hs _ ht
    | (simp only [Option.some.injEq] at ht; subst ht; simp [*])

end Laws
end Sys2Proof
end

