-- ==== Sys2Proof/Laws/KeptPorts.lean ====
section
/-!
SUPPORT. Every operation of Machine/Ports.lean carries the queue and soundness through.
-/
namespace Sys2Proof
namespace Laws
open Machine

variable {x : Carry}

@[simp] theorem kept_State_putPort (s : State) (p : PortId) (k : PortSt) (hs : Kept x s) : Kept x (State.putPort s p k) := by
  unfold State.putPort
  (repeat' split) <;> simp (maxDischargeDepth := 9) [*]
@[simp] theorem kept_State_status (s : State) (p : PortId) (code : Byte) (op : Byte) (tag : Byte) (hs : Kept x s) : Kept x (State.status s p code op tag) := by simp (maxDischargeDepth := 9) [State.status, *]
@[simp] theorem kept_State_discard (s : State) (p : PortId) (n : ℕ) (hs : Kept x s) : Kept x (State.discard s p n) := by simp (maxDischargeDepth := 9) [State.discard, *]
@[simp] theorem kept_swallow (n : ℕ) (s : State) (hs : Kept x s) : Kept x (swallow n s) := by simp (maxDischargeDepth := 9) [swallow, *]
@[simp] theorem kept_onPort (p : PortId) (n : ℕ) (f : State → State) (s : State) (hf : ∀ y, Kept x y → Kept x (f y)) (hs : Kept x s) : Kept x (onPort p n f s) := by simp (maxDischargeDepth := 9) [onPort, *]
@[simp] theorem kept_execPortPoll (p : PortId) (s : State) (hs : Kept x s) : KeptO x (execPortPoll p s) := by
  unfold execPortPoll
  (repeat' split) <;> simp_all (maxDischargeDepth := 9)
@[simp] theorem kept_execPortStatus (p : PortId) (s : State) (hs : Kept x s) : KeptO x (execPortStatus p s) := by
  unfold execPortStatus
  (repeat' split) <;> simp_all (maxDischargeDepth := 9)
@[simp] theorem kept_outMessage (p : PortId) (s : State) (hs : Kept x s) : Kept x (outMessage p s).2 := by simp (maxDischargeDepth := 9) [outMessage, *]
@[simp] theorem kept_outTaken (p : PortId) (s : State) (hs : Kept x s) : Kept x (outTaken p s) := by simp (maxDischargeDepth := 9) [outTaken, *]
@[simp] theorem kept_readNow (p : PortId) (whole : Bool) (s : State) (hs : Kept x s) : Kept x (readNow p whole s) := by
  simp only [readNow, keptO_next]
  (repeat' split) <;> simp (maxDischargeDepth := 9) [*]
@[simp] theorem kept_execPortRead (p : PortId) (whole : Bool) (s : State) (hs : Kept x s) : KeptO x (execPortRead p whole s) := by
  unfold execPortRead
  (repeat' split) <;> simp_all (maxDischargeDepth := 9)
@[simp] theorem kept_placeMessage (p : PortId) (opcode : Byte) (tag : Byte) (payload : List Byte) (s : State) (hs : Kept x s) : Kept x (placeMessage p opcode tag payload s) := by simp (maxDischargeDepth := 9) [placeMessage, *]
@[simp] theorem kept_placeService (p : PortId) (opcode : Byte) (tag : Byte) (payload : List Byte) (s : State) (hs : Kept x s) : Kept x (placeService p opcode tag payload s) := by simp (maxDischargeDepth := 9) [placeService, *]
@[simp] theorem kept_placeNoImage (p : PortId) (opcode : Byte) (tag : Byte) (payload : List Byte) (s : State) (hs : Kept x s) : Kept x (placeNoImage p opcode tag payload s) := by simp (maxDischargeDepth := 9) [placeNoImage, *]
@[simp] theorem kept_judgeMessage (p : PortId) (opcode : Byte) (tag : Byte) (len : ℕ) (rest : List Byte) (fmtOk : Bool) (s : State) (hs : Kept x s) : Kept x (judgeMessage p opcode tag len rest fmtOk s) := by simp (maxDischargeDepth := 9) [judgeMessage, *]
@[simp] theorem kept_refuseLength (p : PortId) (opcode : Byte) (tag : Byte) (len : ℕ) (rest : List Byte) (s : State) (hs : Kept x s) : Kept x (refuseLength p opcode tag len rest s) := by simp (maxDischargeDepth := 9) [refuseLength, *]
@[simp] theorem kept_writeNow (p : PortId) (opcode : Byte) (tag : Byte) (len : ℕ) (rest : List Byte) (fmtOk : Bool) (s : State) (hs : Kept x s) : Kept x (writeNow p opcode tag len rest fmtOk s) := by simp (maxDischargeDepth := 9) [writeNow, *]
@[simp] theorem kept_execPortWrite (p : PortId) (opcode : Byte) (tag : Byte) (len : BitVec 16) (rest : List Byte) (fmtOk : Bool) (s : State) (hs : Kept x s) : KeptO x (execPortWrite p opcode tag len rest fmtOk s) := by
  unfold execPortWrite
  (repeat' split) <;> simp_all (maxDischargeDepth := 9)
@[simp] theorem kept_execPortUnknownCommand (p : PortId) (b : Byte) (s : State) (hs : Kept x s) : KeptO x (execPortUnknownCommand p b s) := by
  unfold execPortUnknownCommand
  (repeat' split) <;> simp_all (maxDischargeDepth := 9)
@[simp] theorem kept_execPortUIdleGap (s : State) (hs : Kept x s) : KeptO x (execPortUIdleGap s) := by simp (maxDischargeDepth := 9) [execPortUIdleGap, *]
@[simp] theorem kept_execPortUFramingError (s : State) (hs : Kept x s) : KeptO x (execPortUFramingError s) := by
  unfold execPortUFramingError
  (repeat' split) <;> simp_all (maxDischargeDepth := 9)
@[simp] theorem kept_inDone (p : PortId) (s : State) (hs : Kept x s) : Kept x (inDone p s) := by simp (maxDischargeDepth := 9) [inDone, *]
@[simp] theorem kept_outPost (p : PortId) (s : State) (hs : Kept x s) : Kept x (outPost p s) := by simp (maxDischargeDepth := 9) [outPost, *]
@[simp] theorem kept_execMailboxInRelease (p : PortId) (s : State) (hs : Kept x s) : KeptO x (execMailboxInRelease p s) := by simp (maxDischargeDepth := 9) [execMailboxInRelease, *]
@[simp] theorem kept_execMailboxOutPost (p : PortId) (s : State) (hs : Kept x s) : KeptO x (execMailboxOutPost p s) := by simp (maxDischargeDepth := 9) [execMailboxOutPost, *]
@[simp] theorem kept_execStoreServiceReply (p : PortId) (s : State) (hs : Kept x s) : KeptO x (execStoreServiceReply p s) := by
  unfold execStoreServiceReply
  (repeat' split) <;> simp (maxDischargeDepth := 9) [*]
@[simp] theorem kept_portSide (a : ℕ) (s : State) (hs : Kept x s) : Kept x (portSide a s) := by
  unfold portSide
  (repeat' split) <;> simp (maxDischargeDepth := 9) [*]
@[simp] theorem kept_portPut (a : ℕ) (v : Word) (s : State) (hs : Kept x s) : Kept x (portPut a v s) := by
  unfold portPut
  (repeat' split) <;> simp (maxDischargeDepth := 9) [*]

end Laws
end Sys2Proof
end

