-- ==== Sys2Proof/Laws/KeptPortC.lean ====
section
/-!
SUPPORT. Every operation of Machine/PortC.lean carries the queue and soundness through.
-/
namespace Sys2Proof
namespace Laws
open Machine

variable {x : Carry}

@[simp] theorem kept_PortC_loseBus (p : PortC) (hp : PcK x p) : PcK x (PortC.loseBus p) := by simp (maxDischargeDepth := 9) [PortC.loseBus, *]
@[simp] theorem kept_PortC_leaveBus (p : PortC) (hp : PcK x p) : PcK x (PortC.leaveBus p) := by simp (maxDischargeDepth := 9) [PortC.leaveBus, *]
@[simp] theorem kept_PortC_unsentFor (p : PortC) (k : BitVec 4) (cause : BitVec 3) (hp : PcK x p) : PcK x (PortC.unsentFor p k cause) := by simp (maxDischargeDepth := 9) [PortC.unsentFor, *]
@[simp] theorem kept_State_pcUnsent (s : State) (k : BitVec 4) (cause : BitVec 3) (hs : Kept x s) : Kept x (State.pcUnsent s k cause) := by simp (maxDischargeDepth := 9) [State.pcUnsent, *]
@[simp] theorem kept_slotFrame (off : BitVec 7) (s : State) (hs : Kept x s) : Kept x (slotFrame off s).2 := by
  simp only [slotFrame]
  (repeat' split) <;> simp (maxDischargeDepth := 9) [hs]

@[simp] theorem kept_pcReply (k : BitVec 4) (s : State) (hs : Kept x s) : Kept x (pcReply k s) := by
  simp only [pcReply]
  have h := kept_slotFrame (s.pc.rs.get k.toFin).off s hs
  (repeat' split) <;> (try rename_i e; rw [e] at h) <;> simp (maxDischargeDepth := 9) [h, hs]
@[simp] theorem kept_pcKeep (f : CanFrame) (s : State) (hs : Kept x s) : Kept x (pcKeep f s) := by simp (maxDischargeDepth := 9) [pcKeep, *]
@[simp] theorem kept_ch0Act (d : Word) (f : CanFrame) (s : State) (hs : Kept x s) : Kept x (ch0Act d f s) := by
  unfold ch0Act
  extract_lets a b s0 s1 s2 s3 p s4
  have h0 : Kept x s0 := by simp (maxDischargeDepth := 9) [s0, a, b, hs]
  have h1 : Kept x s1 := by simp only [s1]; split <;> simp [h0]
  have h2 : Kept x s2 := by simp only [s2]; split <;> simp [h1]
  have h3 : Kept x s3 := by simp only [s3]; split <;> simp [h2]
  have h4 : Kept x s4 := by simp only [s4]; (repeat' split) <;> simp (maxDischargeDepth := 9) [h3, p]
  split <;> simp [h4]
@[simp] theorem kept_ch0Look (f : CanFrame) (pass2 : Bool) (s : State) (hs : Kept x s) : Kept x (ch0Look f pass2 s).2.2 := by simp (maxDischargeDepth := 9) [ch0Look, *]
@[simp] theorem kept_ch0Pass2 (f : CanFrame) (s : State) (hs : Kept x s) : Kept x (ch0Pass2 f s) := by
  unfold ch0Pass2
  have h := kept_ch0Look f true s hs
  (repeat' split) <;> (try rename_i e; rw [e] at h) <;> simp (maxDischargeDepth := 9) [h, hs]
@[simp] theorem kept_ch0After (f : CanFrame) (pass2 : Bool) (r : List (ℕ × BitVec 8) × Bool × State) (hr : Kept x r.2.2) :
    Kept x (ch0After f pass2 r) := by
  unfold ch0After
  (repeat' split) <;> simp_all

@[simp] theorem kept_execChannel0Search (s : State) (hs : Kept x s) : KeptO x (execChannel0Search s) := by
  simp only [execChannel0Search, keptO_next]
  (repeat' split) <;> simp (maxDischargeDepth := 9) [*]
@[simp] theorem kept_ch0Answer (a : Answer) (s : State) (hs : Kept x s) : Kept x (ch0Answer a s) := by
  unfold ch0Answer
  (repeat' split) <;> simp (maxDischargeDepth := 9) [*]
theorem kept_withPc (s : State) (p : PortC) (hs : Kept x s) (hp : PcK x p) : Kept x { s with pc := p } :=
  ⟨hs.1, hs.2.1, hs.2.2.1, hs.2.2.2.1, hs.2.2.2.2.1, hs.2.2.2.2.2.1, hs.2.2.2.2.2.2.1, hp, hs.2.2.2.2.2.2.2.2⟩

@[simp] theorem kept_execCanFrameAccept (f : CanFrame) (own : Bool) (sub : BitVec 10) (s : State) (hs : Kept x s) : KeptO x (execCanFrameAccept f own sub s) := by
  have h1 : Kept x (s.atSub sub) := kept_State_atSub s sub hs
  rw [execCanFrameAccept, keptO_next]
  generalize s.atSub sub = r at h1
  have h : LenK x 4 r.pc.loseBus.rxq := (kept_PortC_loseBus _ h1.pc).rxq
  dsimp only
  split
  · exact h1
  · split
    · exact kept_withPc _ _ h1 h
    · rename_i hn
      exact kept_withPc _ _ h1 fun _ => by
        rw [List.length_append, List.length_singleton]
        omega
@[simp] theorem kept_execCanFdfIgnore (s : State) (hs : Kept x s) : KeptO x (execCanFdfIgnore s) := by simp (maxDischargeDepth := 9) [execCanFdfIgnore, *]
@[simp] theorem kept_execCanBusIntegration (s : State) (hs : Kept x s) : KeptO x (execCanBusIntegration s) := by simp (maxDischargeDepth := 9) [execCanBusIntegration, *]
@[simp] theorem kept_execCanBusError (tec : BitVec 8) (rxe : BitVec 8) (busOff : Bool) (s : State) (hs : Kept x s) : KeptO x (execCanBusError tec rxe busOff s) := by
  unfold execCanBusError
  (repeat' split) <;> simp (maxDischargeDepth := 9) [*]
@[simp] theorem kept_execCanBusOffRecoveryEnd (s : State) (hs : Kept x s) : KeptO x (execCanBusOffRecoveryEnd s) := by simp (maxDischargeDepth := 9) [execCanBusOffRecoveryEnd, *]
@[simp] theorem kept_execBtrefLoss (s : State) (hs : Kept x s) : KeptO x (execBtrefLoss s) := by simp (maxDischargeDepth := 9) [execBtrefLoss, *]
@[simp] theorem kept_execBtrefRecover (s : State) (hs : Kept x s) : KeptO x (execBtrefRecover s) := by simp (maxDischargeDepth := 9) [execBtrefRecover, *]
@[simp] theorem kept_execVioLoss (bank : PinBank) (s : State) (hs : Kept x s) : KeptO x (execVioLoss bank s) := by simp (maxDischargeDepth := 9) [execVioLoss, *]
@[simp] theorem kept_execCanReplyTransmit (s : State) (hs : Kept x s) : KeptO x (execCanReplyTransmit s) := by
  unfold execCanReplyTransmit
  (repeat' split) <;> simp (maxDischargeDepth := 9) [*]
@[simp] theorem kept_execCanReplySent (s : State) (hs : Kept x s) : KeptO x (execCanReplySent s) := by
  unfold execCanReplySent
  (repeat' split) <;> simp (maxDischargeDepth := 9) [*]
@[simp] theorem kept_execCanReplyWindowExpiry (s : State) (hs : Kept x s) : KeptO x (execCanReplyWindowExpiry s) := by
  unfold execCanReplyWindowExpiry
  (repeat' split) <;> simp (maxDischargeDepth := 9) [*]
@[simp] theorem kept_portCAnswer (a : Answer) (s : State) (hs : Kept x s) : Kept x (portCAnswer a s) := by
  unfold portCAnswer
  (repeat' split) <;> simp (maxDischargeDepth := 9) [*]
@[simp] theorem kept_pcModePut (v : Word) (p : PortC) (hp : PcK x p) : PcK x (pcModePut v p) := by simp (maxDischargeDepth := 9) [pcModePut, *]
@[simp] theorem kept_pcSlotPut (k : Fin 16) (v : Word) (s : State) (hs : Kept x s) : Kept x (pcSlotPut k v s) := by simp (maxDischargeDepth := 9) [pcSlotPut, *]
@[simp] theorem kept_pcReadPut (v : Word) (p : PortC) (hp : PcK x p) : PcK x (pcReadPut v p) := by simp (maxDischargeDepth := 9) [pcReadPut, *]
@[simp] theorem kept_pcOwned (who : Who) (f : State → State) (s : State) (hf : ∀ y, Kept x y → Kept x (f y)) (hs : Kept x s) : Kept x (pcOwned who f s) := by simp (maxDischargeDepth := 9) [pcOwned, *]
@[simp] theorem kept_execCanBusOffRecover (who : Who) (v : BitVec 16) (s : State) (hs : Kept x s) : KeptO x (execCanBusOffRecover who v s) := by
  unfold execCanBusOffRecover
  (repeat' split) <;> simp_all (maxDischargeDepth := 9)
@[simp] theorem kept_execCanListenWrite (who : Who) (v : BitVec 16) (s : State) (hs : Kept x s) : KeptO x (execCanListenWrite who v s) := by
  unfold execCanListenWrite
  (repeat' split) <;> simp_all (maxDischargeDepth := 9)
@[simp] theorem kept_execCanReplySlotArm (who : Who) (k : BitVec 4) (v : BitVec 16) (s : State) (hs : Kept x s) : KeptO x (execCanReplySlotArm who k v s) := by
  unfold execCanReplySlotArm
  (repeat' split) <;> simp_all (maxDischargeDepth := 9)
@[simp] theorem kept_execCanReplySlotDisarm (who : Who) (k : BitVec 4) (v : BitVec 16) (s : State) (hs : Kept x s) : KeptO x (execCanReplySlotDisarm who k v s) := by
  unfold execCanReplySlotDisarm
  (repeat' split) <;> simp_all (maxDischargeDepth := 9)
@[simp] theorem kept_execCanInConsume (who : Who) (v : BitVec 16) (s : State) (hs : Kept x s) : KeptO x (execCanInConsume who v s) := by
  unfold execCanInConsume
  (repeat' split) <;> simp_all (maxDischargeDepth := 9)
@[simp] theorem kept_pcSide (a : ℕ) (s : State) (hs : Kept x s) : Kept x (pcSide a s) := by simp (maxDischargeDepth := 9) [pcSide, *]
@[simp] theorem kept_pcPut (a : ℕ) (v : Word) (s : State) (hs : Kept x s) : Kept x (pcPut a v s) := by
  unfold pcPut
  split
  · simp [hs]
  · split
    · simp [hs]
    · split
      · exact kept_pcSlotPut _ _ _ hs
      · exact hs
@[simp] theorem kept_PortC_emptied (p : PortC) (hp : PcK x p) : PcK x (PortC.emptied p) := by simp (maxDischargeDepth := 9) [PortC.emptied, *]

end Laws
end Sys2Proof
end

