-- ==== Sys2Proof/Laws/KeptPorter.lean ====
section
/-!
SUPPORT. Every operation of Machine/Porter.lean carries the queue and soundness through.
-/
namespace Sys2Proof
namespace Laws
open Machine

variable {x : Carry}

theorem porK_foldl {α : Type} {f : Porter → α → Porter} (hf : ∀ p a, PorK x p → PorK x (f p a)) (l : List α) {p : Porter} (h : PorK x p) :
    PorK x (l.foldl f p) := by
  induction l generalizing p with
  | nil => exact h
  | cons a l ih => exact ih (hf p a h)

theorem energyOf_le (f v : Nat) : energyOf f v ≤ 0xFFFFFFFF := by
  unfold energyOf
  split <;> omega

@[simp] theorem kept_setVcore (v : BitVec 7) (s : State) (hs : Kept x s) : Kept x (setVcore v s) := by simp (maxDischargeDepth := 9) [setVcore, *]
@[simp] theorem kept_Porter_answer (p : Porter) (k : BitVec 3) (r : Requester) (a : Answer) (hp : PorK x p) : PorK x (Porter.answer p k r a) := by simp (maxDischargeDepth := 9) [Porter.answer, *]
@[simp] theorem kept_Porter_deny (p : Porter) (k : BitVec 3) (r : Requester) (why : BitVec 3) (hp : PorK x p) : PorK x (Porter.deny p k r why) := by simp (maxDischargeDepth := 9) [Porter.deny, *]
@[simp] theorem kept_Porter_grant (p : Porter) (k : BitVec 3) (r : Requester) (c : ℕ) (hp : PorK x p) : PorK x (Porter.grant p k r c) := by simp (maxDischargeDepth := 9) [Porter.grant, *]
theorem kept_Porter_tryGrant (p : Porter) (k : BitVec 3) (r : Requester) (c : ℕ) (hp : PorK x p) : ∀ t, Porter.tryGrant p k r c = some t → PorK x t := by
  unfold Porter.tryGrant
  (repeat' split) <;> simp (maxDischargeDepth := 9) [*]
@[simp] theorem kept_Porter_judge (p : Porter) (k : BitVec 3) (r : Requester) (c : ℕ) (hp : PorK x p) : PorK x (Porter.judge p k r c) := by
  unfold Porter.judge
  (repeat' split) <;> (try exact kept_Porter_tryGrant _ _ _ _ hp _ ‹_›) <;> simp (maxDischargeDepth := 9) [*]
@[simp] theorem kept_redecideL (l : List Claim) (p : Porter) (hp : PorK x p) : PorK x (redecideL l p) := by
  induction l generalizing p with
  | nil => exact hp
  | cons d l ih =>
    unfold redecideL
    split
    · exact ih _ (kept_Porter_tryGrant _ _ _ _ hp _ ‹_›)
    · exact ih _ (by simp [*])

@[simp] theorem kept_Porter_redecide (p : Porter) (hp : PorK x p) : PorK x (Porter.redecide p) := by simp (maxDischargeDepth := 9) [Porter.redecide, *]
@[simp] theorem kept_Porter_denyDeferred (f : Requester → Bool) (why : BitVec 3) (p : Porter) (hp : PorK x p) : PorK x (Porter.denyDeferred f why p) := by
  unfold Porter.denyDeferred
  exact porK_foldl (fun p d h => kept_Porter_deny _ _ _ _ h) _ (by simp [*])
@[simp] theorem kept_Porter_finish (p : Porter) (k : BitVec 3) (r : Requester) (hp : PorK x p) : PorK x (Porter.finish p k r) := by
  unfold Porter.finish
  (repeat' split) <;> simp (maxDischargeDepth := 9) [*]
@[simp] theorem kept_lgStart (s : State) (hs : Kept x s) : Kept x (lgStart s) := by
  simp only [lgStart, keptO_next]
  (repeat' split) <;> simp (maxDischargeDepth := 9) [*]
@[simp] theorem kept_ledgerMoved (s : State) (hs : Kept x s) : Kept x (ledgerMoved s) := by
  simp only [ledgerMoved, keptO_next]
  (repeat' split) <;> simp (maxDischargeDepth := 9) [*]
@[simp] theorem kept_execCountMessage (din : BitVec 32) (dout : BitVec 32) (mv : BitVec 16) (lost : Bool) (s : State) (hs : Kept x s) : KeptO x (execCountMessage din dout mv lost s) := by simp (maxDischargeDepth := 9) [execCountMessage, *]
@[simp] theorem kept_counterFault (s : State) (hs : Kept x s) : Kept x (counterFault s) := by simp (maxDischargeDepth := 9) [counterFault, *]
@[simp] theorem kept_execLedgerCount (s : State) (hs : Kept x s) : KeptO x (execLedgerCount s) := by
  simp only [execLedgerCount, keptO_next]
  split
  · have hl : ∀ n d, LedgK x (min ledgerTop n - d) := fun n d _ => by omega
    (repeat' split) <;> simp (maxDischargeDepth := 9) [*]
  · exact hs
@[simp] theorem kept_execStoreCounterSat (s : State) (hs : Kept x s) : KeptO x (execStoreCounterSat s) := by simp (maxDischargeDepth := 9) [execStoreCounterSat, *]
@[simp] theorem kept_corrected (old new : ℕ) (p : Porter) (hn : new ≤ ledgerTop) : PorK x (corrected old new p) := by
  simp only [corrected]
  (repeat' split) <;> exact fun _ => hn

@[simp] theorem kept_correct (always : Bool) (mv : ℕ) (p : Porter) (hp : PorK x p) : PorK x (correct always mv p) := by
  simp only [correct]
  have hn : energyOf p.cfg.farads mv * 1024 ≤ ledgerTop := Nat.mul_le_mul_right _ (energyOf_le _ _)
  (repeat' split) <;> first | exact hp | exact kept_corrected _ _ _ hn

@[simp] theorem kept_execLedgerCorrection (s : State) (hs : Kept x s) : KeptO x (execLedgerCorrection s) := by
  simp only [execLedgerCorrection, keptO_next]
  (repeat' split) <;> simp (maxDischargeDepth := 9) [*]
@[simp] theorem kept_execPermitRequest (lost : Bool) (s : State) (hs : Kept x s) : KeptO x (execPermitRequest lost s) := by
  unfold execPermitRequest
  (repeat' split) <;> simp (maxDischargeDepth := 9) [*]
@[simp] theorem kept_execPermitWithdraw (s : State) (hs : Kept x s) : KeptO x (execPermitWithdraw s) := by
  unfold execPermitWithdraw
  (repeat' split) <;> simp (maxDischargeDepth := 9) [*]
@[simp] theorem kept_execHoldRelease (s : State) (hs : Kept x s) : KeptO x (execHoldRelease s) := by
  unfold execHoldRelease
  (repeat' split) <;> simp (maxDischargeDepth := 9) [*]
@[simp] theorem kept_timeOut (l : List Claim) (p : Porter) (hp : PorK x p) : PorK x (timeOut l p) := by
  induction l generalizing p with
  | nil => exact hp
  | cons d l ih =>
    unfold timeOut
    (repeat' split)
    · exact ih _ (kept_Porter_tryGrant _ _ _ _ hp _ ‹_›)
    · exact ih _ (by simp [*])
    · exact ih _ (by simp [*])

@[simp] theorem kept_execDeferTimeout (s : State) (hs : Kept x s) : KeptO x (execDeferTimeout s) := by simp (maxDischargeDepth := 9) [execDeferTimeout, *]
@[simp] theorem kept_execHoldTimeout (s : State) (hs : Kept x s) : KeptO x (execHoldTimeout s) := by simp (maxDischargeDepth := 9) [execHoldTimeout, *]
@[simp] theorem kept_Porter_tick (p : Porter) (hp : PorK x p) : PorK x (Porter.tick p) := by simp (maxDischargeDepth := 9) [Porter.tick, *]
@[simp] theorem kept_Porter_reserve (p : Porter) (n : Vector (BitVec 8) 8) (hp : PorK x p) : PorK x (Porter.reserve p n) := by
  simp only [Porter.reserve, keptO_next]
  (repeat' split) <;> simp (maxDischargeDepth := 9) [*]
@[simp] theorem kept_porterCourseStart (d : CourseDef) (s : State) (hs : Kept x s) : Kept x (porterCourseStart d s) := by
  simp only [porterCourseStart, keptO_next]
  (repeat' split) <;> simp (maxDischargeDepth := 9) [*]
@[simp] theorem kept_porterCourseEnd (s : State) (hs : Kept x s) : Kept x (porterCourseEnd s) := by simp (maxDischargeDepth := 9) [porterCourseEnd, *]
@[simp] theorem kept_ledgerCapture (s : State) (hs : Kept x s) : Kept x (ledgerCapture s) := by simp (maxDischargeDepth := 9) [ledgerCapture, *]
@[simp] theorem kept_availCapture (s : State) (hs : Kept x s) : Kept x (availCapture s) := by simp (maxDischargeDepth := 9) [availCapture, *]
@[simp] theorem kept_execLedgerCaptureRead (s : State) (hs : Kept x s) : KeptO x (execLedgerCaptureRead s) := by simp (maxDischargeDepth := 9) [execLedgerCaptureRead, *]
@[simp] theorem kept_execAvailCaptureRead (s : State) (hs : Kept x s) : KeptO x (execAvailCaptureRead s) := by simp (maxDischargeDepth := 9) [execAvailCaptureRead, *]
@[simp] theorem kept_porterSide (a : ℕ) (s : State) (hs : Kept x s) : Kept x (porterSide a s) := by simp (maxDischargeDepth := 9) [porterSide, *]
@[simp] theorem kept_porterPut (a : ℕ) (v : Word) (s : State) (hs : Kept x s) : Kept x (porterPut a v s) := by simp (maxDischargeDepth := 9) [porterPut, *]

end Laws
end Sys2Proof
end

