-- ==== Sys2Proof/Laws/KeptTouch.lean ====
section
/-!
SUPPORT. Every operation of Machine/Touch.lean carries the queue and soundness through.
-/
namespace Sys2Proof
namespace Laws
open Machine

variable {x : Carry}

@[simp] theorem kept_touchDropLeave (s : State) (hs : Kept x s) : Kept x (touchDropLeave s) := by
  unfold touchDropLeave
  (repeat' split) <;> simp (maxDischargeDepth := 9) [*]
@[simp] theorem kept_execTouchFrameDue (s : State) (hs : Kept x s) : KeptO x (execTouchFrameDue s) := by simp (maxDischargeDepth := 9) [execTouchFrameDue, *]
@[simp] theorem kept_touchBegin (s : State) (hs : Kept x s) : Kept x (touchBegin s) := by simp (maxDischargeDepth := 9) [touchBegin, *]
@[simp] theorem kept_execTouchFrameStart (s : State) (hs : Kept x s) : KeptO x (execTouchFrameStart s) := by
  unfold execTouchFrameStart
  (repeat' split) <;> simp (maxDischargeDepth := 9) [*]
@[simp] theorem kept_touchAnswer (a : Answer) (s : State) (hs : Kept x s) : Kept x (touchAnswer a s) := by
  unfold touchAnswer
  (repeat' split) <;> simp (maxDischargeDepth := 9) [*]
@[simp] theorem kept_touchWindowClose (s : State) (hs : Kept x s) : Kept x (touchWindowClose s) := by simp (maxDischargeDepth := 9) [touchWindowClose, *]
@[simp] theorem kept_sentinelGo (s : State) (hs : Kept x s) : Kept x (sentinelGo s) := by simp (maxDischargeDepth := 9) [sentinelGo, *]
@[simp] theorem kept_execTouchFrameEnd (raw : List (List (BitVec 16) × List (BitVec 16))) (noise : BitVec 12) (cand : BitVec 12) (sub : BitVec 10) (s : State) (hs : Kept x s) : KeptO x (execTouchFrameEnd raw noise cand sub s) := by
  have h1 : Kept x (s.atSub sub) := kept_State_atSub s sub hs
  rw [execTouchFrameEnd, keptO_next]
  generalize s.atSub sub = r at h1
  dsimp only
  (repeat' split) <;> simp (maxDischargeDepth := 9) [h1]
@[simp] theorem kept_execTouchStuckReset (g : BitVec 2) (sub : BitVec 10) (s : State) (hs : Kept x s) : KeptO x (execTouchStuckReset g sub s) := by
  have h1 : Kept x (s.atSub sub) := kept_State_atSub s sub hs
  rw [execTouchStuckReset, keptO_next]
  generalize s.atSub sub = r at h1
  dsimp only
  (repeat' split) <;> simp (maxDischargeDepth := 9) [h1]
@[simp] theorem kept_execTouchRateStep (sub : BitVec 10) (s : State) (hs : Kept x s) : KeptO x (execTouchRateStep sub s) := by simp (maxDischargeDepth := 9) [execTouchRateStep, *]
@[simp] theorem kept_touchCtlWrite (v : Word) (s : State) (hs : Kept x s) : Kept x (touchCtlWrite v s) := by simp (maxDischargeDepth := 9) [touchCtlWrite, *]
@[simp] theorem kept_execTouchReacquire (who : Who) (s : State) (hs : Kept x s) : KeptO x (execTouchReacquire who s) := by simp (maxDischargeDepth := 9) [execTouchReacquire, *]
@[simp] theorem kept_execTouchChgForce (who : Who) (v : BitVec 16) (s : State) (hs : Kept x s) : KeptO x (execTouchChgForce who v s) := by simp (maxDischargeDepth := 9) [execTouchChgForce, *]
@[simp] theorem kept_touchCapture (s : State) (hs : Kept x s) : Kept x (touchCapture s) := by simp (maxDischargeDepth := 9) [touchCapture, *]
@[simp] theorem kept_execTouchResultCapture (s : State) (hs : Kept x s) : KeptO x (execTouchResultCapture s) := by simp (maxDischargeDepth := 9) [execTouchResultCapture, *]
@[simp] theorem kept_touchSide (a : ℕ) (s : State) (hs : Kept x s) : Kept x (touchSide a s) := by simp (maxDischargeDepth := 9) [touchSide, *]
@[simp] theorem kept_touchPut (a : ℕ) (v : Word) (s : State) (hs : Kept x s) : Kept x (touchPut a v s) := by simp (maxDischargeDepth := 9) [touchPut, *]
@[simp] theorem kept_execSentinelScanDue (s : State) (hs : Kept x s) : KeptO x (execSentinelScanDue s) := by simp (maxDischargeDepth := 9) [execSentinelScanDue, *]
@[simp] theorem kept_gestureDone (g : BitVec 2) (s : State) (hs : Kept x s) : Kept x (gestureDone g s) := by simp (maxDischargeDepth := 9) [gestureDone, *]
@[simp] theorem kept_execSentinelScanEnd (raw : List (BitVec 16)) (noise : BitVec 12) (s : State) (hs : Kept x s) : KeptO x (execSentinelScanEnd raw noise s) := by
  simp only [execSentinelScanEnd, keptO_next]
  (repeat' split) <;> simp (maxDischargeDepth := 9) [*]

end Laws
end Sys2Proof
end

