-- ==== Sys2Proof/Laws/KeptAnswers.lean ====
section
/-!
SUPPORT. Every operation of Machine/Answers.lean carries the queue and soundness through.
-/
namespace Sys2Proof
namespace Laws
open Machine

variable {x : Carry}

@[simp] theorem kept_Core_answered (k : Core) (hk : CoreK x k) : CoreK x (Core.answered k) := by simp (maxDischargeDepth := 9) [Core.answered, *]
@[simp] theorem kept_coreAnswer (c : CoreId) (k : BitVec 3) (a : Answer) (s : State) (hs : Kept x s) : Kept x (coreAnswer c k a s) := by simp (maxDischargeDepth := 9) [coreAnswer, *]
@[simp] theorem kept_deliver (k : BitVec 3) (r : Requester) (a : Answer) (s : State) (hs : Kept x s) : Kept x (deliver k r a s) := by
  unfold deliver
  (repeat' split) <;> simp (maxDischargeDepth := 9) [*]
@[simp] theorem kept_execPermitAnswer (s : State) (hs : Kept x s) : KeptO x (execPermitAnswer s) := by
  unfold execPermitAnswer
  (repeat' split) <;> simp (maxDischargeDepth := 9) [*]

end Laws
end Sys2Proof
end

