-- ==== Sys2Proof/Laws/KeptCourse.lean ====
section
/-!
SUPPORT. Every operation of Machine/Course.lean carries the queue and soundness through.
-/
namespace Sys2Proof
namespace Laws
open Machine

variable {x : Carry}

@[simp] theorem kept_closeWindows (s : State) (hs : Kept x s) : Kept x (closeWindows s) := by simp (maxDischargeDepth := 9) [closeWindows, *]
@[simp] theorem kept_checkBound (dur : ℕ) (bound : ℕ) (c : CourseEngine) (hc : CrsK x c) : CrsK x (checkBound dur bound c) := by
  unfold checkBound
  (repeat' split) <;> simp (maxDischargeDepth := 9) [*]
@[simp] theorem kept_tickAtOnce (s : State) (hs : Kept x s) : Kept x (tickAtOnce s) := by
  unfold tickAtOnce
  (repeat' split) <;> simp (maxDischargeDepth := 9) [*]
@[simp] theorem kept_beginEntry (t : Sleep) (noTick : Bool) (s : State) (hs : Kept x s) : Kept x (beginEntry t noTick s) := by simp (maxDischargeDepth := 9) [beginEntry, *]
@[simp] theorem kept_sleepAction (d : CourseDef) (s : State) (hs : Kept x s) : Kept x (sleepAction d s) := by
  simp only [sleepAction, keptO_next]
  (repeat' split) <;> simp (maxDischargeDepth := 9) [*]
@[simp] theorem kept_courseStop (s : State) (hs : Kept x s) : Kept x (courseStop s) := by simp (maxDischargeDepth := 9) [courseStop, *]
@[simp] theorem kept_courseEnd (s : State) (hs : Kept x s) : Kept x (courseEnd s) := by
  unfold courseEnd
  (repeat' split) <;> simp (maxDischargeDepth := 9) [*]
@[simp] theorem kept_courseEndCheck (s : State) (hs : Kept x s) : Kept x (courseEndCheck s) := by simp (maxDischargeDepth := 9) [courseEndCheck, *]
@[simp] theorem kept_countLate (now : ℕ) (o : Option Occurrence) (c : CourseEngine) (hc : CrsK x c) : CrsK x (countLate now o c) := by
  unfold countLate
  (repeat' split) <;> simp (maxDischargeDepth := 9) [*]
@[simp] theorem kept_startCore (c : CoreId) (e : Word) (s : State) (hs : Kept x s) : Kept x (startCore c e s) := by
  simp only [startCore, keptO_next]
  (repeat' split) <;> simp (maxDischargeDepth := 9) [*]
@[simp] theorem kept_startList (c : CoreId) (l : List Word) (s : State) (hs : Kept x s) : Kept x (startList c l s) := by
  unfold startList
  (repeat' split) <;> simp (maxDischargeDepth := 9) [*]
@[simp] theorem kept_courseBegin (n : BitVec 6) (o : Option Occurrence) (d : CourseDef) (s : State) (hs : Kept x s) : Kept x (courseBegin n o d s) := by simp (maxDischargeDepth := 9) [courseBegin, *]
@[simp] theorem kept_execCourseStart (sub : BitVec 10) (s : State) (hs : Kept x s) : KeptO x (execCourseStart sub s) := by
  unfold execCourseStart
  (repeat' split) <;> simp (maxDischargeDepth := 9) [*]
@[simp] theorem kept_execCourseWindowOpen (blk : WinBlock) (s : State) (hs : Kept x s) : KeptO x (execCourseWindowOpen blk s) := by
  unfold execCourseWindowOpen
  (repeat' split) <;> simp (maxDischargeDepth := 9) [*]
@[simp] theorem kept_execCourseWindowClose (blk : WinBlock) (s : State) (hs : Kept x s) : KeptO x (execCourseWindowClose blk s) := by
  unfold execCourseWindowClose
  (repeat' split) <;> simp (maxDischargeDepth := 9) [*]
@[simp] theorem kept_endWait (c : CoreId) (s : State) (hs : Kept x s) : Kept x (endWait c s) := by
  simp only [endWait, keptO_next]
  (repeat' split) <;> simp (maxDischargeDepth := 9) [*]
@[simp] theorem kept_execCourseTimeUp (sub : BitVec 10) (s : State) (hs : Kept x s) : KeptO x (execCourseTimeUp sub s) := by simp (maxDischargeDepth := 9) [execCourseTimeUp, *]
@[simp] theorem kept_stallDoor (c : CoreId) (s : State) (hs : Kept x s) : Kept x (stallDoor c s) := by
  unfold stallDoor
  (repeat' split) <;> simp (maxDischargeDepth := 9) [*]
@[simp] theorem kept_execCourseStall (s : State) (hs : Kept x s) : KeptO x (execCourseStall s) := by simp (maxDischargeDepth := 9) [execCourseStall, *]
@[simp] theorem kept_courseTick (s : State) (hs : Kept x s) : Kept x (courseTick s) := by
  unfold courseTick
  dsimp only
  refine kept_foldl (fun s n h => kept_fallDue _ _ _ h) _ ?_
  split <;> simp (maxDischargeDepth := 9) [hs]
@[simp] theorem kept_execTick (cal : Option (BitVec 12)) (offsetFault : Bool) (s : State) (hs : Kept x s) : KeptO x (execTick cal offsetFault s) := by simp (maxDischargeDepth := 9) [execTick, *]
@[simp] theorem kept_execCrystalStop (s : State) (hs : Kept x s) : KeptO x (execCrystalStop s) := by simp (maxDischargeDepth := 9) [execCrystalStop, *]
@[simp] theorem kept_execCrystalRun (s : State) (hs : Kept x s) : KeptO x (execCrystalRun s) := by simp (maxDischargeDepth := 9) [execCrystalRun, *]
@[simp] theorem kept_execRcTrim (s : State) (hs : Kept x s) : KeptO x (execRcTrim s) := by simp (maxDischargeDepth := 9) [execRcTrim, *]
@[simp] theorem kept_warmReset (cause : BitVec 3) (s : State) (hs : Kept x s) : Kept x (warmReset cause s) := by simp (maxDischargeDepth := 9) [warmReset, *]
@[simp] theorem kept_execWarmReset (a0 : Who) (s : State) (hs : Kept x s) : KeptO x (execWarmReset a0 s) := by simp (maxDischargeDepth := 9) [execWarmReset, *]
@[simp] theorem kept_tickCapture (s : State) (hs : Kept x s) : Kept x (tickCapture s) := by simp (maxDischargeDepth := 9) [tickCapture, *]
@[simp] theorem kept_execTickCaptureRead (sub : BitVec 10) (s : State) (hs : Kept x s) : KeptO x (execTickCaptureRead sub s) := by simp (maxDischargeDepth := 9) [execTickCaptureRead, *]
@[simp] theorem kept_recPop (s : State) (hs : Kept x s) : Kept x (recPop s) := by simp (maxDischargeDepth := 9) [recPop, *]
@[simp] theorem kept_execContractRecordPop (s : State) (hs : Kept x s) : KeptO x (execContractRecordPop s) := by simp (maxDischargeDepth := 9) [execContractRecordPop, *]
@[simp] theorem kept_courseSide (a : ℕ) (s : State) (hs : Kept x s) : Kept x (courseSide a s) := by simp (maxDischargeDepth := 9) [courseSide, *]
@[simp] theorem kept_coursePut (a : ℕ) (v : Word) (s : State) (hs : Kept x s) : Kept x (coursePut a v s) := by simp (maxDischargeDepth := 9) [coursePut, *]

end Laws
end Sys2Proof
end

