-- ==== Sys2Proof/Laws/KeptFlags.lean ====
section
/-!
SUPPORT. Every operation of Machine/Flags.lean carries the queue and soundness through.
-/
namespace Sys2Proof
namespace Laws
open Machine

variable {x : Carry}

@[simp] theorem kept_Core_setZN (k : Core) (r : Word) (hk : CoreK x k) : CoreK x (Core.setZN k r) := by simp (maxDischargeDepth := 9) [Core.setZN, *]
@[simp] theorem kept_Core_setFlags (k : Core) (r : Res) (hk : CoreK x k) : CoreK x (Core.setFlags k r) := by simp (maxDischargeDepth := 9) [Core.setFlags, *]
@[simp] theorem kept_Core_putSt (k : Core) (w : Word) (hk : CoreK x k) : CoreK x (Core.putSt k w) := by simp (maxDischargeDepth := 9) [Core.putSt, *]

end Laws
end Sys2Proof
end

