-- ==== Sys2Proof/Laws/KeptPins.lean ====
section
/-!
SUPPORT. Every operation of Machine/Pins.lean carries the queue and soundness through.
-/
namespace Sys2Proof
namespace Laws
open Machine

variable {x : Carry}

@[simp] theorem kept_execPinInputChange (pin : BitVec 6) (level : Bool) (s : State) (hs : Kept x s) : KeptO x (execPinInputChange pin level s) := by simp (maxDischargeDepth := 9) [execPinInputChange, *]
@[simp] theorem kept_outPut (g : ℕ) (c : CoreId) (v : Word) (s : State) (hs : Kept x s) : Kept x (outPut g c v s) := by simp (maxDischargeDepth := 9) [outPut, *]
@[simp] theorem kept_oePut (g : ℕ) (c : CoreId) (v : Word) (s : State) (hs : Kept x s) : Kept x (oePut g c v s) := by simp (maxDischargeDepth := 9) [oePut, *]
@[simp] theorem kept_execPinOutputWrite (who : Who) (g : PinBank) (v : BitVec 16) (s : State) (hs : Kept x s) : KeptO x (execPinOutputWrite who g v s) := by simp (maxDischargeDepth := 9) [execPinOutputWrite, *]
@[simp] theorem kept_execPinEnableWrite (who : Who) (g : PinBank) (v : BitVec 16) (s : State) (hs : Kept x s) : KeptO x (execPinEnableWrite who g v s) := by simp (maxDischargeDepth := 9) [execPinEnableWrite, *]
@[simp] theorem kept_execVioReturn (bank : PinBank) (s : State) (hs : Kept x s) : KeptO x (execVioReturn bank s) := by simp (maxDischargeDepth := 9) [execVioReturn, *]
@[simp] theorem kept_pinPut (a : ℕ) (v : Word) (c : CoreId) (s : State) (hs : Kept x s) : Kept x (pinPut a v c s) := by simp (maxDischargeDepth := 9) [pinPut, *]

end Laws
end Sys2Proof
end

