-- ==== Sys2Proof/Laws/KeptRtc.lean ====
section
/-!
SUPPORT. Every operation of Machine/Rtc.lean carries the queue and soundness through.
-/
namespace Sys2Proof
namespace Laws
open Machine

variable {x : Carry}

@[simp] theorem kept_calAdvance (s : State) (hs : Kept x s) : Kept x (calAdvance s) := by simp (maxDischargeDepth := 9) [calAdvance, *]
@[simp] theorem kept_calDivide (n : ℕ) (s : State) (hs : Kept x s) : Kept x (calDivide n s) := by
  induction n generalizing s with
  | zero => exact hs
  | succ n ih =>
    unfold calDivide
    split
    · exact ih _ (by simp [hs])
    · exact hs

@[simp] theorem kept_execCalendarTick (s : State) (hs : Kept x s) : KeptO x (execCalendarTick s) := by simp (maxDischargeDepth := 9) [execCalendarTick, *]
@[simp] theorem kept_calLoad (s : State) (hs : Kept x s) : Kept x (calLoad s) := by simp (maxDischargeDepth := 9) [calLoad, *]
@[simp] theorem kept_execCalendarLoad (a0 : Who) (s : State) (hs : Kept x s) : KeptO x (execCalendarLoad a0 s) := by simp (maxDischargeDepth := 9) [execCalendarLoad, *]
@[simp] theorem kept_calCapture (s : State) (hs : Kept x s) : Kept x (calCapture s) := by simp (maxDischargeDepth := 9) [calCapture, *]
@[simp] theorem kept_execCalendarCapture (s : State) (hs : Kept x s) : KeptO x (execCalendarCapture s) := by simp (maxDischargeDepth := 9) [execCalendarCapture, *]
@[simp] theorem kept_rtcSide (a : ℕ) (s : State) (hs : Kept x s) : Kept x (rtcSide a s) := by simp (maxDischargeDepth := 9) [rtcSide, *]
@[simp] theorem kept_rtcPut (a : ℕ) (v : Word) (s : State) (hs : Kept x s) : Kept x (rtcPut a v s) := by simp (maxDischargeDepth := 9) [rtcPut, *]

end Laws
end Sys2Proof
end

