-- ==== Sys2Proof/Laws/KeptSill.lean ====
section
/-!
SUPPORT. Every operation of Machine/Sill.lean carries the queue and soundness through.
-/
namespace Sys2Proof
namespace Laws
open Machine

variable {x : Carry}

@[simp] theorem kept_Sill_restart (a0 : Sill) (ha0 : SillK x a0) : SillK x (Sill.restart a0) := by simp (maxDischargeDepth := 9) [Sill.restart, *]
@[simp] theorem kept_Sill_load (c : SillCfg) : SillK x (Sill.load c) := by simp (maxDischargeDepth := 9) [Sill.load, *]
@[simp] theorem kept_Sill_thaw (a0 : Sill) (ha0 : SillK x a0) : SillK x (Sill.thaw a0) := by simp (maxDischargeDepth := 9) [Sill.thaw, *]
@[simp] theorem kept_thrAll (ch : BitVec 4) (signed : Bool) (clip : Bool) (a3 : ThrCfg → SampleRange) (s : Sill) (hs : SillK x s) : SillK x (thrAll ch signed clip a3 s) := by simp (maxDischargeDepth := 9) [thrAll, *]
@[simp] theorem kept_thrClear (s : Sill) (hs : SillK x s) : SillK x (thrClear s) := by simp (maxDischargeDepth := 9) [thrClear, *]
@[simp] theorem kept_shPush (code : Word) (tag : Word) (a2 : Sill) (ha2 : SillK x a2) : SillK x (shPush code tag a2) := by
  unfold shPush
  have h := ha2.queue
  (repeat' split)
  · simp [h]
  · simp
    intro _; simp; omega
@[simp] theorem kept_autorange (miss : Bool) (clip : Bool) (settle : Bool) (code : ℤ) (a4 : Sill) (ha4 : SillK x a4) : SillK x (autorange miss clip settle code a4) := by
  unfold autorange
  (repeat' split) <;> simp (maxDischargeDepth := 9) [*]
@[simp] theorem kept_sillMiss (a0 : Sill) (ha0 : SillK x a0) : SillK x (sillMiss a0) := by
  simp only [sillMiss, keptO_next]
  (repeat' split) <;> simp (maxDischargeDepth := 9) [*]
@[simp] theorem kept_sillStart (tick : BitVec 48) (sub : BitVec 10) (a2 : Sill) (ha2 : SillK x a2) : SillK x (sillStart tick sub a2) := by
  simp only [sillStart, keptO_next]
  (repeat' split) <;> simp (maxDischargeDepth := 9) [*]
@[simp] theorem kept_execSillSampleInstant (sub : BitVec 10) (s : State) (hs : Kept x s) : KeptO x (execSillSampleInstant sub s) := by
  have h1 : Kept x (s.atSub sub) := kept_State_atSub s sub hs
  rw [execSillSampleInstant, keptO_next]
  generalize s.atSub sub = r at h1
  dsimp only
  (repeat' split)
  · simp [h1]
  · simp [h1]
  · exact h1
@[simp] theorem kept_shLand (b : SillBurst) (conv : List Word) (clip : Option Bool) (cmBad : Bool) (a4 : Sill) (ha4 : SillK x a4) : SillK x (shLand b conv clip cmBad a4) := by simp (maxDischargeDepth := 9) [shLand, *]
@[simp] theorem kept_auxLand (n : ℕ) (conv : List Word) (a2 : Sill) (ha2 : SillK x a2) : SillK x (auxLand n conv a2) := by simp (maxDischargeDepth := 9) [auxLand, *]
@[simp] theorem kept_tempLand (t : Word) (a1 : Sill) (ha1 : SillK x a1) : SillK x (tempLand t a1) := by simp (maxDischargeDepth := 9) [tempLand, *]
@[simp] theorem kept_execSillBurstLand (sh : List (BitVec 16)) (shClip : Option Bool) (cmBad : Bool) (aux : List (BitVec 16)) (temp : Option (BitVec 16)) (s : State) (hs : Kept x s) : KeptO x (execSillBurstLand sh shClip cmBad aux temp s) := by
  simp only [execSillBurstLand, keptO_next]
  (repeat' split) <;> simp (maxDischargeDepth := 9) [*]
@[simp] theorem kept_execSillTempLand (t : BitVec 16) (s : State) (hs : Kept x s) : KeptO x (execSillTempLand t s) := by simp (maxDischargeDepth := 9) [execSillTempLand, *]
@[simp] theorem kept_shPop (a0 : Sill) (ha0 : SillK x a0) : SillK x (shPop a0).2 := by
  unfold shPop
  have h := ha0.queue
  split
  · simp [h]
  · rename_i e
    rw [e] at h
    simp only [sillK_mk]
    exact fun i => Nat.le_of_succ_le (h i)
@[simp] theorem kept_execSillShuntPop (s : State) (hs : Kept x s) : KeptO x (execSillShuntPop s) := by simp (maxDischargeDepth := 9) [execSillShuntPop, *]
@[simp] theorem kept_sillCtl (v : Word) (a1 : Sill) (ha1 : SillK x a1) : SillK x (sillCtl v a1) := by
  simp only [sillCtl, keptO_next]
  (repeat' split) <;> simp (maxDischargeDepth := 9) [*]
@[simp] theorem kept_execSillCtlWrite (who : Who) (v : BitVec 16) (s : State) (hs : Kept x s) : KeptO x (execSillCtlWrite who v s) := by simp (maxDischargeDepth := 9) [execSillCtlWrite, *]
@[simp] theorem kept_auxCapture (n : ℕ) (a1 : Sill) (ha1 : SillK x a1) : SillK x (auxCapture n a1) := by simp (maxDischargeDepth := 9) [auxCapture, *]
@[simp] theorem kept_execSillAuxCapture (n : BitVec 3) (s : State) (hs : Kept x s) : KeptO x (execSillAuxCapture n s) := by simp (maxDischargeDepth := 9) [execSillAuxCapture, *]
@[simp] theorem kept_rseqCapture (a0 : Sill) (ha0 : SillK x a0) : SillK x (rseqCapture a0) := by simp (maxDischargeDepth := 9) [rseqCapture, *]
@[simp] theorem kept_rtickCapture (a0 : Sill) (ha0 : SillK x a0) : SillK x (rtickCapture a0) := by simp (maxDischargeDepth := 9) [rtickCapture, *]
@[simp] theorem kept_execSillResumeCapture (hi : Bool) (s : State) (hs : Kept x s) : KeptO x (execSillResumeCapture hi s) := by simp (maxDischargeDepth := 9) [execSillResumeCapture, *]
@[simp] theorem kept_qinCapture (a0 : Sill) (ha0 : SillK x a0) : SillK x (qinCapture a0) := by simp (maxDischargeDepth := 9) [qinCapture, *]
@[simp] theorem kept_qoutCapture (a0 : Sill) (ha0 : SillK x a0) : SillK x (qoutCapture a0) := by simp (maxDischargeDepth := 9) [qoutCapture, *]
@[simp] theorem kept_execStoreChargeCapture (hi : Bool) (s : State) (hs : Kept x s) : KeptO x (execStoreChargeCapture hi s) := by simp (maxDischargeDepth := 9) [execStoreChargeCapture, *]
@[simp] theorem kept_sillSide (a : ℕ) (s : State) (hs : Kept x s) : Kept x (sillSide a s) := by simp (maxDischargeDepth := 9) [sillSide, *]
@[simp] theorem kept_sillPut (a : ℕ) (v : Word) (s : State) (hs : Kept x s) : Kept x (sillPut a v s) := by simp (maxDischargeDepth := 9) [sillPut, *]

end Laws
end Sys2Proof
end

