-- ==== Sys2Proof/Laws/KeptIo.lean ====
section
/-!
SUPPORT. Every operation of Machine/Io.lean carries the queue and soundness through.
-/
namespace Sys2Proof
namespace Laws
open Machine

variable {x : Carry}

@[simp] theorem kept_Store_slot (a0 : Store) (n : Bool) (ha0 : ImgK x a0) : SlotK x (Store.slot a0 n) := by
  unfold Store.slot
  (repeat' split) <;> simp (maxDischargeDepth := 9) [*]
@[simp] theorem kept_tieLfPop (s : State) (hs : Kept x s) : Kept x (tieLfPop s) := by simp (maxDischargeDepth := 9) [tieLfPop, *]
@[simp] theorem kept_execTieLateFaultPop (s : State) (hs : Kept x s) : KeptO x (execTieLateFaultPop s) := by simp (maxDischargeDepth := 9) [execTieLateFaultPop, *]
@[simp] theorem kept_memSide (a : ℕ) (s : State) (hs : Kept x s) : Kept x (memSide a s) := by simp (maxDischargeDepth := 9) [memSide, *]
@[simp] theorem kept_memPut (a : ℕ) (v : Word) (s : State) (hs : Kept x s) : Kept x (memPut a v s) := by simp (maxDischargeDepth := 9) [memPut, *]
@[simp] theorem kept_ioSide (c : CoreId) (a : ℕ) (s : State) (hs : Kept x s) : Kept x (ioSide c a s) := by simp (maxDischargeDepth := 9) [ioSide, *]
@[simp] theorem kept_resetPut (v : Word) (s : State) (hs : Kept x s) : Kept x (resetPut v s) := by simp (maxDischargeDepth := 9) [resetPut, *]
@[simp] theorem kept_ioPut (who : Who) (a : ℕ) (v : Word) (s : State) (hs : Kept x s) : Kept x (ioPut who a v s) := by
  simp only [ioPut, kept_ite]
  (repeat' refine ⟨fun _ => ?_, fun _ => ?_⟩) <;> first
    | simp (maxDischargeDepth := 9) [hs]; done
    | exact kept_orReject _ _ _ _ _ hs (kept_panePut _ _ _ hs)
@[simp] theorem kept_execRegisterWrite (who : Who) (a : BitVec 12) (v : BitVec 16) (s : State) (hs : Kept x s) : KeptO x (execRegisterWrite who a v s) := by simp (maxDischargeDepth := 9) [execRegisterWrite, *]
@[simp] theorem kept_tiePost (p : Posted) (s : State) (hs : Kept x s) : Kept x (tiePost p s) := by
  unfold tiePost
  have h := hs.tie.post
  split
  · simp [hs]
  · simp [hs]
    intro _; simp; omega
@[simp] theorem kept_derzorWrite (p : Posted) (s : State) (hs : Kept x s) : Kept x (derzorWrite p s) := by
  unfold derzorWrite
  dsimp only
  split
  · simp [hs]
  · split
    · exact kept_panePut _ _ _ hs _ ‹_›
    · simp [hs]
@[simp] theorem kept_Core_advance (k : Core) (hk : CoreK x k) : CoreK x (Core.advance k) := by simp (maxDischargeDepth := 9) [Core.advance, *]
@[simp] theorem kept_tieDone (s : State) (hs : Kept x s) : Kept x (tieDone s) := by simp (maxDischargeDepth := 9) [tieDone, *]
@[simp] theorem kept_execTieWriteDeliver (parity : Bool) (s : State) (hs : Kept x s) : KeptO x (execTieWriteDeliver parity s) := by
  unfold execTieWriteDeliver
  (repeat' split) <;> simp (maxDischargeDepth := 9) [*]
@[simp] theorem kept_execTieWriteTimeout (s : State) (hs : Kept x s) : KeptO x (execTieWriteTimeout s) := by
  unfold execTieWriteTimeout
  (repeat' split) <;> simp (maxDischargeDepth := 9) [*]
@[simp] theorem kept_readFault (who : Who) (a : BitVec 12) (f : TieFail) (s : State) (hs : Kept x s) : Kept x (readFault who a f s) := by simp (maxDischargeDepth := 9) [readFault, *]
@[simp] theorem kept_tieRead (who : Who) (a : BitVec 12) (fail : Option TieFail) (s : State) (hs : Kept x s) : Kept x (tieRead who a fail s).2 := by
  unfold tieRead
  (repeat' split) <;> simp (maxDischargeDepth := 9) [*]
@[simp] theorem kept_coreReadEnd (c : CoreId) (fail : Option TieFail) (s : State) (hs : Kept x s) : Kept x (coreReadEnd c fail s) := by
  simp only [coreReadEnd, keptO_next]
  (repeat' split) <;> simp (maxDischargeDepth := 9) [*]
@[simp] theorem kept_hingeReadEnd (fail : Option TieFail) (s : State) (hs : Kept x s) : Kept x (hingeReadEnd fail s) := by
  simp only [hingeReadEnd, keptO_next]
  (repeat' split) <;> simp (maxDischargeDepth := 9) [*]
@[simp] theorem kept_execTieReadComplete (who : Who) (fail : Option TieFail) (s : State) (hs : Kept x s) : KeptO x (execTieReadComplete who fail s) := by
  unfold execTieReadComplete
  (repeat' split) <;> simp (maxDischargeDepth := 9) [*]

end Laws
end Sys2Proof
end

