-- ==== Sys2Proof/Laws/KeptOperands.lean ====
section
/-!
SUPPORT. Every operation of Machine/Operands.lean carries the queue and soundness through.
-/
namespace Sys2Proof
namespace Laws
open Machine

variable {x : Carry}

@[simp] theorem kept_Core_put (k : Core) (d : Reg) (v : Word) (hk : CoreK x k) : CoreK x (Core.put k d v) := by simp (maxDischargeDepth := 9) [Core.put, *]
@[simp] theorem kept_Core_putSpecial (k : Core) (n : BitVec 4) (v : Word) (hk : CoreK x k) : CoreK x (Core.putSpecial k n v) := by
  unfold Core.putSpecial
  (repeat' split) <;> simp (maxDischargeDepth := 9) [*]

end Laws
end Sys2Proof
end

