-- ==== Sys2Proof/Laws/KeptIssue.lean ====
section
/-!
SUPPORT. Every operation of Machine/Issue.lean carries the queue and soundness through.
-/
namespace Sys2Proof
namespace Laws
open Machine

variable {x : Carry}

@[simp] theorem kept_landOne (k : Core) (r : AuRes) (hk : CoreK x k) : CoreK x (landOne k r) := by
  simp only [landOne, keptO_next]
  (repeat' split) <;> simp (maxDischargeDepth := 9) [*]
@[simp] theorem kept_Core_landDue (k : Core) (hk : CoreK x k) : CoreK x (Core.landDue k) := by
  simp only [Core.landDue]
  exact coreK_foldl (fun k a h => kept_landOne k a h) _ (by simp [*])
@[simp] theorem kept_Core_landAll (k : Core) (hk : CoreK x k) : CoreK x (Core.landAll k) := by
  simp only [Core.landAll]
  exact coreK_foldl (fun k n h => coreK_foldl (fun k a h => kept_landOne k a h) _ (by simp [*])) _ (by simp [*])
@[simp] theorem kept_Core_spend (k : Core) (n : ℕ) (hk : CoreK x k) : CoreK x (Core.spend k n) := by simp (maxDischargeDepth := 9) [Core.spend, *]
@[simp] theorem kept_Core_fetched (k : Core) (words : ℕ) (discarded : Bool) (hk : CoreK x k) : CoreK x (Core.fetched k words discarded) := by simp (maxDischargeDepth := 9) [Core.fetched, *]
@[simp] theorem kept_Core_growReturn (k : Core) (words : ℕ) (hk : CoreK x k) : CoreK x (Core.growReturn k words) := by
  unfold Core.growReturn
  (repeat' split) <;> simp (maxDischargeDepth := 9) [*]
@[simp] theorem kept_Core_advancePc (k : Core) (words : ℕ) (hk : CoreK x k) : CoreK x (Core.advancePc k words) := by simp (maxDischargeDepth := 9) [Core.advancePc, *]
@[simp] theorem kept_issueTrap (c : CoreId) (t : Trap) (words : ℕ) (s : State) (hs : Kept x s) : Kept x (issueTrap c t words s) := by simp (maxDischargeDepth := 9) [issueTrap, *]
@[simp] theorem kept_issue (c : CoreId) (words : ℕ) (ill : Core → Option (BitVec 4)) (body : State → Effect) (s : State) (hbody : ∀ y, Kept x y → KeptE x (body y)) (hs : Kept x s) : Kept x (issue c words ill body s) := by
  unfold issue
  split
  · dsimp only
    split
    · exact kept_issueTrap _ _ _ _ (by simp (maxDischargeDepth := 9) [*])
    · split
      · exact kept_issueTrap _ _ _ _ (by simp (maxDischargeDepth := 9) [*])
      · rename_i h
        have := hbody _ (show Kept x ((s.setCore c (s.core c).landDue).setCore c (((s.setCore c (s.core c).landDue).core c).advancePc words)) from
          by simp (maxDischargeDepth := 9) [*]) _ _ h
        simp (maxDischargeDepth := 9) [*]
  · exact hs
@[simp] theorem kept_onCore (c : CoreId) (f : Core → Core) (s : State) (hf : ∀ y, CoreK x y → CoreK x (f y)) (hs : Kept x s) : KeptE x (onCore c f s) := by simp (maxDischargeDepth := 9) [onCore, *]
@[simp] theorem kept_early (c : CoreId) (n : BitVec 4) (f : State → Effect) (s : State) (hf : ∀ y, Kept x y → KeptE x (f y)) (hs : Kept x s) : KeptE x (early c n f s) := by
  unfold early
  (repeat' split) <;> simp (maxDischargeDepth := 9) [*]

end Laws
end Sys2Proof
end

