-- ==== Sys2Proof/Laws/KeptData.lean ====
section
/-!
SUPPORT. Every operation of Machine/Data.lean carries the queue and soundness through.
-/
namespace Sys2Proof
namespace Laws
open Machine

variable {x : Carry}

@[simp] theorem kept_dataReadB (r : Reader) (c : CoreId) (a : ℕ) (s : State) (hs : Kept x s) : Kept x (dataReadB r c a s).2 := by
  unfold dataReadB
  (repeat' split) <;> simp (maxDischargeDepth := 9) [*]
@[simp] theorem kept_dataReadW (r : Reader) (c : CoreId) (a : ℕ) (s : State) (hs : Kept x s) : Kept x (dataReadW r c a s).2 := by
  simp only [dataReadW, keptO_next]
  (repeat' split) <;> simp (maxDischargeDepth := 9) [*]
@[simp] theorem kept_dataWriteB (r : Reader) (c : CoreId) (a : ℕ) (v : Byte) (s : State) (hs : Kept x s) : Kept x (dataWriteB r c a v s) := by simp (maxDischargeDepth := 9) [dataWriteB, *]
@[simp] theorem kept_dataWriteW (c : CoreId) (a : ℕ) (v : Word) (s : State) (hs : Kept x s) : Kept x (dataWriteW c a v s) := by simp (maxDischargeDepth := 9) [dataWriteW, *]
@[simp] theorem kept_snapUnit (c : CoreId) (e : SnapElem) (i : ℕ) (s : State) (hs : Kept x s) : Kept x (snapUnit c e i s).2 := by
  unfold snapUnit
  (repeat' split) <;> simp (maxDischargeDepth := 9) [*]
@[simp] theorem kept_State_putSnapFlt (s : State) (c : CoreId) (f : SnapFlt) (hs : Kept x s) : Kept x (State.putSnapFlt s c f) := by
  unfold State.putSnapFlt
  (repeat' split) <;> simp (maxDischargeDepth := 9) [*]
@[simp] theorem kept_snapFault (c : CoreId) (index : ℕ) (e : SnapElem) (i : ℕ) (reason : BitVec 3) (s : State) (hs : Kept x s) : Kept x (snapFault c index e i reason s) := by simp (maxDischargeDepth := 9) [snapFault, *]
@[simp] theorem kept_snapUnits (c : CoreId) (e : SnapElem) (fail : Option ℕ) (l : List ℕ) (t : ℕ) (s : State) (hs : Kept x s) :
    Kept x (snapUnits c e fail l t s).2.2.2 := by
  induction l generalizing t s with
  | nil => exact hs
  | cons i l ih =>
    unfold snapUnits
    dsimp only
    split
    · exact hs
    · exact ih _ _ (kept_snapUnit _ _ _ _ hs)

@[simp] theorem kept_snapElems (c : CoreId) (fail : Option ℕ) (l : List SnapElem) (g : Gather) (s : State) (hs : Kept x s) :
    Kept x (snapElems c fail l g s).2 := by
  induction l generalizing g s with
  | nil => exact hs
  | cons e l ih =>
    unfold snapElems
    split
    · simp [hs]
    · have h := kept_snapUnits c e fail (List.range e.units) g.tie s hs
      split <;> rename_i q <;> rw [q] at h
      · simp only [kept_snapFault _ _ _ _ _ _ h]
      · exact ih _ _ h

@[simp] theorem kept_vReplace (seq : BitVec 32) (flags : Byte) (body : List Byte) (v : Vault) (hv : VltK x v) : VltK x (vReplace seq flags body v) := by simp (maxDischargeDepth := 9) [vReplace, *]
@[simp] theorem kept_snapRead (c : CoreId) (n a : ℕ) (s : State) (hs : Kept x s) : Kept x (snapRead c n a s).2 := by
  induction n generalizing a s with
  | zero => exact hs
  | succ n ih => exact ih _ _ (kept_sramRead _ _ _ hs)

@[simp] theorem kept_snapHeaderFault (c : CoreId) (list : Word) (s : State) (hs : Kept x s) : Kept x (snapHeaderFault c list s) := by simp (maxDischargeDepth := 9) [snapHeaderFault, *]
@[simp] theorem kept_snapRun (c : CoreId) (list : Word) (fail : Option ℕ) (s : State) (hs : Kept x s) : Kept x (snapRun c list fail s).2.2 := by
  unfold snapRun
  split
  rename_i q
  have h0 := kept_sramRead (.core c) list.toNat s hs
  rw [q] at h0
  extract_lets ok s1 n
  have h1 : Kept x s1 := by simp only [s1]; split <;> simp [h0]
  split
  rename_i q2
  have h2 := kept_snapRead c (2 * n) (list.toNat + 2) s1 h1
  rw [q2] at h2
  extract_lets es room
  split
  · rename_i s3 q3
    have h4 : Kept x s3 := by
      rw [show s3 = _ from (congrArg Prod.snd q3).symm]
      exact kept_offer _ _ _ _ _ _ _ _ _ h2
    simp (maxDischargeDepth := 9) [h4]
  · rename_i s3 hne q3
    rw [show s3 = _ from (congrArg Prod.snd q3).symm]
    exact kept_offer _ _ _ _ _ _ _ _ _ h2
@[simp] theorem kept_execSnapComplete (c : CoreId) (fail : Option ℕ) (s : State) (hs : Kept x s) : KeptO x (execSnapComplete c fail s) := by
  simp only [execSnapComplete, keptO_next]
  (repeat' split) <;> simp (maxDischargeDepth := 9) [*]

end Laws
end Sys2Proof
end

