-- ==== Sys2Proof/Laws/KeptAccess.lean ====
section
/-!
SUPPORT. Every operation of Machine/Access.lean carries the queue and soundness through.
-/
namespace Sys2Proof
namespace Laws
open Machine

variable {x : Carry}

@[simp] theorem kept_regIn (c : CoreId) (d : Reg) (r : Word × State) (hr : Kept x r.2) : Kept x (regIn c d r) := by
  simp (maxDischargeDepth := 9) [regIn, hr]

@[simp] theorem kept_loadWord (c : CoreId) (d : Reg) (a : Core → Word) (s : State) (hs : Kept x s) : KeptE x (loadWord c d a s) := by
  simp only [loadWord, keptO_next]
  (repeat' split) <;> simp (maxDischargeDepth := 9) [*]
@[simp] theorem kept_loadByte (c : CoreId) (d : Reg) (a : Core → Word) (s : State) (hs : Kept x s) : KeptE x (loadByte c d a s) := by
  simp only [loadByte, keptO_next]
  (repeat' split) <;> simp (maxDischargeDepth := 9) [*]
@[simp] theorem kept_storeWord (c : CoreId) (d : Reg) (a : Core → Word) (s : State) (hs : Kept x s) : KeptE x (storeWord c d a s) := by
  simp only [storeWord, keptO_next]
  (repeat' split) <;> simp (maxDischargeDepth := 9) [*]
@[simp] theorem kept_storeByte (c : CoreId) (d : Reg) (a : Core → Word) (s : State) (hs : Kept x s) : KeptE x (storeByte c d a s) := by
  simp only [storeByte, keptO_next]
  (repeat' split) <;> simp (maxDischargeDepth := 9) [*]
@[simp] theorem kept_loadCode (c : CoreId) (d : Reg) (a : Core → Word) (s : State) (hs : Kept x s) : KeptE x (loadCode c d a s) := by simp (maxDischargeDepth := 9) [loadCode, *]
@[simp] theorem kept_ioUnmapped (c : CoreId) (write : Bool) (a : BitVec 12) (s : State) (t : State) (hs : Kept x s) (ht : Kept x t) : KeptE x (ioUnmapped c write a s t) := by
  unfold ioUnmapped
  (repeat' split) <;> simp (maxDischargeDepth := 9) [*]
@[simp] theorem kept_inWordOp (c : CoreId) (d : Reg) (a : Core → BitVec 12) (s : State) (hs : Kept x s) : KeptE x (inWordOp c d a s) := by
  simp only [inWordOp, keptO_next]
  (repeat' split) <;> simp (maxDischargeDepth := 9) [*]
@[simp] theorem kept_outWordOp (c : CoreId) (d : Reg) (a : Core → BitVec 12) (s : State) (hs : Kept x s) : KeptE x (outWordOp c d a s) := by
  simp only [outWordOp, keptO_next]
  (repeat' split) <;> simp (maxDischargeDepth := 9) [*]
@[simp] theorem kept_bitOp (c : CoreId) (n : BitVec 4) (b : Bool) (a : Core → BitVec 12) (s : State) (hs : Kept x s) : KeptE x (bitOp c n b a s) := by
  simp only [bitOp, keptO_next]
  (repeat' split) <;> simp (maxDischargeDepth := 9) [*]
@[simp] theorem kept_execCLd (c : CoreId) (d : Reg) (b : Reg) (u : BitVec 4) (s : State) (hs : Kept x s) : KeptO x (execCLd c d b u s) := by
  unfold execCLd
  (repeat' split) <;> simp_all (maxDischargeDepth := 9)
@[simp] theorem kept_execCSt (c : CoreId) (d : Reg) (b : Reg) (u : BitVec 4) (s : State) (hs : Kept x s) : KeptO x (execCSt c d b u s) := by
  unfold execCSt
  (repeat' split) <;> simp_all (maxDischargeDepth := 9)
@[simp] theorem kept_execCLdb (c : CoreId) (d : Reg) (b : Reg) (u : BitVec 4) (s : State) (hs : Kept x s) : KeptO x (execCLdb c d b u s) := by
  unfold execCLdb
  (repeat' split) <;> simp_all (maxDischargeDepth := 9)
@[simp] theorem kept_execCStb (c : CoreId) (d : Reg) (b : Reg) (u : BitVec 4) (s : State) (hs : Kept x s) : KeptO x (execCStb c d b u s) := by
  unfold execCStb
  (repeat' split) <;> simp_all (maxDischargeDepth := 9)
@[simp] theorem kept_execCLdx (c : CoreId) (d : Reg) (b : Reg) (v : Word) (s : State) (hs : Kept x s) : KeptO x (execCLdx c d b v s) := by
  unfold execCLdx
  (repeat' split) <;> simp_all (maxDischargeDepth := 9)
@[simp] theorem kept_execCStx (c : CoreId) (d : Reg) (b : Reg) (v : Word) (s : State) (hs : Kept x s) : KeptO x (execCStx c d b v s) := by
  unfold execCStx
  (repeat' split) <;> simp_all (maxDischargeDepth := 9)
@[simp] theorem kept_execCLdbx (c : CoreId) (d : Reg) (b : Reg) (v : Word) (s : State) (hs : Kept x s) : KeptO x (execCLdbx c d b v s) := by
  unfold execCLdbx
  (repeat' split) <;> simp_all (maxDischargeDepth := 9)
@[simp] theorem kept_execCStbx (c : CoreId) (d : Reg) (b : Reg) (v : Word) (s : State) (hs : Kept x s) : KeptO x (execCStbx c d b v s) := by
  unfold execCStbx
  (repeat' split) <;> simp_all (maxDischargeDepth := 9)
@[simp] theorem kept_execCLdp (c : CoreId) (d : Reg) (a2 : Reg) (s : State) (hs : Kept x s) : KeptO x (execCLdp c d a2 s) := by
  unfold execCLdp
  (repeat' split) <;> simp_all (maxDischargeDepth := 9)
@[simp] theorem kept_execCLdpx (c : CoreId) (d : Reg) (b : Reg) (v : Word) (s : State) (hs : Kept x s) : KeptO x (execCLdpx c d b v s) := by
  unfold execCLdpx
  (repeat' split) <;> simp_all (maxDischargeDepth := 9)
@[simp] theorem kept_execCIn (c : CoreId) (d : Reg) (a2 : Reg) (s : State) (hs : Kept x s) : KeptO x (execCIn c d a2 s) := by
  unfold execCIn
  (repeat' split) <;> simp_all (maxDischargeDepth := 9)
@[simp] theorem kept_execCOut (c : CoreId) (d : Reg) (a2 : Reg) (s : State) (hs : Kept x s) : KeptO x (execCOut c d a2 s) := by
  unfold execCOut
  (repeat' split) <;> simp_all (maxDischargeDepth := 9)
@[simp] theorem kept_execCInImm (c : CoreId) (d : Reg) (a : BitVec 12) (s : State) (hs : Kept x s) : KeptO x (execCInImm c d a s) := by
  unfold execCInImm
  (repeat' split) <;> simp_all (maxDischargeDepth := 9)
@[simp] theorem kept_execCOutImm (c : CoreId) (d : Reg) (a : BitVec 12) (s : State) (hs : Kept x s) : KeptO x (execCOutImm c d a s) := by
  unfold execCOutImm
  (repeat' split) <;> simp_all (maxDischargeDepth := 9)
@[simp] theorem kept_execCSetbImm (c : CoreId) (n : BitVec 4) (a : BitVec 12) (s : State) (hs : Kept x s) : KeptO x (execCSetbImm c n a s) := by
  unfold execCSetbImm
  (repeat' split) <;> simp_all (maxDischargeDepth := 9)
@[simp] theorem kept_execCClrbImm (c : CoreId) (n : BitVec 4) (a : BitVec 12) (s : State) (hs : Kept x s) : KeptO x (execCClrbImm c n a s) := by
  unfold execCClrbImm
  (repeat' split) <;> simp_all (maxDischargeDepth := 9)
@[simp] theorem kept_execCSetb (c : CoreId) (n : BitVec 4) (a2 : Reg) (s : State) (hs : Kept x s) : KeptO x (execCSetb c n a2 s) := by
  unfold execCSetb
  (repeat' split) <;> simp_all (maxDischargeDepth := 9)
@[simp] theorem kept_execCClrb (c : CoreId) (n : BitVec 4) (a2 : Reg) (s : State) (hs : Kept x s) : KeptO x (execCClrb c n a2 s) := by
  unfold execCClrb
  (repeat' split) <;> simp_all (maxDischargeDepth := 9)

end Laws
end Sys2Proof
end

