-- ==== Sys2Proof/Laws/KeptAlu.lean ====
section
/-!
SUPPORT. Every operation of Machine/Alu.lean carries the queue and soundness through.
-/
namespace Sys2Proof
namespace Laws
open Machine

variable {x : Carry}

@[simp] theorem kept_Core_arith (k : Core) (d : Reg) (r : Res) (hk : CoreK x k) : CoreK x (Core.arith k d r) := by simp (maxDischargeDepth := 9) [Core.arith, *]
@[simp] theorem kept_Core_logic (k : Core) (d : Reg) (r : Word) (hk : CoreK x k) : CoreK x (Core.logic k d r) := by simp (maxDischargeDepth := 9) [Core.logic, *]
@[simp] theorem kept_Core_shift (k : Core) (d : Reg) (f : Word → BitVec 4 → Bool → Word × Bool) (n : BitVec 4) (hk : CoreK x k) : CoreK x (Core.shift k d f n) := by simp (maxDischargeDepth := 9) [Core.shift, *]
@[simp] theorem kept_execCAdd (c : CoreId) (d : Reg) (a2 : Reg) (y : Reg) (s : State) (hs : Kept x s) : KeptO x (execCAdd c d a2 y s) := by
  unfold execCAdd
  (repeat' split) <;> simp_all (maxDischargeDepth := 9)
@[simp] theorem kept_execCSub (c : CoreId) (d : Reg) (a2 : Reg) (y : Reg) (s : State) (hs : Kept x s) : KeptO x (execCSub c d a2 y s) := by
  unfold execCSub
  (repeat' split) <;> simp_all (maxDischargeDepth := 9)
@[simp] theorem kept_execCMov (c : CoreId) (d : Reg) (a2 : Reg) (s : State) (hs : Kept x s) : KeptO x (execCMov c d a2 s) := by
  unfold execCMov
  (repeat' split) <;> simp_all (maxDischargeDepth := 9)
@[simp] theorem kept_execCAnd (c : CoreId) (d : Reg) (a2 : Reg) (s : State) (hs : Kept x s) : KeptO x (execCAnd c d a2 s) := by
  unfold execCAnd
  (repeat' split) <;> simp_all (maxDischargeDepth := 9)
@[simp] theorem kept_execCOr (c : CoreId) (d : Reg) (a2 : Reg) (s : State) (hs : Kept x s) : KeptO x (execCOr c d a2 s) := by
  unfold execCOr
  (repeat' split) <;> simp_all (maxDischargeDepth := 9)
@[simp] theorem kept_execCXor (c : CoreId) (d : Reg) (a2 : Reg) (s : State) (hs : Kept x s) : KeptO x (execCXor c d a2 s) := by
  unfold execCXor
  (repeat' split) <;> simp_all (maxDischargeDepth := 9)
@[simp] theorem kept_execCAdc (c : CoreId) (d : Reg) (a2 : Reg) (s : State) (hs : Kept x s) : KeptO x (execCAdc c d a2 s) := by
  unfold execCAdc
  (repeat' split) <;> simp_all (maxDischargeDepth := 9)
@[simp] theorem kept_execCSbc (c : CoreId) (d : Reg) (a2 : Reg) (s : State) (hs : Kept x s) : KeptO x (execCSbc c d a2 s) := by
  unfold execCSbc
  (repeat' split) <;> simp_all (maxDischargeDepth := 9)
@[simp] theorem kept_execCCmp (c : CoreId) (d : Reg) (a2 : Reg) (s : State) (hs : Kept x s) : KeptO x (execCCmp c d a2 s) := by
  unfold execCCmp
  (repeat' split) <;> simp_all (maxDischargeDepth := 9)
@[simp] theorem kept_execCTst (c : CoreId) (d : Reg) (a2 : Reg) (s : State) (hs : Kept x s) : KeptO x (execCTst c d a2 s) := by
  unfold execCTst
  (repeat' split) <;> simp_all (maxDischargeDepth := 9)
@[simp] theorem kept_execCNot (c : CoreId) (d : Reg) (a2 : Reg) (s : State) (hs : Kept x s) : KeptO x (execCNot c d a2 s) := by
  unfold execCNot
  (repeat' split) <;> simp_all (maxDischargeDepth := 9)
@[simp] theorem kept_execCNeg (c : CoreId) (d : Reg) (a2 : Reg) (s : State) (hs : Kept x s) : KeptO x (execCNeg c d a2 s) := by
  unfold execCNeg
  (repeat' split) <;> simp_all (maxDischargeDepth := 9)
@[simp] theorem kept_execCShl (c : CoreId) (d : Reg) (a2 : Reg) (s : State) (hs : Kept x s) : KeptO x (execCShl c d a2 s) := by
  unfold execCShl
  (repeat' split) <;> simp_all (maxDischargeDepth := 9)
@[simp] theorem kept_execCShr (c : CoreId) (d : Reg) (a2 : Reg) (s : State) (hs : Kept x s) : KeptO x (execCShr c d a2 s) := by
  unfold execCShr
  (repeat' split) <;> simp_all (maxDischargeDepth := 9)
@[simp] theorem kept_execCSar (c : CoreId) (d : Reg) (a2 : Reg) (s : State) (hs : Kept x s) : KeptO x (execCSar c d a2 s) := by
  unfold execCSar
  (repeat' split) <;> simp_all (maxDischargeDepth := 9)
@[simp] theorem kept_execCRol (c : CoreId) (d : Reg) (a2 : Reg) (s : State) (hs : Kept x s) : KeptO x (execCRol c d a2 s) := by
  unfold execCRol
  (repeat' split) <;> simp_all (maxDischargeDepth := 9)
@[simp] theorem kept_execCSwpb (c : CoreId) (d : Reg) (a2 : Reg) (s : State) (hs : Kept x s) : KeptO x (execCSwpb c d a2 s) := by
  unfold execCSwpb
  (repeat' split) <;> simp_all (maxDischargeDepth := 9)
@[simp] theorem kept_execCSexb (c : CoreId) (d : Reg) (a2 : Reg) (s : State) (hs : Kept x s) : KeptO x (execCSexb c d a2 s) := by
  unfold execCSexb
  (repeat' split) <;> simp_all (maxDischargeDepth := 9)
@[simp] theorem kept_execCLdi (c : CoreId) (d : Reg) (i : BitVec 8) (s : State) (hs : Kept x s) : KeptO x (execCLdi c d i s) := by
  unfold execCLdi
  (repeat' split) <;> simp_all (maxDischargeDepth := 9)
@[simp] theorem kept_execCAddi (c : CoreId) (d : Reg) (i : BitVec 8) (s : State) (hs : Kept x s) : KeptO x (execCAddi c d i s) := by
  unfold execCAddi
  (repeat' split) <;> simp_all (maxDischargeDepth := 9)
@[simp] theorem kept_execCShli (c : CoreId) (d : Reg) (n : BitVec 4) (s : State) (hs : Kept x s) : KeptO x (execCShli c d n s) := by
  unfold execCShli
  (repeat' split) <;> simp_all (maxDischargeDepth := 9)
@[simp] theorem kept_execCShri (c : CoreId) (d : Reg) (n : BitVec 4) (s : State) (hs : Kept x s) : KeptO x (execCShri c d n s) := by
  unfold execCShri
  (repeat' split) <;> simp_all (maxDischargeDepth := 9)
@[simp] theorem kept_execCSari (c : CoreId) (d : Reg) (n : BitVec 4) (s : State) (hs : Kept x s) : KeptO x (execCSari c d n s) := by
  unfold execCSari
  (repeat' split) <;> simp_all (maxDischargeDepth := 9)
@[simp] theorem kept_execCRoli (c : CoreId) (d : Reg) (n : BitVec 4) (s : State) (hs : Kept x s) : KeptO x (execCRoli c d n s) := by
  unfold execCRoli
  (repeat' split) <;> simp_all (maxDischargeDepth := 9)
@[simp] theorem kept_execCLdw (c : CoreId) (d : Reg) (v : Word) (s : State) (hs : Kept x s) : KeptO x (execCLdw c d v s) := by
  unfold execCLdw
  (repeat' split) <;> simp_all (maxDischargeDepth := 9)
@[simp] theorem kept_execCAddw (c : CoreId) (d : Reg) (a2 : Reg) (v : Word) (s : State) (hs : Kept x s) : KeptO x (execCAddw c d a2 v s) := by
  unfold execCAddw
  (repeat' split) <;> simp_all (maxDischargeDepth := 9)
@[simp] theorem kept_execCAndw (c : CoreId) (d : Reg) (a2 : Reg) (v : Word) (s : State) (hs : Kept x s) : KeptO x (execCAndw c d a2 v s) := by
  unfold execCAndw
  (repeat' split) <;> simp_all (maxDischargeDepth := 9)
@[simp] theorem kept_execCOrw (c : CoreId) (d : Reg) (a2 : Reg) (v : Word) (s : State) (hs : Kept x s) : KeptO x (execCOrw c d a2 v s) := by
  unfold execCOrw
  (repeat' split) <;> simp_all (maxDischargeDepth := 9)
@[simp] theorem kept_execCXorw (c : CoreId) (d : Reg) (a2 : Reg) (v : Word) (s : State) (hs : Kept x s) : KeptO x (execCXorw c d a2 v s) := by
  unfold execCXorw
  (repeat' split) <;> simp_all (maxDischargeDepth := 9)
@[simp] theorem kept_execCCmpw (c : CoreId) (a1 : Reg) (v : Word) (s : State) (hs : Kept x s) : KeptO x (execCCmpw c a1 v s) := by
  unfold execCCmpw
  (repeat' split) <;> simp_all (maxDischargeDepth := 9)

end Laws
end Sys2Proof
end

