-- ==== Sys2Proof/Laws/KeptArithUnit.lean ====
section
/-!
SUPPORT. Every operation of Machine/ArithUnit.lean carries the queue and soundness through.
-/
namespace Sys2Proof
namespace Laws
open Machine

variable {x : Carry}

@[simp] theorem kept_Core_start (k : Core) (left : ℕ) (dst : AuDst) (ff : BitVec 5) (hk : CoreK x k) : CoreK x (Core.start k left dst ff) := by simp (maxDischargeDepth := 9) [Core.start, *]
@[simp] theorem kept_Core_count (k : Core) (hk : CoreK x k) : CoreK x (Core.count k) := by simp (maxDischargeDepth := 9) [Core.count, *]
@[simp] theorem kept_Core_chainFr (k : Core) (v : Word) (hk : CoreK x k) : CoreK x (Core.chainFr k v) := by simp (maxDischargeDepth := 9) [Core.chainFr, *]
@[simp] theorem kept_Core_startFr (k : Core) (left : ℕ) (r : Word × BitVec 5) (hk : CoreK x k) : CoreK x (Core.startFr k left r) := by simp (maxDischargeDepth := 9) [Core.startFr, *]
@[simp] theorem kept_refold (ftz : Bool) (k : Core) (acc : Word) (l : FmaLink) (hk : CoreK x k) : CoreK x (refold ftz k acc l).1 := by
  unfold refold
  (repeat' split) <;> simp (maxDischargeDepth := 9) [*]
@[simp] theorem kept_refoldAll (ftz : Bool) (l : List FmaLink) (k : Core) (v : Word) (hk : CoreK x k) : CoreK x (refoldAll ftz l k v).1 := by
  induction l generalizing k v with
  | nil => exact hk
  | cons a l ih => exact ih _ _ (kept_refold ftz k v a hk)

@[simp] theorem kept_Core_unchain (k : Core) (hk : CoreK x k) : CoreK x (Core.unchain k) := by
  simp only [Core.unchain, keptO_next]
  (repeat' split) <;> simp (maxDischargeDepth := 9) [*]
@[simp] theorem kept_Core_abandon (k : Core) (hk : CoreK x k) : CoreK x (Core.abandon k) := by
  unfold Core.abandon
  (repeat' split) <;> simp (maxDischargeDepth := 9) [*]
@[simp] theorem kept_Core_startIter (k : Core) (left : ℕ) (dst : AuDst) (ff : BitVec 5) (idz : Bool) (iov : Bool) (hk : CoreK x k) : CoreK x (Core.startIter k left dst ff idz iov) := by simp (maxDischargeDepth := 9) [Core.startIter, *]
@[simp] theorem kept_Core_mulOp (k : Core) (p : BitVec 32) (hk : CoreK x k) : CoreK x (Core.mulOp k p) := by simp (maxDischargeDepth := 9) [Core.mulOp, *]
@[simp] theorem kept_Core_macOp (k : Core) (p : BitVec 32) (hk : CoreK x k) : CoreK x (Core.macOp k p) := by simp (maxDischargeDepth := 9) [Core.macOp, *]
@[simp] theorem kept_Core_divOp (k : Core) (r : Word × Word × Bool × Bool) (hk : CoreK x k) : CoreK x (Core.divOp k r) := by simp (maxDischargeDepth := 9) [Core.divOp, *]
@[simp] theorem kept_Core_iterFr (k : Core) (r : Word × BitVec 5) (hk : CoreK x k) : CoreK x (Core.iterFr k r) := by simp (maxDischargeDepth := 9) [Core.iterFr, *]
@[simp] theorem kept_Core_fmaOp (k : Core) (a1 : Reg) (y : Reg) (hk : CoreK x k) : CoreK x (Core.fmaOp k a1 y) := by simp (maxDischargeDepth := 9) [Core.fmaOp, *]
@[simp] theorem kept_Core_cmpOp (k : Core) (a1 : Reg) (y : Reg) (hk : CoreK x k) : CoreK x (Core.cmpOp k a1 y) := by simp (maxDischargeDepth := 9) [Core.cmpOp, *]
@[simp] theorem kept_execCMul (c : CoreId) (a1 : Reg) (y : Reg) (s : State) (hs : Kept x s) : KeptO x (execCMul c a1 y s) := by
  unfold execCMul
  (repeat' split) <;> simp_all (maxDischargeDepth := 9)
@[simp] theorem kept_execCMuls (c : CoreId) (a1 : Reg) (y : Reg) (s : State) (hs : Kept x s) : KeptO x (execCMuls c a1 y s) := by
  unfold execCMuls
  (repeat' split) <;> simp_all (maxDischargeDepth := 9)
@[simp] theorem kept_execCMac (c : CoreId) (a1 : Reg) (y : Reg) (s : State) (hs : Kept x s) : KeptO x (execCMac c a1 y s) := by
  unfold execCMac
  (repeat' split) <;> simp_all (maxDischargeDepth := 9)
@[simp] theorem kept_execCMacu (c : CoreId) (a1 : Reg) (y : Reg) (s : State) (hs : Kept x s) : KeptO x (execCMacu c a1 y s) := by
  unfold execCMacu
  (repeat' split) <;> simp_all (maxDischargeDepth := 9)
@[simp] theorem kept_execCDiv (c : CoreId) (a1 : Reg) (y : Reg) (s : State) (hs : Kept x s) : KeptO x (execCDiv c a1 y s) := by
  unfold execCDiv
  (repeat' split) <;> simp_all (maxDischargeDepth := 9)
@[simp] theorem kept_execCDivs (c : CoreId) (a1 : Reg) (y : Reg) (s : State) (hs : Kept x s) : KeptO x (execCDivs c a1 y s) := by
  unfold execCDivs
  (repeat' split) <;> simp_all (maxDischargeDepth := 9)
@[simp] theorem kept_execCFadd (c : CoreId) (a1 : Reg) (y : Reg) (s : State) (hs : Kept x s) : KeptO x (execCFadd c a1 y s) := by
  unfold execCFadd
  (repeat' split) <;> simp_all (maxDischargeDepth := 9)
@[simp] theorem kept_execCFsub (c : CoreId) (a1 : Reg) (y : Reg) (s : State) (hs : Kept x s) : KeptO x (execCFsub c a1 y s) := by
  unfold execCFsub
  (repeat' split) <;> simp_all (maxDischargeDepth := 9)
@[simp] theorem kept_execCFmul (c : CoreId) (a1 : Reg) (y : Reg) (s : State) (hs : Kept x s) : KeptO x (execCFmul c a1 y s) := by
  unfold execCFmul
  (repeat' split) <;> simp_all (maxDischargeDepth := 9)
@[simp] theorem kept_execCFfma (c : CoreId) (a1 : Reg) (y : Reg) (s : State) (hs : Kept x s) : KeptO x (execCFfma c a1 y s) := by
  unfold execCFfma
  (repeat' split) <;> simp_all (maxDischargeDepth := 9)
@[simp] theorem kept_execCFdiv (c : CoreId) (a1 : Reg) (y : Reg) (s : State) (hs : Kept x s) : KeptO x (execCFdiv c a1 y s) := by
  unfold execCFdiv
  (repeat' split) <;> simp_all (maxDischargeDepth := 9)
@[simp] theorem kept_execCFsqrt (c : CoreId) (a1 : Reg) (s : State) (hs : Kept x s) : KeptO x (execCFsqrt c a1 s) := by
  unfold execCFsqrt
  (repeat' split) <;> simp_all (maxDischargeDepth := 9)
@[simp] theorem kept_execCFcvt (c : CoreId) (a1 : Reg) (f : FcvtKind) (s : State) (hs : Kept x s) : KeptO x (execCFcvt c a1 f s) := by
  unfold execCFcvt
  (repeat' split) <;> simp_all (maxDischargeDepth := 9)
@[simp] theorem kept_execCFcmp (c : CoreId) (a1 : Reg) (y : Reg) (s : State) (hs : Kept x s) : KeptO x (execCFcmp c a1 y s) := by
  unfold execCFcmp
  (repeat' split) <;> simp_all (maxDischargeDepth := 9)
@[simp] theorem kept_execAuResultLand (c : CoreId) (s : State) (hs : Kept x s) : KeptO x (execAuResultLand c s) := by simp (maxDischargeDepth := 9) [execAuResultLand, *]

end Laws
end Sys2Proof
end

