-- ==== Sys2Proof/Laws/KeptBoot.lean ====
section
/-!
SUPPORT. Every operation of Machine/Boot.lean carries the queue and soundness through.
-/
namespace Sys2Proof
namespace Laws
open Machine

variable {x : Carry}

theorem bytesK_foldl {α : Type} {f : Bytes → α → Bytes} (hf : ∀ m a, BytesK x 0#8 m → BytesK x 0#8 (f m a)) (l : List α) {m : Bytes}
    (h : BytesK x 0#8 m) : BytesK x 0#8 (l.foldl f m) := by
  induction l generalizing m with
  | nil => exact h
  | cons a l ih => exact ih (hf m a h)

@[simp] theorem bytesK_loadData (n : Nat) (b : List Byte) : BytesK x 0#8 (loadData n b) :=
  bytesK_foldl (fun _ _ h => bytesK_writeL h) _ bytesK_nil

@[simp] theorem kept_loadCourses (b : List Byte) (floor : BitVec 7) : CrsK x (loadCourses b floor) := by simp (maxDischargeDepth := 9) [loadCourses, *]
@[simp] theorem kept_loadPortC (p : PortsCfg) : PcK x (loadPortC p) := by simp (maxDischargeDepth := 9) [loadPortC, *]
@[simp] theorem kept_loadOptions (k : Core) (opt : Byte) (door : Word) (hk : CoreK x k) : CoreK x (loadOptions k opt door) := by simp (maxDischargeDepth := 9) [loadOptions, *]
@[simp] theorem kept_loadVault (a0 : Sec) (b : Option (List Byte)) (v : Vault) (hv : VltK x v) : VltK x (loadVault a0 b v) := by
  unfold loadVault
  (repeat' split) <;> simp (maxDischargeDepth := 9) [*]
@[simp] theorem kept_latchImage (ps : List (ℕ × List Byte)) (dataCount : ℕ) (s : State) (hs : Kept x s) : Kept x (latchImage ps dataCount s) := by
  unfold latchImage
  dsimp only
  apply kept_mortarStart
  apply kept_mortarLoad
  have hc : ∀ b f, LenK x 8 (loadCourses b f).recs := fun b f => (kept_loadCourses b f).recs
  have hp : PcK x (((bodyOf ps 12).map Config.portsSection |>.map loadPortC).getD PortC.reset) := by
    cases bodyOf ps 12 <;> simp
  simp (maxDischargeDepth := 9) [hs, hc]
  simpa using hp
@[simp] theorem kept_setLedger (s : State) (hs : Kept x s) : Kept x (setLedger s) := by
  simp only [setLedger]
  have hl : ∀ f v, LedgK x (energyOf f v * 1024) := fun f v _ => Nat.mul_le_mul_right _ (energyOf_le _ _)
  split <;> simp (maxDischargeDepth := 9) [hs, hl]
@[simp] theorem kept_runImage (n : Bool) (m : List Byte) (ps : List (ℕ × List Byte)) (s : State) (hs : Kept x s) : Kept x (runImage n m ps s) := by simp (maxDischargeDepth := 9) [runImage, *]
@[simp] theorem kept_Store_putSlot (a0 : Store) (n : Bool) (k : Slot) (ha0 : ImgK x a0) (hk : SlotK x k) : ImgK x (Store.putSlot a0 n k) := by
  unfold Store.putSlot
  (repeat' split) <;> simp (maxDischargeDepth := 9) [*]
@[simp] theorem kept_fullBoot (s : State) (hs : Kept x s) : Kept x (fullBoot s) := by simp (maxDischargeDepth := 9) [fullBoot, *]
@[simp] theorem kept_slotFails (n : Bool) (why : BitVec 3) (s : State) (hs : Kept x s) : Kept x (slotFails n why s) := by simp (maxDischargeDepth := 9) [slotFails, *]
@[simp] theorem kept_slotPasses (n : Bool) (a1 : Store) (ha1 : ImgK x a1) : ImgK x (slotPasses n a1) := by
  simp only [slotPasses, keptO_next]
  (repeat' split) <;> simp (maxDischargeDepth := 9) [*]
@[simp] theorem kept_execBootVerifyEnd (s : State) (hs : Kept x s) : KeptO x (execBootVerifyEnd s) := by
  simp only [execBootVerifyEnd, keptO_next]
  (repeat' split) <;> simp (maxDischargeDepth := 9) [*]

end Laws
end Sys2Proof
end

