-- ==== Sys2Proof/Laws/KeptService.lean ====
section
/-!
SUPPORT. Every operation of Machine/Service.lean carries the queue and soundness through.
-/
namespace Sys2Proof
namespace Laws
open Machine

variable {x : Carry}

@[simp] theorem kept_svcReply (m : SvcMsg) (payload : List Byte) (s : State) (hs : Kept x s) : Kept x (svcReply m payload s) := by simp (maxDischargeDepth := 9) [svcReply, *]
@[simp] theorem kept_serve (op : Byte) (f : SvcMsg → State → State) (s : State) (hf : ∀ m y, Kept x y → Kept x (f m y)) (hs : Kept x s) :
    KeptO x (serve op f s) := by
  simp only [serve, keptO_next]
  (repeat' split) <;> simp (maxDischargeDepth := 9) [hs, hf]

@[simp] theorem kept_execSlotQuery (s : State) (hs : Kept x s) : KeptO x (execSlotQuery s) := by
  unfold execSlotQuery
  (repeat' split) <;> simp_all (maxDischargeDepth := 9)
@[simp] theorem kept_slotOpened (k : Slot) (hk : SlotK x k) : SlotK x (slotOpened k) := by simp (maxDischargeDepth := 9) [slotOpened, *]
@[simp] theorem kept_openOp (m : SvcMsg) (s : State) (hs : Kept x s) : Kept x (openOp m s) := by simp (maxDischargeDepth := 9) [openOp, *]
@[simp] theorem kept_execSlotOpen (s : State) (hs : Kept x s) : KeptO x (execSlotOpen s) := by
  unfold execSlotOpen
  (repeat' split) <;> simp_all (maxDischargeDepth := 9)
@[simp] theorem kept_placeByte (code : Option Sect) (key : List Byte) (nonce : List Byte) (o : ℕ) (b : Byte) (k : Slot) (hk : SlotK x k) : SlotK x (placeByte code key nonce o b k) := by
  unfold placeByte
  (repeat' split) <;> simp (maxDischargeDepth := 9) [*]
@[simp] theorem kept_placeBytes (code : Option Sect) (key nonce : List Byte) (o : ℕ) (l : List Byte) (k : Slot) (hk : SlotK x k) :
    SlotK x (placeBytes code key nonce o l k) := by
  induction l generalizing o k with
  | nil => exact hk
  | cons b l ih => exact ih _ _ (kept_placeByte code key nonce o b k hk)

@[simp] theorem kept_writeOp (m : SvcMsg) (s : State) (hs : Kept x s) : Kept x (writeOp m s) := by
  unfold writeOp
  (repeat' split) <;> simp (maxDischargeDepth := 9) [*]
@[simp] theorem kept_execSlotWrite (s : State) (hs : Kept x s) : KeptO x (execSlotWrite s) := by
  unfold execSlotWrite
  (repeat' split) <;> simp_all (maxDischargeDepth := 9)
@[simp] theorem kept_closeNow (m : SvcMsg) (e : Session) (s : State) (hs : Kept x s) : Kept x (closeNow m e s) := by
  simp only [closeNow, keptO_next]
  (repeat' split) <;> simp (maxDischargeDepth := 9) [*]
@[simp] theorem kept_closeOp (m : SvcMsg) (s : State) (hs : Kept x s) : Kept x (closeOp m s) := by
  unfold closeOp
  (repeat' split) <;> simp (maxDischargeDepth := 9) [*]
@[simp] theorem kept_execSlotClose (s : State) (hs : Kept x s) : KeptO x (execSlotClose s) := by
  unfold execSlotClose
  (repeat' split) <;> simp_all (maxDischargeDepth := 9)
@[simp] theorem kept_Slot_unstaged (k : Slot) (hk : SlotK x k) : SlotK x (Slot.unstaged k) := by
  unfold Slot.unstaged
  (repeat' split) <;> simp (maxDischargeDepth := 9) [*]
@[simp] theorem kept_bootGoesOn (n : Bool) (s : State) (hs : Kept x s) : Kept x (bootGoesOn n s) := by simp (maxDischargeDepth := 9) [bootGoesOn, *]
@[simp] theorem kept_commitOp (m : SvcMsg) (s : State) (hs : Kept x s) : Kept x (commitOp m s) := by simp (maxDischargeDepth := 9) [commitOp, *]
@[simp] theorem kept_execSlotCommit (s : State) (hs : Kept x s) : KeptO x (execSlotCommit s) := by
  unfold execSlotCommit
  (repeat' split) <;> simp_all (maxDischargeDepth := 9)
@[simp] theorem kept_abortOp (m : SvcMsg) (s : State) (hs : Kept x s) : Kept x (abortOp m s) := by
  unfold abortOp
  (repeat' split) <;> simp (maxDischargeDepth := 9) [*]
@[simp] theorem kept_execSlotAbort (s : State) (hs : Kept x s) : KeptO x (execSlotAbort s) := by
  unfold execSlotAbort
  (repeat' split) <;> simp_all (maxDischargeDepth := 9)
@[simp] theorem kept_unstageOp (m : SvcMsg) (s : State) (hs : Kept x s) : Kept x (unstageOp m s) := by simp (maxDischargeDepth := 9) [unstageOp, *]
@[simp] theorem kept_execSlotUnstage (s : State) (hs : Kept x s) : KeptO x (execSlotUnstage s) := by
  unfold execSlotUnstage
  (repeat' split) <;> simp_all (maxDischargeDepth := 9)

end Laws
end Sys2Proof
end

