-- ==== Sys2Proof/Laws/KeptPower.lean ====
section
/-!
SUPPORT. Every operation of Machine/Power.lean carries the queue and soundness through.
-/
namespace Sys2Proof
namespace Laws
open Machine

variable {x : Carry}

@[simp] theorem kept_Store_cold (a0 : Store) (ha0 : ImgK x a0) : ImgK x (Store.cold a0) := by simp (maxDischargeDepth := 9) [Store.cold, *]
@[simp] theorem kept_coldStart (kind : StartKind) (s : State) (hs : Kept x s) : Kept x (coldStart kind s) := by simp (maxDischargeDepth := 9) [coldStart, *]
@[simp] theorem kept_execStoreStartThreshold (s : State) (hs : Kept x s) : KeptO x (execStoreStartThreshold s) := by
  unfold execStoreStartThreshold
  (repeat' split) <;> simp (maxDischargeDepth := 9) [*]
@[simp] theorem kept_execSealedWake (src : BitVec 4) (storeOk : Bool) (s : State) (hs : Kept x s) : KeptO x (execSealedWake src storeOk s) := by simp (maxDischargeDepth := 9) [execSealedWake, *]
@[simp] theorem kept_execPowerGood (s : State) (hs : Kept x s) : KeptO x (execPowerGood s) := by simp (maxDischargeDepth := 9) [execPowerGood, *]
@[simp] theorem kept_execBrownout (s : State) (hs : Kept x s) : KeptO x (execBrownout s) := by simp (maxDischargeDepth := 9) [execBrownout, *]
@[simp] theorem kept_execBackupIslandReset (s : State) (hs : Kept x s) : KeptO x (execBackupIslandReset s) := by simp (maxDischargeDepth := 9) [execBackupIslandReset, *]
@[simp] theorem kept_loadWakeTick (s : State) (hs : Kept x s) : Kept x (loadWakeTick s) := by simp (maxDischargeDepth := 9) [loadWakeTick, *]
@[simp] theorem kept_auDelivered (s : State) (hs : Kept x s) : Kept x (auDelivered s) := by simp (maxDischargeDepth := 9) [auDelivered, *]
@[simp] theorem kept_closePorts (s : State) (hs : Kept x s) : Kept x (closePorts s) := by simp (maxDischargeDepth := 9) [closePorts, *]
@[simp] theorem kept_pendSlept (c : CourseEngine) (hc : CrsK x c) : CrsK x (pendSlept c) := by simp (maxDischargeDepth := 9) [pendSlept, *]
@[simp] theorem kept_reachSleep (t : Sleep) (s : State) (hs : Kept x s) : Kept x (reachSleep t s) := by simp (maxDischargeDepth := 9) [reachSleep, *]
@[simp] theorem kept_gate (t : Sleep) (s : State) (hs : Kept x s) : Kept x (gate t s) := by simp (maxDischargeDepth := 9) [gate, *]
@[simp] theorem kept_execSleepEntryGate (s : State) (hs : Kept x s) : KeptO x (execSleepEntryGate s) := by
  unfold execSleepEntryGate
  (repeat' split) <;> simp (maxDischargeDepth := 9) [*]
@[simp] theorem kept_freezeAll (s : State) (hs : Kept x s) : Kept x (freezeAll s) := by simp (maxDischargeDepth := 9) [freezeAll, *]
@[simp] theorem kept_execLatchedFreeze (s : State) (hs : Kept x s) : KeptO x (execLatchedFreeze s) := by simp (maxDischargeDepth := 9) [execLatchedFreeze, *]
@[simp] theorem kept_sealNow (reason : BitVec 2) (fired : BitVec 12) (s : State) (hs : Kept x s) : Kept x (sealNow reason fired s) := by simp (maxDischargeDepth := 9) [sealNow, *]
@[simp] theorem kept_execSealedEntry (s : State) (hs : Kept x s) : KeptO x (execSealedEntry s) := by simp (maxDischargeDepth := 9) [execSealedEntry, *]
@[simp] theorem kept_execLastGaspSeal (s : State) (hs : Kept x s) : KeptO x (execLastGaspSeal s) := by simp (maxDischargeDepth := 9) [execLastGaspSeal, *]
@[simp] theorem kept_hingeActivity (s : State) (hs : Kept x s) : Kept x (hingeActivity s) := by simp (maxDischargeDepth := 9) [hingeActivity, *]
@[simp] theorem kept_execHingeClockActivity (s : State) (hs : Kept x s) : KeptO x (execHingeClockActivity s) := by simp (maxDischargeDepth := 9) [execHingeClockActivity, *]
@[simp] theorem kept_wakeFin (k : BitVec 3) (r : Requester) (s : State) (hs : Kept x s) : Kept x (wakeFin k r s) := by simp (maxDischargeDepth := 9) [wakeFin, *]
@[simp] theorem kept_wakeDenied (t : Sleep) (r : Requester) (s : State) (hs : Kept x s) : Kept x (wakeDenied t r s) := by simp (maxDischargeDepth := 9) [wakeDenied, *]
@[simp] theorem kept_execWakeLeaveAnswer (s : State) (hs : Kept x s) : KeptO x (execWakeLeaveAnswer s) := by
  simp only [execWakeLeaveAnswer, keptO_next]
  (repeat' split) <;> simp (maxDischargeDepth := 9) [*]
@[simp] theorem kept_clearBanks (keep : BitVec 12) (s : State) (hs : Kept x s) : Kept x (clearBanks keep s) := by
  unfold clearBanks
  exact kept_foldl (fun s n h => by split <;> simp [h]) _ hs
@[simp] theorem kept_mainReturns (t : Sleep) (s : State) (hs : Kept x s) : Kept x (mainReturns t s) := by simp (maxDischargeDepth := 9) [mainReturns, *]
@[simp] theorem kept_wakeDone (s : State) (hs : Kept x s) : Kept x (wakeDone s) := by simp (maxDischargeDepth := 9) [wakeDone, *]
@[simp] theorem kept_execWakeComplete (s : State) (hs : Kept x s) : KeptO x (execWakeComplete s) := by
  unfold execWakeComplete
  (repeat' split) <;> simp (maxDischargeDepth := 9) [*]
@[simp] theorem kept_execLatchedWakeComplete (s : State) (hs : Kept x s) : KeptO x (execLatchedWakeComplete s) := by
  unfold execLatchedWakeComplete
  (repeat' split) <;> simp (maxDischargeDepth := 9) [*]

end Laws
end Sys2Proof
end

