-- ==== Sys2Proof/Laws/KeptHinge.lean ====
section
/-!
SUPPORT. Every operation of Machine/Hinge.lean carries the queue and soundness through.
-/
namespace Sys2Proof
namespace Laws
open Machine

variable {x : Carry}

@[simp] theorem kept_hingeFault (why : BitVec 4) (s : State) (hs : Kept x s) : Kept x (hingeFault why s) := by simp (maxDischargeDepth := 9) [hingeFault, *]
@[simp] theorem kept_hingeOk (s : State) (hs : Kept x s) : Kept x (hingeOk s) := by simp (maxDischargeDepth := 9) [hingeOk, *]
@[simp] theorem kept_hingeData (v : Word) (s : State) (hs : Kept x s) : Kept x (hingeData v s) := by simp (maxDischargeDepth := 9) [hingeData, *]
@[simp] theorem kept_hingeWait (s : State) (hs : Kept x s) : Kept x (hingeWait s) := by simp (maxDischargeDepth := 9) [hingeWait, *]
@[simp] theorem kept_dropHeld (s : State) (hs : Kept x s) : Kept x (dropHeld s) := by simp (maxDischargeDepth := 9) [dropHeld, *]
@[simp] theorem kept_transact (hdrOk : Bool) (same : Bool) (f : State → State) (s : State) (hf : ∀ y, Kept x y → Kept x (f y)) (hs : Kept x s) : Kept x (transact hdrOk same f s) := by simp (maxDischargeDepth := 9) [transact, *]
@[simp] theorem kept_unlessChecking (f : State → State) (s : State) (hf : ∀ y, Kept x y → Kept x (f y)) (hs : Kept x s) : Kept x (unlessChecking f s) := by simp (maxDischargeDepth := 9) [unlessChecking, *]
@[simp] theorem kept_withRight (r : ℕ) (f : State → State) (s : State) (hf : ∀ y, Kept x y → Kept x (f y)) (hs : Kept x s) : Kept x (withRight r f s) := by simp (maxDischargeDepth := 9) [withRight, *]
@[simp] theorem kept_inSession (f : State → State) (s : State) (hf : ∀ y, Kept x y → Kept x (f y)) (hs : Kept x s) : Kept x (inSession f s) := by simp (maxDischargeDepth := 9) [inSession, *]
@[simp] theorem kept_resume (c : CoreId) (step : Bool) (s : State) (hs : Kept x s) : Kept x (resume c step s) := by
  simp only [resume, keptO_next]
  (repeat' split) <;> simp (maxDischargeDepth := 9) [*]
@[simp] theorem kept_Core_halt (k : Core) (hk : CoreK x k) : CoreK x (Core.halt k) := by simp (maxDischargeDepth := 9) [Core.halt, *]
@[simp] theorem kept_execCoreHalted (c : CoreId) (s : State) (hs : Kept x s) : KeptO x (execCoreHalted c s) := by simp (maxDischargeDepth := 9) [execCoreHalted, *]
@[simp] theorem kept_hrunPut (c : CoreId) (v : Word) (s : State) (hs : Kept x s) : Kept x (hrunPut c v s) := by simp (maxDischargeDepth := 9) [hrunPut, *]
@[simp] theorem kept_hpcPut (c : CoreId) (v : Word) (s : State) (hs : Kept x s) : Kept x (hpcPut c v s) := by simp (maxDischargeDepth := 9) [hpcPut, *]
@[simp] theorem kept_haltedRead (c : CoreId) (i : ℕ) (s : State) (hs : Kept x s) : Kept x (haltedRead c i s) := by simp (maxDischargeDepth := 9) [haltedRead, *]
@[simp] theorem kept_haltedPut (c : CoreId) (i : ℕ) (v : Word) (s : State) (hs : Kept x s) : Kept x (haltedPut c i v s) := by simp (maxDischargeDepth := 9) [haltedPut, *]
@[simp] theorem kept_sessionEnd (s : State) (hs : Kept x s) : Kept x (sessionEnd s) := by simp (maxDischargeDepth := 9) [sessionEnd, *]
@[simp] theorem kept_challenge (rnd : List Byte) (s : State) (hs : Kept x s) : Kept x (challenge rnd s) := by simp (maxDischargeDepth := 9) [challenge, *]
@[simp] theorem kept_openFails (why : BitVec 4) (s : State) (hs : Kept x s) : Kept x (openFails why s) := by simp (maxDischargeDepth := 9) [openFails, *]
@[simp] theorem kept_openPut (s : State) (hs : Kept x s) : Kept x (openPut s) := by
  unfold openPut
  (repeat' split) <;> simp (maxDischargeDepth := 9) [*]
@[simp] theorem kept_execHingeSessionCheckEnd (s : State) (hs : Kept x s) : KeptO x (execHingeSessionCheckEnd s) := by simp (maxDischargeDepth := 9) [execHingeSessionCheckEnd, *]
@[simp] theorem kept_hctlPut (rnd : Option (List Byte)) (v : Word) (s : State) (hs : Kept x s) : Kept x (hctlPut rnd v s) := by
  unfold hctlPut
  (repeat' split) <;> simp (maxDischargeDepth := 9) [*]
@[simp] theorem kept_otpRead (s : State) (hs : Kept x s) : Kept x (otpRead s).2 := by
  simp only [otpRead, keptO_next]
  (repeat' split) <;> simp (maxDischargeDepth := 9) [*]
@[simp] theorem kept_progPut (s : State) (hs : Kept x s) : Kept x (progPut s) := by simp (maxDischargeDepth := 9) [progPut, *]
@[simp] theorem kept_execOtpProgEnd (s : State) (hs : Kept x s) : KeptO x (execOtpProgEnd s) := by
  unfold execOtpProgEnd
  (repeat' split) <;> simp (maxDischargeDepth := 9) [*]
@[simp] theorem kept_lockPut (s : State) (hs : Kept x s) : Kept x (lockPut s) := by simp (maxDischargeDepth := 9) [lockPut, *]
@[simp] theorem kept_retirePut (s : State) (hs : Kept x s) : Kept x (retirePut s) := by simp (maxDischargeDepth := 9) [retirePut, *]
@[simp] theorem kept_otpCmd (v : Word) (s : State) (hs : Kept x s) : Kept x (otpCmd v s) := by simp (maxDischargeDepth := 9) [otpCmd, *]
@[simp] theorem kept_regRead (a : ℕ) (s : State) (hs : Kept x s) : Kept x (regRead a s) := by
  simp only [regRead, kept_ite]
  (repeat' refine ⟨fun _ => ?_, fun _ => ?_⟩) <;> first
    | exact kept_withRight _ _ _ (fun y h => by first | (simp (maxDischargeDepth := 9) [h]; done) | (dsimp only; split <;> simp [h])) hs
    | exact kept_inSession _ _ (fun y h => by simp (maxDischargeDepth := 9) [h]) hs
    | (simp (maxDischargeDepth := 9) [hs]; done)
    | skip
  split
  · exact kept_withRight _ _ _ (fun y h => kept_haltedRead _ _ _ h) hs
  · simp only [kept_ite]
    (repeat' refine ⟨fun _ => ?_, fun _ => ?_⟩) <;> first
      | exact kept_withRight _ _ _ (fun y h => by simp (maxDischargeDepth := 9) [h]) hs
      | exact kept_inSession _ _ (fun y h => by simp (maxDischargeDepth := 9) [h]) hs
      | (simp (maxDischargeDepth := 9) [hs]; done)
@[simp] theorem kept_hrstPut (v : Word) (s : State) (hs : Kept x s) : Kept x (hrstPut v s) := by simp (maxDischargeDepth := 9) [hrstPut, *]
@[simp] theorem kept_regWrite (rnd : Option (List Byte)) (a : ℕ) (v : Word) (s : State) (hs : Kept x s) : Kept x (regWrite rnd a v s) := by
  simp only [regWrite, kept_ite]
  (repeat' refine ⟨fun _ => ?_, fun _ => ?_⟩) <;> first
    | exact kept_withRight _ _ _ (fun y h => by first | (simp (maxDischargeDepth := 9) [h]; done) | (dsimp only; split <;> simp [h])) hs
    | exact kept_inSession _ _ (fun y h => by simp (maxDischargeDepth := 9) [h]) hs
    | (simp (maxDischargeDepth := 9) [hs]; done)
    | skip
  split
  · exact kept_withRight _ _ _ (fun y h => kept_haltedPut _ _ _ _ h) hs
  · simp only [kept_ite]
    (repeat' refine ⟨fun _ => ?_, fun _ => ?_⟩) <;> first
      | exact kept_withRight _ _ _ (fun y h => by simp (maxDischargeDepth := 9) [h]) hs
      | exact kept_inSession _ _ (fun y h => by simp (maxDischargeDepth := 9) [h]) hs
      | (simp (maxDischargeDepth := 9) [hs]; done)
@[simp] theorem kept_dataRead (a : Word) (s : State) (hs : Kept x s) : Kept x (dataRead a s) := by
  simp only [dataRead, keptO_next]
  (repeat' split) <;> simp (maxDischargeDepth := 9) [*]
@[simp] theorem kept_dataWrite (a : Word) (v : Word) (s : State) (hs : Kept x s) : Kept x (dataWrite a v s) := by
  simp only [dataWrite, keptO_next]
  (repeat' split) <;> simp (maxDischargeDepth := 9) [*]
@[simp] theorem kept_ioRead (a : Word) (s : State) (hs : Kept x s) : Kept x (ioRead a s) := by
  unfold ioRead
  (repeat' split) <;> simp (maxDischargeDepth := 9) [*]
@[simp] theorem kept_ioWrite (a : Word) (v : Word) (s : State) (hs : Kept x s) : Kept x (ioWrite a v s) := by
  simp only [ioWrite, keptO_next]
  (repeat' split) <;> simp (maxDischargeDepth := 9) [*]
@[simp] theorem kept_execHingeId (hdrOk : Bool) (s : State) (hs : Kept x s) : KeptO x (execHingeId hdrOk s) := by
  unfold execHingeId
  (repeat' split) <;> simp_all (maxDischargeDepth := 9)
@[simp] theorem kept_execHingeRead (space : HingeSpace) (a : BitVec 16) (hdrOk : Bool) (s : State) (hs : Kept x s) : KeptO x (execHingeRead space a hdrOk s) := by
  unfold execHingeRead
  (repeat' split) <;> simp_all (maxDischargeDepth := 9)
@[simp] theorem kept_dataChecked (dataOk : Bool) (f : State → State) (s : State) (hf : ∀ y, Kept x y → Kept x (f y)) (hs : Kept x s) : Kept x (dataChecked dataOk f s) := by
  unfold dataChecked
  (repeat' split) <;> simp_all (maxDischargeDepth := 9)
@[simp] theorem kept_execHingeWrite (space : HingeSpace) (a : BitVec 16) (v : BitVec 16) (hdrOk : Bool) (dataOk : Bool) (s : State) (hs : Kept x s) : KeptO x (execHingeWrite space a v hdrOk dataOk s) := by
  unfold execHingeWrite
  (repeat' split) <;> simp_all (maxDischargeDepth := 9)
@[simp] theorem kept_execHingeUnknownCommand (cmd : BitVec 6) (hdrOk : Bool) (s : State) (hs : Kept x s) : KeptO x (execHingeUnknownCommand cmd hdrOk s) := by
  unfold execHingeUnknownCommand
  (repeat' split) <;> simp_all (maxDischargeDepth := 9)
@[simp] theorem kept_hingePut (rnd : Option (List Byte)) (a : ℕ) (v : Word) (s : State) (hs : Kept x s) : Kept x (hingePut rnd a v s) := by
  unfold hingePut
  (repeat' split) <;> simp_all (maxDischargeDepth := 9)
@[simp] theorem kept_execHingeChallenge (rnd : List Byte) (s : State) (hs : Kept x s) : KeptO x (execHingeChallenge rnd s) := by simp (maxDischargeDepth := 9) [execHingeChallenge, *]
@[simp] theorem kept_execHingeOpen (s : State) (hs : Kept x s) : KeptO x (execHingeOpen s) := by simp (maxDischargeDepth := 9) [execHingeOpen, *]
@[simp] theorem kept_execHingeClose (s : State) (hs : Kept x s) : KeptO x (execHingeClose s) := by simp (maxDischargeDepth := 9) [execHingeClose, *]
@[simp] theorem kept_execHingeHalt (c : CoreId) (s : State) (hs : Kept x s) : KeptO x (execHingeHalt c s) := by simp (maxDischargeDepth := 9) [execHingeHalt, *]
@[simp] theorem kept_execHingeResume (c : CoreId) (s : State) (hs : Kept x s) : KeptO x (execHingeResume c s) := by simp (maxDischargeDepth := 9) [execHingeResume, *]
@[simp] theorem kept_execHingeStep (c : CoreId) (s : State) (hs : Kept x s) : KeptO x (execHingeStep c s) := by simp (maxDischargeDepth := 9) [execHingeStep, *]
@[simp] theorem kept_execHingeSchedWrite (c : CoreId) (on : Bool) (s : State) (hs : Kept x s) : KeptO x (execHingeSchedWrite c on s) := by simp (maxDischargeDepth := 9) [execHingeSchedWrite, *]
@[simp] theorem kept_execHingePcWrite (c : CoreId) (v : BitVec 16) (s : State) (hs : Kept x s) : KeptO x (execHingePcWrite c v s) := by simp (maxDischargeDepth := 9) [execHingePcWrite, *]
@[simp] theorem kept_execHingeReset (v : BitVec 16) (s : State) (hs : Kept x s) : KeptO x (execHingeReset v s) := by simp (maxDischargeDepth := 9) [execHingeReset, *]
@[simp] theorem kept_execOtpProg (s : State) (hs : Kept x s) : KeptO x (execOtpProg s) := by simp (maxDischargeDepth := 9) [execOtpProg, *]
@[simp] theorem kept_execLifecycleLock (s : State) (hs : Kept x s) : KeptO x (execLifecycleLock s) := by simp (maxDischargeDepth := 9) [execLifecycleLock, *]
@[simp] theorem kept_execLifecycleRetire (s : State) (hs : Kept x s) : KeptO x (execLifecycleRetire s) := by simp (maxDischargeDepth := 9) [execLifecycleRetire, *]
@[simp] theorem kept_execCryptoJobEnd (s : State) (hs : Kept x s) : KeptO x (execCryptoJobEnd s) := by
  unfold execCryptoJobEnd
  (repeat' split) <;> simp (maxDischargeDepth := 9) [*]

end Laws
end Sys2Proof
end

