-- ==== Sys2Proof/Laws/KeptSystemOps.lean ====
section
/-!
SUPPORT. Every operation of Machine/SystemOps.lean carries the queue and soundness through.
-/
namespace Sys2Proof
namespace Laws
open Machine

variable {x : Carry}

@[simp] theorem kept_execCNop (c : CoreId) (s : State) (hs : Kept x s) : KeptO x (execCNop c s) := by
  unfold execCNop
  (repeat' split) <;> simp_all (maxDischargeDepth := 9)
@[simp] theorem kept_execUndefinedInstruction (c : CoreId) (two : Bool) (s : State) (hs : Kept x s) : KeptO x (execUndefinedInstruction c two s) := by
  unfold execUndefinedInstruction
  (repeat' split) <;> simp_all (maxDischargeDepth := 9)
@[simp] theorem kept_taskEnd (c : CoreId) (s : State) (hs : Kept x s) : Kept x (taskEnd c s) := by
  unfold taskEnd
  (repeat' split) <;> simp (maxDischargeDepth := 9) [*]
@[simp] theorem kept_execCEndt (c : CoreId) (sub : BitVec 10) (s : State) (hs : Kept x s) : KeptO x (execCEndt c sub s) := by
  unfold execCEndt
  (repeat' split) <;> simp_all (maxDischargeDepth := 9)
@[simp] theorem kept_execCPoll (c : CoreId) (d : Reg) (s : State) (hs : Kept x s) : KeptO x (execCPoll c d s) := by
  unfold execCPoll
  (repeat' split) <;> simp_all (maxDischargeDepth := 9)
@[simp] theorem kept_waitOp (c : CoreId) (mask : BitVec 13) (s : State) (hs : Kept x s) : KeptE x (waitOp c mask s) := by simp (maxDischargeDepth := 9) [waitOp, *]
@[simp] theorem kept_execCWaitev (c : CoreId) (a1 : Reg) (s : State) (hs : Kept x s) : KeptO x (execCWaitev c a1 s) := by
  unfold execCWaitev
  (repeat' split) <;> simp_all (maxDischargeDepth := 9)
@[simp] theorem kept_execCWaitevImm (c : CoreId) (mask : BitVec 13) (s : State) (hs : Kept x s) : KeptO x (execCWaitevImm c mask s) := by
  unfold execCWaitevImm
  (repeat' split) <;> simp_all (maxDischargeDepth := 9)
@[simp] theorem kept_execWaitevEnd (c : CoreId) (s : State) (hs : Kept x s) : KeptO x (execWaitevEnd c s) := by
  unfold execWaitevEnd
  (repeat' split) <;> simp (maxDischargeDepth := 9) [*]
@[simp] theorem kept_execCAskp (c : CoreId) (p : BitVec 3) (s : State) (hs : Kept x s) : KeptO x (execCAskp c p s) := by
  unfold execCAskp
  (repeat' split) <;> simp_all (maxDischargeDepth := 9)
@[simp] theorem kept_execCAske (c : CoreId) (p : BitVec 3) (s : State) (hs : Kept x s) : KeptO x (execCAske c p s) := by
  unfold execCAske
  (repeat' split) <;> simp_all (maxDischargeDepth := 9)
@[simp] theorem kept_snapOp (c : CoreId) (d : Reg) (a2 : Reg) (s : State) (hs : Kept x s) : KeptE x (snapOp c d a2 s) := by
  simp only [snapOp, keptO_next]
  (repeat' split) <;> simp (maxDischargeDepth := 9) [*]
@[simp] theorem kept_execCSnap (c : CoreId) (d : Reg) (a2 : Reg) (s : State) (hs : Kept x s) : KeptO x (execCSnap c d a2 s) := by
  unfold execCSnap
  (repeat' split) <;> simp_all (maxDischargeDepth := 9)
@[simp] theorem kept_execCMfs (c : CoreId) (d : Reg) (n : BitVec 4) (s : State) (hs : Kept x s) : KeptO x (execCMfs c d n s) := by
  unfold execCMfs
  (repeat' split) <;> simp_all (maxDischargeDepth := 9)
@[simp] theorem kept_execCMts (c : CoreId) (n : BitVec 4) (a2 : Reg) (s : State) (hs : Kept x s) : KeptO x (execCMts c n a2 s) := by
  unfold execCMts
  (repeat' split) <;> simp_all (maxDischargeDepth := 9)

end Laws
end Sys2Proof
end

