-- ==== Sys2Proof/Laws/KeptTransfer.lean ====
section
/-!
SUPPORT. Every operation of Machine/Transfer.lean carries the queue and soundness through.
-/
namespace Sys2Proof
namespace Laws
open Machine

variable {x : Carry}

theorem kept_Core_push (k : Core) (a : Word) (hk : CoreK x k) : ∀ t, k.push a = some t → CoreK x t := by
  intro t ht
  simp only [Core.push] at ht
  split at ht
  · simp at ht
  · simp only [Option.some.injEq] at ht
    subst ht
    simp only [coreK_mk]
    exact fun _ => Nat.min_le_right _ _

theorem kept_Core_pop (k : Core) (hk : CoreK x k) : ∀ a t, k.pop = some (a, t) → CoreK x t := by
  intro a t ht
  simp only [Core.pop] at ht
  split at ht
  · simp at ht
  · simp only [Option.some.injEq, Prod.mk.injEq] at ht
    obtain ⟨-, rfl⟩ := ht
    simp only [coreK_mk]
    exact fun i => Nat.le_trans (Nat.sub_le _ _) (hk i)

@[simp] theorem kept_Core_jump (k : Core) (t : Word) (hk : CoreK x k) : CoreK x (Core.jump k t) := by simp (maxDischargeDepth := 9) [Core.jump, *]
@[simp] theorem kept_Core_fall (k : Core) (hk : CoreK x k) : CoreK x (Core.fall k) := by simp (maxDischargeDepth := 9) [Core.fall, *]
@[simp] theorem kept_branch (c : CoreId) (cc : Cond) (off : BitVec 8) (a3 : State) (ha3 : Kept x a3) : KeptE x (branch c cc off a3) := by
  unfold branch
  exact kept_onCore _ _ _ (fun k h => by split <;> simp [h]) ‹_›
@[simp] theorem kept_jumpTo (c : CoreId) (t : Core → Word) (a2 : State) (ha2 : Kept x a2) : KeptE x (jumpTo c t a2) := by
  unfold jumpTo
  (repeat' split) <;> simp_all (maxDischargeDepth := 9)
@[simp] theorem kept_callTo (c : CoreId) (t : Core → Word) (s : State) (hs : Kept x s) : KeptE x (callTo c t s) := by
  simp only [callTo]
  split
  · rename_i e
    have := kept_Core_push _ _ (kept_State_core s c hs) _ e
    simp (maxDischargeDepth := 9) [hs, this]
  · simp
@[simp] theorem kept_returnOp (c : CoreId) (s : State) (hs : Kept x s) : KeptE x (returnOp c s) := by
  simp only [returnOp]
  split
  · rename_i e
    have := kept_Core_pop _ (kept_State_core s c hs) _ _ e
    simp (maxDischargeDepth := 9) [hs, this]
  · simp
@[simp] theorem kept_execCBcc (c : CoreId) (cc : Cond) (off : BitVec 8) (s : State) (hs : Kept x s) : KeptO x (execCBcc c cc off s) := by
  unfold execCBcc
  (repeat' split) <;> simp_all (maxDischargeDepth := 9)
@[simp] theorem kept_execCCall (c : CoreId) (off : BitVec 11) (s : State) (hs : Kept x s) : KeptO x (execCCall c off s) := by
  unfold execCCall
  (repeat' split) <;> simp_all (maxDischargeDepth := 9)
@[simp] theorem kept_execCJmp (c : CoreId) (v : Word) (s : State) (hs : Kept x s) : KeptO x (execCJmp c v s) := by
  unfold execCJmp
  (repeat' split) <;> simp_all (maxDischargeDepth := 9)
@[simp] theorem kept_execCCallAbs (c : CoreId) (v : Word) (s : State) (hs : Kept x s) : KeptO x (execCCallAbs c v s) := by
  unfold execCCallAbs
  (repeat' split) <;> simp_all (maxDischargeDepth := 9)
@[simp] theorem kept_execCJr (c : CoreId) (a1 : Reg) (s : State) (hs : Kept x s) : KeptO x (execCJr c a1 s) := by
  unfold execCJr
  (repeat' split) <;> simp_all (maxDischargeDepth := 9)
@[simp] theorem kept_execCCallr (c : CoreId) (a1 : Reg) (s : State) (hs : Kept x s) : KeptO x (execCCallr c a1 s) := by
  unfold execCCallr
  (repeat' split) <;> simp_all (maxDischargeDepth := 9)
@[simp] theorem kept_execCRet (c : CoreId) (s : State) (hs : Kept x s) : KeptO x (execCRet c s) := by
  unfold execCRet
  (repeat' split) <;> simp_all (maxDischargeDepth := 9)

end Laws
end Sys2Proof
end

