-- ==== Sys2Proof/WellFormed.lean ====
section
/-!
DEFINITION. Which commands have operands that can occur.
-/
namespace Sys2Proof

/-- Why a command's operands cannot occur, or `none`: pin numbers stop at 47 (R191), wake sources at 11 (R102), Pane
rails at 6 (R474), a CAN frame carries 0 to 64 bytes (R361), a window write 1 or 2 bytes (R331), a challenge 32 bytes
(R536). -/
def Instr.illFormed : Instr → Option String
  | .pinInputChange pin _ => if pin.toNat < 48 then none else some "pin"
  | .sealedWake src _ => if src.toNat < 12 then none else some "wake source"
  | .paneRailChange rail _ _ => if rail.toNat < 7 then none else some "rail"
  | .canFrameAccept f _ _ => if f.data.length ≤ 64 then none else some "frame data"
  | .ashlarWindowWrite _ _ bytes => if bytes.length = 1 ∨ bytes.length = 2 then none else some "window write"
  | .hingeChallenge rnd => if rnd.length = 32 then none else some "challenge"
  | _ => none

/-- A command whose operands can occur. -/
def Instr.wellFormed (i : Instr) : Bool := i.illFormed.isNone

theorem Instr.wellFormed_or_illFormed (i : Instr) : i.wellFormed = true ∨ ∃ why, i.illFormed = some why := by
  unfold Instr.wellFormed
  cases i.illFormed with
  | none => exact .inl rfl
  | some w => exact .inr ⟨w, rfl⟩

end Sys2Proof
end

