-- ==== Sys2Proof/Laws/PerInstr.lean ====
section
/-!
SUPPORT. Statements made once per command: every command that passes the check of its operands is one of the table.
-/
namespace Sys2Proof
namespace Laws
namespace WellFormedDecides

/-- Whether a command's operands fit is decided: it passes the check, or the check names why it does not. -/
def Statement (i : Instr) : Prop := i.wellFormed = true ∨ ∃ why, i.illFormed = some why

theorem sourceQualify (src : Source) : Statement (.sourceQualify src) := Instr.wellFormed_or_illFormed _
theorem sourceLoss (src : Source) : Statement (.sourceLoss src) := Instr.wellFormed_or_illFormed _
theorem selectorHoldEnd : Statement (.selectorHoldEnd) := Instr.wellFormed_or_illFormed _
theorem flybackStart : Statement (.flybackStart) := Instr.wellFormed_or_illFormed _
theorem flybackStop : Statement (.flybackStop) := Instr.wellFormed_or_illFormed _
theorem flybackSwitchingStart : Statement (.flybackSwitchingStart) := Instr.wellFormed_or_illFormed _
theorem flybackVddpLow : Statement (.flybackVddpLow) := Instr.wellFormed_or_illFormed _
theorem flybackFault (cause : FlybackCause) : Statement (.flybackFault cause) := Instr.wellFormed_or_illFormed _
theorem flybackRestart (cooled : Bool) : Statement (.flybackRestart cooled) := Instr.wellFormed_or_illFormed _
theorem xCapDischarge : Statement (.xCapDischarge) := Instr.wellFormed_or_illFormed _
theorem vehOvervoltage (above : Bool) : Statement (.vehOvervoltage above) := Instr.wellFormed_or_illFormed _
theorem hvsecOvervoltage (above : Bool) : Statement (.hvsecOvervoltage above) := Instr.wellFormed_or_illFormed _
theorem harvTrackingSample (voc : BitVec 16) (store : BitVec 16) : Statement (.harvTrackingSample voc store) := Instr.wellFormed_or_illFormed _
theorem prechargeEnd : Statement (.prechargeEnd) := Instr.wellFormed_or_illFormed _
theorem coldStarterHandover : Statement (.coldStarterHandover) := Instr.wellFormed_or_illFormed _
theorem storeTargetReached (reached : Bool) : Statement (.storeTargetReached reached) := Instr.wellFormed_or_illFormed _
theorem storeOvervoltage (above : Bool) : Statement (.storeOvervoltage above) := Instr.wellFormed_or_illFormed _
theorem storeStartThreshold : Statement (.storeStartThreshold) := Instr.wellFormed_or_illFormed _
theorem powerGood : Statement (.powerGood) := Instr.wellFormed_or_illFormed _
theorem brownout : Statement (.brownout) := Instr.wellFormed_or_illFormed _
theorem islandSupplySwitch (toCell : Bool) : Statement (.islandSupplySwitch toCell) := Instr.wellFormed_or_illFormed _
theorem cellLow : Statement (.cellLow) := Instr.wellFormed_or_illFormed _
theorem cellChargeChange (on : Bool) : Statement (.cellChargeChange on) := Instr.wellFormed_or_illFormed _
theorem cellOvervoltage : Statement (.cellOvervoltage) := Instr.wellFormed_or_illFormed _
theorem vout3CurrentLimit : Statement (.vout3CurrentLimit) := Instr.wellFormed_or_illFormed _
theorem vout3ModeWrite (v : BitVec 16) : Statement (.vout3ModeWrite v) := Instr.wellFormed_or_illFormed _
theorem derzorOvertemp (above : Bool) : Statement (.derzorOvertemp above) := Instr.wellFormed_or_illFormed _
theorem backupIslandReset : Statement (.backupIslandReset) := Instr.wellFormed_or_illFormed _
theorem countMessage (din : BitVec 32) (dout : BitVec 32) (mv : BitVec 16) (lost : Bool) : Statement (.countMessage din dout mv lost) := Instr.wellFormed_or_illFormed _
theorem ledgerCount : Statement (.ledgerCount) := Instr.wellFormed_or_illFormed _
theorem ledgerCorrection : Statement (.ledgerCorrection) := Instr.wellFormed_or_illFormed _
theorem storeCounterSat : Statement (.storeCounterSat) := Instr.wellFormed_or_illFormed _
theorem permitRequest (lost : Bool) : Statement (.permitRequest lost) := Instr.wellFormed_or_illFormed _
theorem deferTimeout : Statement (.deferTimeout) := Instr.wellFormed_or_illFormed _
theorem permitWithdraw : Statement (.permitWithdraw) := Instr.wellFormed_or_illFormed _
theorem holdRelease : Statement (.holdRelease) := Instr.wellFormed_or_illFormed _
theorem holdTimeout : Statement (.holdTimeout) := Instr.wellFormed_or_illFormed _
theorem permitAnswer : Statement (.permitAnswer) := Instr.wellFormed_or_illFormed _
theorem ledgerCaptureRead : Statement (.ledgerCaptureRead) := Instr.wellFormed_or_illFormed _
theorem availCaptureRead : Statement (.availCaptureRead) := Instr.wellFormed_or_illFormed _
theorem tick (cal : Option (BitVec 12)) (offsetFault : Bool) : Statement (.tick cal offsetFault) := Instr.wellFormed_or_illFormed _
theorem crystalStop : Statement (.crystalStop) := Instr.wellFormed_or_illFormed _
theorem crystalRun : Statement (.crystalRun) := Instr.wellFormed_or_illFormed _
theorem rcTrim : Statement (.rcTrim) := Instr.wellFormed_or_illFormed _
theorem tickCaptureRead (sub : BitVec 10) : Statement (.tickCaptureRead sub) := Instr.wellFormed_or_illFormed _
theorem courseStart (sub : BitVec 10) : Statement (.courseStart sub) := Instr.wellFormed_or_illFormed _
theorem courseWindowOpen (blk : WinBlock) : Statement (.courseWindowOpen blk) := Instr.wellFormed_or_illFormed _
theorem courseWindowClose (blk : WinBlock) : Statement (.courseWindowClose blk) := Instr.wellFormed_or_illFormed _
theorem courseTimeUp (sub : BitVec 10) : Statement (.courseTimeUp sub) := Instr.wellFormed_or_illFormed _
theorem courseStall : Statement (.courseStall) := Instr.wellFormed_or_illFormed _
theorem contractRecordPop : Statement (.contractRecordPop) := Instr.wellFormed_or_illFormed _
theorem drainBoundExpiry : Statement (.drainBoundExpiry) := Instr.wellFormed_or_illFormed _
theorem sleepEntryGate : Statement (.sleepEntryGate) := Instr.wellFormed_or_illFormed _
theorem latchedFreeze : Statement (.latchedFreeze) := Instr.wellFormed_or_illFormed _
theorem sealedEntry : Statement (.sealedEntry) := Instr.wellFormed_or_illFormed _
theorem wakeLandEdge (land : Bool) : Statement (.wakeLandEdge land) := Instr.wellFormed_or_illFormed _
theorem portActivityDetect (p : PortId) : Statement (.portActivityDetect p) := Instr.wellFormed_or_illFormed _
theorem hingeClockActivity : Statement (.hingeClockActivity) := Instr.wellFormed_or_illFormed _
theorem wakeLeaveAnswer : Statement (.wakeLeaveAnswer) := Instr.wellFormed_or_illFormed _
theorem wakeComplete : Statement (.wakeComplete) := Instr.wellFormed_or_illFormed _
theorem latchedWakeComplete : Statement (.latchedWakeComplete) := Instr.wellFormed_or_illFormed _
theorem sealedWake (src : BitVec 4) (storeOk : Bool) : Statement (.sealedWake src storeOk) := Instr.wellFormed_or_illFormed _
theorem ashlarReloadEnd : Statement (.ashlarReloadEnd) := Instr.wellFormed_or_illFormed _
theorem warmReset (who : Who) : Statement (.warmReset who) := Instr.wellFormed_or_illFormed _
theorem bootVerifyEnd : Statement (.bootVerifyEnd) := Instr.wellFormed_or_illFormed _
theorem slotQuery : Statement (.slotQuery) := Instr.wellFormed_or_illFormed _
theorem slotOpen : Statement (.slotOpen) := Instr.wellFormed_or_illFormed _
theorem slotWrite : Statement (.slotWrite) := Instr.wellFormed_or_illFormed _
theorem slotClose : Statement (.slotClose) := Instr.wellFormed_or_illFormed _
theorem slotCommit : Statement (.slotCommit) := Instr.wellFormed_or_illFormed _
theorem slotAbort : Statement (.slotAbort) := Instr.wellFormed_or_illFormed _
theorem slotUnstage : Statement (.slotUnstage) := Instr.wellFormed_or_illFormed _
theorem storeServiceReply (p : PortId) : Statement (.storeServiceReply p) := Instr.wellFormed_or_illFormed _
theorem cAdd (c : CoreId) (d : Reg) (s : Reg) (t : Reg) : Statement (.cAdd c d s t) := Instr.wellFormed_or_illFormed _
theorem cSub (c : CoreId) (d : Reg) (s : Reg) (t : Reg) : Statement (.cSub c d s t) := Instr.wellFormed_or_illFormed _
theorem cMov (c : CoreId) (d : Reg) (s : Reg) : Statement (.cMov c d s) := Instr.wellFormed_or_illFormed _
theorem cAnd (c : CoreId) (d : Reg) (s : Reg) : Statement (.cAnd c d s) := Instr.wellFormed_or_illFormed _
theorem cOr (c : CoreId) (d : Reg) (s : Reg) : Statement (.cOr c d s) := Instr.wellFormed_or_illFormed _
theorem cXor (c : CoreId) (d : Reg) (s : Reg) : Statement (.cXor c d s) := Instr.wellFormed_or_illFormed _
theorem cAdc (c : CoreId) (d : Reg) (s : Reg) : Statement (.cAdc c d s) := Instr.wellFormed_or_illFormed _
theorem cSbc (c : CoreId) (d : Reg) (s : Reg) : Statement (.cSbc c d s) := Instr.wellFormed_or_illFormed _
theorem cCmp (c : CoreId) (d : Reg) (s : Reg) : Statement (.cCmp c d s) := Instr.wellFormed_or_illFormed _
theorem cTst (c : CoreId) (d : Reg) (s : Reg) : Statement (.cTst c d s) := Instr.wellFormed_or_illFormed _
theorem cNot (c : CoreId) (d : Reg) (s : Reg) : Statement (.cNot c d s) := Instr.wellFormed_or_illFormed _
theorem cNeg (c : CoreId) (d : Reg) (s : Reg) : Statement (.cNeg c d s) := Instr.wellFormed_or_illFormed _
theorem cShl (c : CoreId) (d : Reg) (s : Reg) : Statement (.cShl c d s) := Instr.wellFormed_or_illFormed _
theorem cShr (c : CoreId) (d : Reg) (s : Reg) : Statement (.cShr c d s) := Instr.wellFormed_or_illFormed _
theorem cSar (c : CoreId) (d : Reg) (s : Reg) : Statement (.cSar c d s) := Instr.wellFormed_or_illFormed _
theorem cRol (c : CoreId) (d : Reg) (s : Reg) : Statement (.cRol c d s) := Instr.wellFormed_or_illFormed _
theorem cSwpb (c : CoreId) (d : Reg) (s : Reg) : Statement (.cSwpb c d s) := Instr.wellFormed_or_illFormed _
theorem cSexb (c : CoreId) (d : Reg) (s : Reg) : Statement (.cSexb c d s) := Instr.wellFormed_or_illFormed _
theorem cLdi (c : CoreId) (d : Reg) (i : BitVec 8) : Statement (.cLdi c d i) := Instr.wellFormed_or_illFormed _
theorem cAddi (c : CoreId) (d : Reg) (i : BitVec 8) : Statement (.cAddi c d i) := Instr.wellFormed_or_illFormed _
theorem cShli (c : CoreId) (d : Reg) (n : BitVec 4) : Statement (.cShli c d n) := Instr.wellFormed_or_illFormed _
theorem cShri (c : CoreId) (d : Reg) (n : BitVec 4) : Statement (.cShri c d n) := Instr.wellFormed_or_illFormed _
theorem cSari (c : CoreId) (d : Reg) (n : BitVec 4) : Statement (.cSari c d n) := Instr.wellFormed_or_illFormed _
theorem cRoli (c : CoreId) (d : Reg) (n : BitVec 4) : Statement (.cRoli c d n) := Instr.wellFormed_or_illFormed _
theorem cLdw (c : CoreId) (d : Reg) (v : BitVec 16) : Statement (.cLdw c d v) := Instr.wellFormed_or_illFormed _
theorem cAddw (c : CoreId) (d : Reg) (s : Reg) (v : BitVec 16) : Statement (.cAddw c d s v) := Instr.wellFormed_or_illFormed _
theorem cAndw (c : CoreId) (d : Reg) (s : Reg) (v : BitVec 16) : Statement (.cAndw c d s v) := Instr.wellFormed_or_illFormed _
theorem cOrw (c : CoreId) (d : Reg) (s : Reg) (v : BitVec 16) : Statement (.cOrw c d s v) := Instr.wellFormed_or_illFormed _
theorem cXorw (c : CoreId) (d : Reg) (s : Reg) (v : BitVec 16) : Statement (.cXorw c d s v) := Instr.wellFormed_or_illFormed _
theorem cCmpw (c : CoreId) (s : Reg) (v : BitVec 16) : Statement (.cCmpw c s v) := Instr.wellFormed_or_illFormed _
theorem cLd (c : CoreId) (d : Reg) (b : Reg) (u : BitVec 4) : Statement (.cLd c d b u) := Instr.wellFormed_or_illFormed _
theorem cSt (c : CoreId) (d : Reg) (b : Reg) (u : BitVec 4) : Statement (.cSt c d b u) := Instr.wellFormed_or_illFormed _
theorem cLdb (c : CoreId) (d : Reg) (b : Reg) (u : BitVec 4) : Statement (.cLdb c d b u) := Instr.wellFormed_or_illFormed _
theorem cStb (c : CoreId) (d : Reg) (b : Reg) (u : BitVec 4) : Statement (.cStb c d b u) := Instr.wellFormed_or_illFormed _
theorem cLdx (c : CoreId) (d : Reg) (b : Reg) (v : BitVec 16) : Statement (.cLdx c d b v) := Instr.wellFormed_or_illFormed _
theorem cStx (c : CoreId) (d : Reg) (b : Reg) (v : BitVec 16) : Statement (.cStx c d b v) := Instr.wellFormed_or_illFormed _
theorem cLdbx (c : CoreId) (d : Reg) (b : Reg) (v : BitVec 16) : Statement (.cLdbx c d b v) := Instr.wellFormed_or_illFormed _
theorem cStbx (c : CoreId) (d : Reg) (b : Reg) (v : BitVec 16) : Statement (.cStbx c d b v) := Instr.wellFormed_or_illFormed _
theorem cLdp (c : CoreId) (d : Reg) (s : Reg) : Statement (.cLdp c d s) := Instr.wellFormed_or_illFormed _
theorem cLdpx (c : CoreId) (d : Reg) (b : Reg) (v : BitVec 16) : Statement (.cLdpx c d b v) := Instr.wellFormed_or_illFormed _
theorem cIn (c : CoreId) (d : Reg) (s : Reg) : Statement (.cIn c d s) := Instr.wellFormed_or_illFormed _
theorem cOut (c : CoreId) (d : Reg) (s : Reg) : Statement (.cOut c d s) := Instr.wellFormed_or_illFormed _
theorem cInImm (c : CoreId) (d : Reg) (a : BitVec 12) : Statement (.cInImm c d a) := Instr.wellFormed_or_illFormed _
theorem cOutImm (c : CoreId) (d : Reg) (a : BitVec 12) : Statement (.cOutImm c d a) := Instr.wellFormed_or_illFormed _
theorem cSetbImm (c : CoreId) (n : BitVec 4) (a : BitVec 12) : Statement (.cSetbImm c n a) := Instr.wellFormed_or_illFormed _
theorem cClrbImm (c : CoreId) (n : BitVec 4) (a : BitVec 12) : Statement (.cClrbImm c n a) := Instr.wellFormed_or_illFormed _
theorem cSetb (c : CoreId) (n : BitVec 4) (s : Reg) : Statement (.cSetb c n s) := Instr.wellFormed_or_illFormed _
theorem cClrb (c : CoreId) (n : BitVec 4) (s : Reg) : Statement (.cClrb c n s) := Instr.wellFormed_or_illFormed _
theorem cBcc (c : CoreId) (cc : Cond) (off : BitVec 8) : Statement (.cBcc c cc off) := Instr.wellFormed_or_illFormed _
theorem cCall (c : CoreId) (off : BitVec 11) : Statement (.cCall c off) := Instr.wellFormed_or_illFormed _
theorem cJmp (c : CoreId) (v : BitVec 16) : Statement (.cJmp c v) := Instr.wellFormed_or_illFormed _
theorem cCallAbs (c : CoreId) (v : BitVec 16) : Statement (.cCallAbs c v) := Instr.wellFormed_or_illFormed _
theorem cJr (c : CoreId) (s : Reg) : Statement (.cJr c s) := Instr.wellFormed_or_illFormed _
theorem cCallr (c : CoreId) (s : Reg) : Statement (.cCallr c s) := Instr.wellFormed_or_illFormed _
theorem cRet (c : CoreId) : Statement (.cRet c) := Instr.wellFormed_or_illFormed _
theorem cMul (c : CoreId) (s : Reg) (t : Reg) : Statement (.cMul c s t) := Instr.wellFormed_or_illFormed _
theorem cMuls (c : CoreId) (s : Reg) (t : Reg) : Statement (.cMuls c s t) := Instr.wellFormed_or_illFormed _
theorem cMac (c : CoreId) (s : Reg) (t : Reg) : Statement (.cMac c s t) := Instr.wellFormed_or_illFormed _
theorem cMacu (c : CoreId) (s : Reg) (t : Reg) : Statement (.cMacu c s t) := Instr.wellFormed_or_illFormed _
theorem cDiv (c : CoreId) (s : Reg) (t : Reg) : Statement (.cDiv c s t) := Instr.wellFormed_or_illFormed _
theorem cDivs (c : CoreId) (s : Reg) (t : Reg) : Statement (.cDivs c s t) := Instr.wellFormed_or_illFormed _
theorem cFadd (c : CoreId) (s : Reg) (t : Reg) : Statement (.cFadd c s t) := Instr.wellFormed_or_illFormed _
theorem cFsub (c : CoreId) (s : Reg) (t : Reg) : Statement (.cFsub c s t) := Instr.wellFormed_or_illFormed _
theorem cFmul (c : CoreId) (s : Reg) (t : Reg) : Statement (.cFmul c s t) := Instr.wellFormed_or_illFormed _
theorem cFfma (c : CoreId) (s : Reg) (t : Reg) : Statement (.cFfma c s t) := Instr.wellFormed_or_illFormed _
theorem cFdiv (c : CoreId) (s : Reg) (t : Reg) : Statement (.cFdiv c s t) := Instr.wellFormed_or_illFormed _
theorem cFsqrt (c : CoreId) (s : Reg) : Statement (.cFsqrt c s) := Instr.wellFormed_or_illFormed _
theorem cFcvt (c : CoreId) (s : Reg) (k : FcvtKind) : Statement (.cFcvt c s k) := Instr.wellFormed_or_illFormed _
theorem cFcmp (c : CoreId) (s : Reg) (t : Reg) : Statement (.cFcmp c s t) := Instr.wellFormed_or_illFormed _
theorem auResultLand (c : CoreId) : Statement (.auResultLand c) := Instr.wellFormed_or_illFormed _
theorem cNop (c : CoreId) : Statement (.cNop c) := Instr.wellFormed_or_illFormed _
theorem cEndt (c : CoreId) (sub : BitVec 10) : Statement (.cEndt c sub) := Instr.wellFormed_or_illFormed _
theorem cPoll (c : CoreId) (d : Reg) : Statement (.cPoll c d) := Instr.wellFormed_or_illFormed _
theorem cWaitev (c : CoreId) (s : Reg) : Statement (.cWaitev c s) := Instr.wellFormed_or_illFormed _
theorem cWaitevImm (c : CoreId) (mask : BitVec 13) : Statement (.cWaitevImm c mask) := Instr.wellFormed_or_illFormed _
theorem waitevEnd (c : CoreId) : Statement (.waitevEnd c) := Instr.wellFormed_or_illFormed _
theorem cAskp (c : CoreId) (k : BitVec 3) : Statement (.cAskp c k) := Instr.wellFormed_or_illFormed _
theorem cAske (c : CoreId) (k : BitVec 3) : Statement (.cAske c k) := Instr.wellFormed_or_illFormed _
theorem cSnap (c : CoreId) (d : Reg) (s : Reg) : Statement (.cSnap c d s) := Instr.wellFormed_or_illFormed _
theorem snapComplete (c : CoreId) (fail : Option Nat) : Statement (.snapComplete c fail) := Instr.wellFormed_or_illFormed _
theorem cMfs (c : CoreId) (d : Reg) (n : BitVec 4) : Statement (.cMfs c d n) := Instr.wellFormed_or_illFormed _
theorem cMts (c : CoreId) (n : BitVec 4) (s : Reg) : Statement (.cMts c n s) := Instr.wellFormed_or_illFormed _
theorem undefinedInstruction (c : CoreId) (two : Bool) : Statement (.undefinedInstruction c two) := Instr.wellFormed_or_illFormed _
theorem tieReadComplete (who : Who) (fail : Option TieFail) : Statement (.tieReadComplete who fail) := Instr.wellFormed_or_illFormed _
theorem tieWriteDeliver (parity : Bool) : Statement (.tieWriteDeliver parity) := Instr.wellFormed_or_illFormed _
theorem tieWriteTimeout : Statement (.tieWriteTimeout) := Instr.wellFormed_or_illFormed _
theorem tieLateFaultPop : Statement (.tieLateFaultPop) := Instr.wellFormed_or_illFormed _
theorem registerWrite (who : Who) (a : BitVec 12) (v : BitVec 16) : Statement (.registerWrite who a v) := Instr.wellFormed_or_illFormed _
theorem pinInputChange (pin : BitVec 6) (level : Bool) : Statement (.pinInputChange pin level) := Instr.wellFormed_or_illFormed _
theorem sourcePulseEnd (src : BitVec 8) : Statement (.sourcePulseEnd src) := Instr.wellFormed_or_illFormed _
theorem cellDelayExpiry (n : BitVec 5) : Statement (.cellDelayExpiry n) := Instr.wellFormed_or_illFormed _
theorem cellPulseEnd (n : BitVec 5) : Statement (.cellPulseEnd n) := Instr.wellFormed_or_illFormed _
theorem cellLatchClear (who : Who) (a : BitVec 12) (v : BitVec 16) : Statement (.cellLatchClear who a v) := Instr.wellFormed_or_illFormed _
theorem mortarSoftWrite (who : Who) (a : BitVec 12) (v : BitVec 16) : Statement (.mortarSoftWrite who a v) := Instr.wellFormed_or_illFormed _
theorem vioLoss (bank : PinBank) : Statement (.vioLoss bank) := Instr.wellFormed_or_illFormed _
theorem vioReturn (bank : PinBank) : Statement (.vioReturn bank) := Instr.wellFormed_or_illFormed _
theorem pinOutputWrite (who : Who) (g : PinBank) (v : BitVec 16) : Statement (.pinOutputWrite who g v) := Instr.wellFormed_or_illFormed _
theorem pinEnableWrite (who : Who) (g : PinBank) (v : BitVec 16) : Statement (.pinEnableWrite who g v) := Instr.wellFormed_or_illFormed _
theorem ashlarWindowWrite (c : CoreId) (a : BitVec 16) (bytes : List Byte) : Statement (.ashlarWindowWrite c a bytes) := Instr.wellFormed_or_illFormed _
theorem ashlarCommitWrite (c : CoreId) : Statement (.ashlarCommitWrite c) := Instr.wellFormed_or_illFormed _
theorem ashlarCommitPerform (c : CoreId) : Statement (.ashlarCommitPerform c) := Instr.wellFormed_or_illFormed _
theorem ashlarGo (c : CoreId) : Statement (.ashlarGo c) := Instr.wellFormed_or_illFormed _
theorem ashlarSearchLand (c : CoreId) : Statement (.ashlarSearchLand c) := Instr.wellFormed_or_illFormed _
theorem ashlarStepWrite (c : CoreId) : Statement (.ashlarStepWrite c) := Instr.wellFormed_or_illFormed _
theorem ashlarStepLand (c : CoreId) : Statement (.ashlarStepLand c) := Instr.wellFormed_or_illFormed _
theorem ashlarScrubRead : Statement (.ashlarScrubRead) := Instr.wellFormed_or_illFormed _
theorem ashlarSelfTestEnd (fail : BitVec 16) : Statement (.ashlarSelfTestEnd fail) := Instr.wellFormed_or_illFormed _
theorem channel0Search : Statement (.channel0Search) := Instr.wellFormed_or_illFormed _
theorem canFrameAccept (f : CanFrame) (own : Bool) (sub : BitVec 10) : Statement (.canFrameAccept f own sub) := Instr.wellFormed_or_illFormed _
theorem canFdfIgnore : Statement (.canFdfIgnore) := Instr.wellFormed_or_illFormed _
theorem canReplyTransmit : Statement (.canReplyTransmit) := Instr.wellFormed_or_illFormed _
theorem canReplySent : Statement (.canReplySent) := Instr.wellFormed_or_illFormed _
theorem canReplyWindowExpiry : Statement (.canReplyWindowExpiry) := Instr.wellFormed_or_illFormed _
theorem canBusError (tec : BitVec 8) (rxe : BitVec 8) (busOff : Bool) : Statement (.canBusError tec rxe busOff) := Instr.wellFormed_or_illFormed _
theorem canBusOffRecover (who : Who) (v : BitVec 16) : Statement (.canBusOffRecover who v) := Instr.wellFormed_or_illFormed _
theorem canListenWrite (who : Who) (v : BitVec 16) : Statement (.canListenWrite who v) := Instr.wellFormed_or_illFormed _
theorem canReplySlotArm (who : Who) (k : BitVec 4) (v : BitVec 16) : Statement (.canReplySlotArm who k v) := Instr.wellFormed_or_illFormed _
theorem canReplySlotDisarm (who : Who) (k : BitVec 4) (v : BitVec 16) : Statement (.canReplySlotDisarm who k v) := Instr.wellFormed_or_illFormed _
theorem canInConsume (who : Who) (v : BitVec 16) : Statement (.canInConsume who v) := Instr.wellFormed_or_illFormed _
theorem btrefLoss : Statement (.btrefLoss) := Instr.wellFormed_or_illFormed _
theorem btrefRecover : Statement (.btrefRecover) := Instr.wellFormed_or_illFormed _
theorem portPoll (p : PortId) : Statement (.portPoll p) := Instr.wellFormed_or_illFormed _
theorem portWrite (p : PortId) (opcode : Byte) (tag : Byte) (len : BitVec 16) (rest : List Byte) (fmtOk : Bool) : Statement (.portWrite p opcode tag len rest fmtOk) := Instr.wellFormed_or_illFormed _
theorem portRead (p : PortId) (whole : Bool) : Statement (.portRead p whole) := Instr.wellFormed_or_illFormed _
theorem portStatus (p : PortId) : Statement (.portStatus p) := Instr.wellFormed_or_illFormed _
theorem portUnknownCommand (p : PortId) (b : Byte) : Statement (.portUnknownCommand p b) := Instr.wellFormed_or_illFormed _
theorem portUIdleGap : Statement (.portUIdleGap) := Instr.wellFormed_or_illFormed _
theorem mailboxInRelease (p : PortId) : Statement (.mailboxInRelease p) := Instr.wellFormed_or_illFormed _
theorem mailboxOutPost (p : PortId) : Statement (.mailboxOutPost p) := Instr.wellFormed_or_illFormed _
theorem vaultAppend (c : CoreId) (len : BitVec 16) : Statement (.vaultAppend c len) := Instr.wellFormed_or_illFormed _
theorem vaultAppendCopyDone (c : CoreId) : Statement (.vaultAppendCopyDone c) := Instr.wellFormed_or_illFormed _
theorem vaultFlushAgeExpiry : Statement (.vaultFlushAgeExpiry) := Instr.wellFormed_or_illFormed _
theorem vaultPageProgramStart : Statement (.vaultPageProgramStart) := Instr.wellFormed_or_illFormed _
theorem vaultProgramEnd (id : Nat) (attempts : BitVec 2) (ok : Bool) : Statement (.vaultProgramEnd id attempts ok) := Instr.wellFormed_or_illFormed _
theorem vaultGapRecord : Statement (.vaultGapRecord) := Instr.wellFormed_or_illFormed _
theorem vaultRelease (who : Who) (v : BitVec 16) : Statement (.vaultRelease who v) := Instr.wellFormed_or_illFormed _
theorem vaultMountEnd : Statement (.vaultMountEnd) := Instr.wellFormed_or_illFormed _
theorem vaultLateFaultPop : Statement (.vaultLateFaultPop) := Instr.wellFormed_or_illFormed _
theorem vaultAseqCapture (c : CoreId) : Statement (.vaultAseqCapture c) := Instr.wellFormed_or_illFormed _
theorem lastGaspSeal : Statement (.lastGaspSeal) := Instr.wellFormed_or_illFormed _
theorem touchFrameDue : Statement (.touchFrameDue) := Instr.wellFormed_or_illFormed _
theorem touchFrameStart : Statement (.touchFrameStart) := Instr.wellFormed_or_illFormed _
theorem touchFrameEnd (raw : List (List (BitVec 16) × List (BitVec 16))) (noise : BitVec 12) (cand : BitVec 12) (sub : BitVec 10) : Statement (.touchFrameEnd raw noise cand sub) := Instr.wellFormed_or_illFormed _
theorem touchStuckReset (g : BitVec 2) (sub : BitVec 10) : Statement (.touchStuckReset g sub) := Instr.wellFormed_or_illFormed _
theorem touchRateStep (sub : BitVec 10) : Statement (.touchRateStep sub) := Instr.wellFormed_or_illFormed _
theorem touchReacquire (who : Who) : Statement (.touchReacquire who) := Instr.wellFormed_or_illFormed _
theorem touchChgForce (who : Who) (v : BitVec 16) : Statement (.touchChgForce who v) := Instr.wellFormed_or_illFormed _
theorem touchResultCapture : Statement (.touchResultCapture) := Instr.wellFormed_or_illFormed _
theorem sentinelScanDue : Statement (.sentinelScanDue) := Instr.wellFormed_or_illFormed _
theorem sentinelScanEnd (raw : List (BitVec 16)) (noise : BitVec 12) : Statement (.sentinelScanEnd raw noise) := Instr.wellFormed_or_illFormed _
theorem paneUp (who : Who) : Statement (.paneUp who) := Instr.wellFormed_or_illFormed _
theorem paneDown (who : Who) : Statement (.paneDown who) := Instr.wellFormed_or_illFormed _
theorem paneClr (who : Who) : Statement (.paneClr who) := Instr.wellFormed_or_illFormed _
theorem paneRailChange (rail : BitVec 3) (good : Bool) (isOff : Bool) : Statement (.paneRailChange rail good isOff) := Instr.wellFormed_or_illFormed _
theorem paneRailWindowExpiry : Statement (.paneRailWindowExpiry) := Instr.wellFormed_or_illFormed _
theorem paneFrameStart : Statement (.paneFrameStart) := Instr.wellFormed_or_illFormed _
theorem paneLineStart : Statement (.paneLineStart) := Instr.wellFormed_or_illFormed _
theorem paneFrameEnd : Statement (.paneFrameEnd) := Instr.wellFormed_or_illFormed _
theorem paneStale : Statement (.paneStale) := Instr.wellFormed_or_illFormed _
theorem ledSinkSet (who : Who) (n : BitVec 2) (code : BitVec 8) : Statement (.ledSinkSet who n code) := Instr.wellFormed_or_illFormed _
theorem ledSinkOutOfRegulation (n : BitVec 2) : Statement (.ledSinkOutOfRegulation n) := Instr.wellFormed_or_illFormed _
theorem sillSampleInstant (sub : BitVec 10) : Statement (.sillSampleInstant sub) := Instr.wellFormed_or_illFormed _
theorem sillBurstLand (sh : List (BitVec 16)) (shClip : Option Bool) (cmBad : Bool) (aux : List (BitVec 16)) (temp : Option (BitVec 16)) : Statement (.sillBurstLand sh shClip cmBad aux temp) := Instr.wellFormed_or_illFormed _
theorem sillTempLand (t : BitVec 16) : Statement (.sillTempLand t) := Instr.wellFormed_or_illFormed _
theorem sillShuntPop : Statement (.sillShuntPop) := Instr.wellFormed_or_illFormed _
theorem sillCtlWrite (who : Who) (v : BitVec 16) : Statement (.sillCtlWrite who v) := Instr.wellFormed_or_illFormed _
theorem sillAuxCapture (n : BitVec 3) : Statement (.sillAuxCapture n) := Instr.wellFormed_or_illFormed _
theorem sillResumeCapture (hi : Bool) : Statement (.sillResumeCapture hi) := Instr.wellFormed_or_illFormed _
theorem storeChargeCapture (hi : Bool) : Statement (.storeChargeCapture hi) := Instr.wellFormed_or_illFormed _
theorem calendarTick : Statement (.calendarTick) := Instr.wellFormed_or_illFormed _
theorem calendarLoad (who : Who) : Statement (.calendarLoad who) := Instr.wellFormed_or_illFormed _
theorem calendarCapture : Statement (.calendarCapture) := Instr.wellFormed_or_illFormed _
theorem floorRaise (who : Who) (v : BitVec 16) : Statement (.floorRaise who v) := Instr.wellFormed_or_illFormed _
theorem floorProgramEnd : Statement (.floorProgramEnd) := Instr.wellFormed_or_illFormed _
theorem cryptoJobStart (c : CoreId) (v : BitVec 16) : Statement (.cryptoJobStart c v) := Instr.wellFormed_or_illFormed _
theorem cryptoJobEnd : Statement (.cryptoJobEnd) := Instr.wellFormed_or_illFormed _
theorem rngRead : Statement (.rngRead) := Instr.wellFormed_or_illFormed _
theorem rngHealthFail : Statement (.rngHealthFail) := Instr.wellFormed_or_illFormed _
theorem rngRestart (who : Who) : Statement (.rngRestart who) := Instr.wellFormed_or_illFormed _
theorem hingeId (hdrOk : Bool) : Statement (.hingeId hdrOk) := Instr.wellFormed_or_illFormed _
theorem hingeRead (space : HingeSpace) (a : BitVec 16) (hdrOk : Bool) : Statement (.hingeRead space a hdrOk) := Instr.wellFormed_or_illFormed _
theorem hingeWrite (space : HingeSpace) (a : BitVec 16) (v : BitVec 16) (hdrOk : Bool) (dataOk : Bool) : Statement (.hingeWrite space a v hdrOk dataOk) := Instr.wellFormed_or_illFormed _
theorem hingeChallenge (rnd : List Byte) : Statement (.hingeChallenge rnd) := Instr.wellFormed_or_illFormed _
theorem hingeOpen : Statement (.hingeOpen) := Instr.wellFormed_or_illFormed _
theorem hingeSessionCheckEnd : Statement (.hingeSessionCheckEnd) := Instr.wellFormed_or_illFormed _
theorem hingeClose : Statement (.hingeClose) := Instr.wellFormed_or_illFormed _
theorem hingeHalt (c : CoreId) : Statement (.hingeHalt c) := Instr.wellFormed_or_illFormed _
theorem coreHalted (c : CoreId) : Statement (.coreHalted c) := Instr.wellFormed_or_illFormed _
theorem hingeResume (c : CoreId) : Statement (.hingeResume c) := Instr.wellFormed_or_illFormed _
theorem hingeStep (c : CoreId) : Statement (.hingeStep c) := Instr.wellFormed_or_illFormed _
theorem hingeSchedWrite (c : CoreId) (on : Bool) : Statement (.hingeSchedWrite c on) := Instr.wellFormed_or_illFormed _
theorem hingePcWrite (c : CoreId) (v : BitVec 16) : Statement (.hingePcWrite c v) := Instr.wellFormed_or_illFormed _
theorem hingeReset (v : BitVec 16) : Statement (.hingeReset v) := Instr.wellFormed_or_illFormed _
theorem otpProg : Statement (.otpProg) := Instr.wellFormed_or_illFormed _
theorem otpProgEnd : Statement (.otpProgEnd) := Instr.wellFormed_or_illFormed _
theorem lifecycleLock : Statement (.lifecycleLock) := Instr.wellFormed_or_illFormed _
theorem lifecycleRetire : Statement (.lifecycleRetire) := Instr.wellFormed_or_illFormed _
theorem fetchCountCapture (c : CoreId) : Statement (.fetchCountCapture c) := Instr.wellFormed_or_illFormed _
theorem canBusIntegration : Statement (.canBusIntegration) := Instr.wellFormed_or_illFormed _
theorem canBusOffRecoveryEnd : Statement (.canBusOffRecoveryEnd) := Instr.wellFormed_or_illFormed _
theorem ledSinkBackInRegulation (n : BitVec 2) : Statement (.ledSinkBackInRegulation n) := Instr.wellFormed_or_illFormed _
theorem cellPresent : Statement (.cellPresent) := Instr.wellFormed_or_illFormed _
theorem coldStarterStart : Statement (.coldStarterStart) := Instr.wellFormed_or_illFormed _
theorem entryBuckMargin (met : Bool) : Statement (.entryBuckMargin met) := Instr.wellFormed_or_illFormed _
theorem rngRefillEnd (w : BitVec 16) : Statement (.rngRefillEnd w) := Instr.wellFormed_or_illFormed _
theorem hingeUnknownCommand (cmd : BitVec 6) (hdrOk : Bool) : Statement (.hingeUnknownCommand cmd hdrOk) := Instr.wellFormed_or_illFormed _
theorem portUFramingError : Statement (.portUFramingError) := Instr.wellFormed_or_illFormed _

end WellFormedDecides
end Laws
end Sys2Proof
end

