-- ==== Sys2Proof/Laws/Runs.lean ====
section
/-!
SUPPORT. An instruction that changes its core alone, or traps, seen from outside: what `Runs` and `Traps` say follows from what the
instruction's body does to the core.
-/
namespace Sys2Proof
namespace Laws
open Machine

variable {c : CoreId} {words extra : Nat} {ill : Core → Option (BitVec 4)} {body : State → Effect} {s t : State} {k : Core}

theorem ready_issuing (h : Ready c words s) : issuing c s = true := by
  obtain ⟨h1, h2, h3, -⟩ := h
  simp [issuing, State.awake, h1, h2, h3]

theorem ready_check (h : Ready c words s) (hw : words = 1 ∨ words = 2) (hi : ill (s.core c).landDue = none) :
    issueCheck c words ill (s.core c).landDue = none :=
  issueCheck_none hi (by intro hc; simpa using h.2.2.2 hc) hw

theorem stepEnd_eq (k : Core) : k.stepEnd = { k with st := k.stepEnd.st, stepping := k.stepEnd.stepping, haltReq := k.stepEnd.haltReq } := by
  unfold Core.stepEnd
  (repeat' split) <;> rfl

theorem stepEnd_same (h : k.stepping = false) : k.stepEnd = k := by simp [Core.stepEnd, h]

theorem growReturn_eq (k : Core) (n : Nat) : k.growReturn n = { k with rs := (k.growReturn n).rs } := by
  unfold Core.growReturn
  split <;> rfl

theorem growReturn_rs (h : k.call = false ∨ k.xfer = none ∨ words = 1) : k.growReturn words = k := by
  unfold Core.growReturn
  rw [if_neg]
  rcases h with h | h | h <;> simp [h]

theorem following_eq (k : Core) (words : Nat) : (k.advancePc words).pc = k.following words := by
  unfold Core.advancePc Core.following
  rw [growReturn_eq] <;> rfl

/-- What moving on changes. -/
theorem advancePc_eq (k : Core) (words : Nat) :
    k.advancePc words = { k with pc := k.following words, xfer := none, call := false, rs := (k.growReturn words).rs,
                                 fcnt := k.fcnt + BitVec.ofNat 32 (words + k.discards) } := by
  unfold Core.advancePc Core.following Core.discards
  rw [growReturn_eq]
  simp only [Core.fetched]
  cases k.xfer with
  | none => rfl
  | some o => cases o <;> rfl

/-- An instruction whose body changes registers, flags and results in flight alone runs as `Runs` says. -/
theorem runs_of (hr : Ready c words s) (hw : words = 1 ∨ words = 2) (hi : ill (s.core c).landDue = none) (k2 : Core)
    (hb : body (s.setCore c ((s.core c).landDue.advancePc words)) = .done (s.setCore c k2) extra)
    (hk : k2 = { (s.core c).landDue.advancePc words with
                 k := k2.k, z := k2.z, n := k2.n, c := k2.c, v := k2.v }) :
    let t := issue c words ill body s
    RunsIn c words (words + extra) s t ∧ (t.core c).k = k2.k ∧ (t.core c).z = k2.z ∧ (t.core c).n = k2.n ∧ (t.core c).c = k2.c ∧ (t.core c).v = k2.v := by
  intro t
  have ht : t = s.setCore c (k2.spend (words + extra)).stepEnd := by
    rw [show t = _ from issue_done (ready_issuing hr) (ready_check hr hw hi) hb]
    simp
  have hc : t.core c = (k2.spend (words + extra)).stepEnd := by rw [ht]; simp
  refine ⟨⟨by rw [OnlyCore, hc, ht], ?_, ?_, ?_⟩, ?_⟩
  · rw [hc, stepEnd_eq, State.seen, Core.spend, hk, advancePc_eq]
    rfl
  · intro h
    rw [hc, stepEnd_eq, Core.spend, hk, advancePc_eq]
    simp only [State.seen]
    rw [growReturn_rs (k := (s.core c).landDue) h]
  · intro h
    have : (k2.spend (words + extra)).stepping = false := by rw [Core.spend, hk, advancePc_eq]; exact h
    rw [hc, stepEnd_same this, Core.spend, hk, advancePc_eq]
    exact ⟨rfl, h, rfl⟩
  · rw [hc, stepEnd_eq]
    exact ⟨rfl, rfl, rfl, rfl, rfl⟩

/-- The core after a trap's records and slots. -/
def trapped (p : Trap) (words : Nat) (k : Core) : Core := (((k.growReturn words).trap p words).fetched words k.xfer.isSome).spend 2

theorem trapped_eq (p : Trap) (words : Nat) (k : Core) : trapped p words k = {
    k with trapPc := k.pc, trapNext := k.following words, trapCause := p.cause, trapDetail := p.detail,
           trapSpace := p.space, trapAddr := p.addr, trapDs := k.xfer.isSome, trapNest := k.trapNest || k.trapActive, trapActive := true,
           trapCnt := if k.trapCnt = 0xFFFF then 0xFFFF else k.trapCnt + 1, pc := k.door, xfer := none, call := false,
           rs := (k.growReturn words).rs, fcnt := k.fcnt + BitVec.ofNat 32 (if k.xfer.isSome then words + 1 else words),
           au := { k.au with flight := flown 2 k.au.flight } } := by
  have e1 : ∀ b : Bool, words + b2n b = if b = true then words + 1 else words := by intro b; cases b <;> rfl
  have e2 : ∀ v : BitVec 16, satInc v = if v = 0xFFFF then 0xFFFF else v + 1 := by
    intro v
    unfold satInc
    split <;> split <;> simp_all
  unfold trapped
  rw [growReturn_eq, Core.trap, Core.fetched, e1]
  dsimp only
  rw [e2]
  rfl

/-- A trap is what `Traps` says. -/
theorem issueTrap_traps (p : Trap) : Traps c words p s (issueTrap c p words (s.setCore c (s.core c).landDue)) := by
  have hc : (issueTrap c p words (s.setCore c (s.core c).landDue)).core c = (trapped p words (s.core c).landDue).stepEnd := by
    simp [issueTrap, trapped]
  refine ⟨by simp [OnlyCore, issueTrap], ?_, ?_, ?_⟩
  · rw [hc, stepEnd_eq, trapped_eq]
    rfl
  · intro h
    rw [hc, stepEnd_eq, trapped_eq, growReturn_rs (k := (s.core c).landDue) h]
    exact landDue_rs
  · intro h
    have h' : (trapped p words (s.core c).landDue).stepping = false := by rw [trapped_eq]; exact h
    rw [hc, stepEnd_same h', trapped_eq]
    refine ⟨landDue_st, h, ?_⟩
    rw [landDue_lands (s.core c)]

/-- A check that fails makes the instruction trap. -/
theorem traps_check (h : issuing c s = true) {p : Trap} (hc : issueCheck c words ill (s.core c).landDue = some p) :
    Traps c words p s (issue c words ill body s) := by
  rw [issue_check h hc]
  exact issueTrap_traps p

/-- A body that traps makes the instruction trap. -/
theorem traps_body (hr : Ready c words s) (hw : words = 1 ∨ words = 2) (hi : ill (s.core c).landDue = none) {p : Trap}
    (hb : body (s.setCore c ((s.core c).landDue.advancePc words)) = .trap p) : Traps c words p s (issue c words ill body s) := by
  rw [issue_trap (ready_issuing hr) (ready_check hr hw hi) hb]
  exact issueTrap_traps p

/-- A core whose delay slot comes next does not end its step. -/
theorem stepEnd_xfer (h : k.xfer ≠ none) : k.stepEnd = k := by
  unfold Core.stepEnd
  rw [if_neg]
  cases e : k.xfer with
  | none => exact absurd e h
  | some o => simp

/-- A transfer runs as `Transfers` says. -/
theorem transfers_of (hr : Ready c words s) (hw : words = 1 ∨ words = 2) (hi : ill (s.core c).landDue = none) (o : Option Word) (k2 : Core)
    (hb : body (s.setCore c ((s.core c).landDue.advancePc words)) = .done (s.setCore c k2) 0)
    (hk : k2 = { (s.core c).landDue.advancePc words with
                 xfer := some o, call := k2.call, rs := k2.rs, rsP := k2.rsP, rsD := k2.rsD, rsWrapped := k2.rsWrapped, rsUnder := k2.rsUnder }) :
    let t := issue c words ill body s
    Transfers c words s t o ∧ t.core c = k2.spend words := by
  intro t
  have hx : k2.xfer = some o := by rw [hk]
  have h1 : t = s.setCore c (k2.spend words) := by
    rw [show t = _ from issue_done (ready_issuing hr) (ready_check hr hw hi) hb]
    simp only [State.core_setCore, State.setCore_setCore]
    rw [stepEnd_xfer (by simp [Core.spend, hx]), Nat.add_zero]
  have hc : t.core c = k2.spend words := by rw [h1]; simp
  refine ⟨⟨by rw [OnlyCore, hc, h1], ?_, ?_, ?_, ?_, ?_, ?_⟩, hc⟩
  · rw [KeepsFlags, hc, Core.spend, hk, advancePc_eq]
    exact ⟨rfl, rfl, rfl, rfl⟩
  · rw [hc, Core.spend, hk, advancePc_eq]
    exact landDue_k
  · rw [hc, Core.spend, hk]
  · rw [hc, Core.spend, hk, advancePc_eq]
    simp only [State.seen, landDue_rsP, landDue_rsD]
    have hl := landDue_lands (s.core c)
    have h1 : (s.core c).landDue.rsWrapped = (s.core c).rsWrapped := by rw [hl]
    have h2 : (s.core c).landDue.rsUnder = (s.core c).rsUnder := by rw [hl]
    rw [← h1, ← h2, ← landDue_rsP, ← landDue_rsD]
    rfl
  · intro _
    exact (landDue_rs (k := s.core c)).symm
  · intro h
    rw [hc, Core.spend, hk, advancePc_eq]
    exact ⟨rfl, h, rfl⟩

end Laws
end Sys2Proof
end

