-- ==== Sys2Proof/Laws/Settle.lean ====
section
/-!
SUPPORT. What the Mortar's settling leaves alone: every round, and so `emit`, answers a state that is `Settled` from the one it took.
-/
namespace Sys2Proof
namespace Laws
open Machine

variable {s t u : State}

/-- Settling within one power state: nothing of the power state changes. -/
def Still (s t : State) : Prop := Settled s t ∧ t.pwr = s.pwr

theorem settled_refl (s : State) : Settled s s := ⟨rfl, rfl, rfl, rfl, rfl, rfl, rfl, .inl rfl⟩

theorem still_refl (s : State) : Still s s := ⟨settled_refl s, rfl⟩

theorem settled_trans (h : Still s t) (g : Settled t u) : Settled s u := by
  obtain ⟨⟨h1, h2, h3, h4, h5, h6, h7, -⟩, hp⟩ := h
  obtain ⟨g1, g2, g3, g4, g5, g6, g7, g8⟩ := g
  refine ⟨?_, ?_, ?_, ?_, ?_, ?_, ?_, ?_⟩
  · rw [h1] at g1; exact g1
  · rw [h2] at g2; exact g2
  · rw [h3] at g3; exact g3
  · rw [h4] at g4; exact g4
  · rw [h5] at g5; exact g5
  · rw [h6] at g6; exact g6
  · rw [h7] at g7; exact g7
  · rw [hp] at g8; exact g8

theorem still_trans (h : Still s t) (g : Still t u) : Still s u := ⟨settled_trans h g.1, by rw [g.2, h.2]⟩

/-- The main domain works. -/
theorem still_on (h : Still s t) : t.mainOn = s.mainOn := by simp only [State.mainOn, h.2]

theorem still_foldl {α : Type} {f : State → α → State} (hf : ∀ s a, s.mainOn = true → Still s (f s a)) (l : List α) (s : State)
    (h : s.mainOn = true) : Still s (l.foldl f s) := by
  induction l generalizing s with
  | nil => exact still_refl s
  | cons a l ih => exact still_trans (hf s a h) (ih _ (by rw [still_on (hf s a h), h]))

/-! ### Cores -/

/-- A core but for its latches. -/
def Latched (k k' : Core) : Prop := k' = { k with lat := k'.lat, ovf := k'.ovf, hit := k'.hit }

theorem latched_trans {a b c : Core} (h : Latched a b) (g : Latched b c) : Latched a c := by
  unfold Latched at *
  rw [h] at g
  exact g

theorem latched_foldl {α : Type} {f : Core → α → Core} (hf : ∀ k a, Latched k (f k a)) (l : List α) (k : Core) : Latched k (l.foldl f k) := by
  induction l generalizing k with
  | nil => exact rfl
  | cons a l ih =>
    exact latched_trans (hf k a) (ih _)

theorem viewStep_eq (v : Vector SinkCfg 12) (rise fall : BitVec 64) (k : Core) : Latched k (viewStep v rise fall k) := by
  unfold viewStep
  refine latched_foldl (fun k n => ?_) _ k
  dsimp only
  (repeat' split) <;> exact rfl

/-! ### The course engine -/

theorem addRecord_eq (r : ContractRec) (c : CourseEngine) :
    addRecord r c = { c with recs := (addRecord r c).recs, stat := (addRecord r c).stat } := by
  unfold addRecord
  split <;> rfl

theorem addDue_eq (n : BitVec 6) (us : BitVec 10) (g : Bool) (c : CourseEngine) :
    addDue n us g c = { c with pend := (addDue n us g c).pend, recs := (addDue n us g c).recs, stat := (addDue n us g c).stat,
                               skipCnt := (addDue n us g c).skipCnt } := by
  unfold addDue
  dsimp only
  split
  · split
    · rfl
    · unfold skipOccurrence
      rw [addRecord_eq]
  · rfl

theorem fallDue_still (n : BitVec 6) (us : BitVec 10) (s : State) (h : s.mainOn = true) : Still s (fallDue n us s) := by
  unfold State.mainOn at h
  unfold fallDue
  cases e : s.pwr.phase <;> simp [e] at h
  · exact ⟨⟨rfl, rfl, rfl, by simp only; rw [addDue_eq], rfl, rfl, rfl, .inl rfl⟩, rfl⟩
  · exact ⟨⟨rfl, rfl, rfl, by simp only; rw [addDue_eq], rfl, rfl, rfl, .inl rfl⟩, rfl⟩

theorem lineEdge_still (n : Nat) (r : Bool) (s : State) (h : s.mainOn = true) : Still s (lineEdge n r s) := by
  unfold lineEdge
  exact still_foldl (fun t n h => fallDue_still n _ t h) _ s h

/-! ### The Vault -/

theorem vAccept_still (type : Byte) (stream : BitVec 4) (flags : Byte) (body : List Byte) (c u : Bool) (s : State) :
    Still s (vAccept type stream flags body c u s) :=
  ⟨⟨rfl, rfl, rfl, rfl, rfl, rfl, rfl, .inl rfl⟩, rfl⟩

theorem addGap_still (cause : GapCause) (stream : BitVec 4) (s : State) : Still s (addGap cause stream s) := by
  unfold addGap
  dsimp only
  split <;> exact ⟨⟨rfl, rfl, rfl, rfl, rfl, rfl, rfl, .inl rfl⟩, rfl⟩

theorem shedOffer_still (cause : GapCause) (stream : BitVec 4) (s : State) : Still s (shedOffer cause stream s) := by
  unfold shedOffer
  exact still_trans (t := { s with vlt.shed := satInc s.vlt.shed }) ⟨⟨rfl, rfl, rfl, rfl, rfl, rfl, rfl, .inl rfl⟩, rfl⟩ (addGap_still _ _ _)

theorem writeGap_still (s : State) : Still s (writeGap s) := by
  unfold writeGap
  split
  · extract_lets due s1
    split
    · exact ⟨⟨rfl, rfl, rfl, rfl, rfl, rfl, rfl, .inl rfl⟩, rfl⟩
    · exact still_refl s
  · exact still_refl s

theorem overload_still (type : Byte) (stream : BitVec 4) (flags : Byte) (room : Nat) (body : List Byte) (c : Bool) (s : State) :
    Still s (overload type stream flags room body c s).2 := by
  unfold overload
  extract_lets v thinnable n k s1
  have h1 : Still s s1 := by
    simp only [s1]
    split
    · exact ⟨⟨rfl, rfl, rfl, rfl, rfl, rfl, rfl, .inl rfl⟩, rfl⟩
    · exact still_refl s
  split
  · exact still_trans h1 ⟨⟨rfl, rfl, rfl, rfl, rfl, rfl, rfl, .inl rfl⟩, rfl⟩
  · split
    · exact still_trans h1 (vAccept_still _ _ _ _ _ _ _)
    · exact still_trans h1 (shedOffer_still _ _ _)

theorem offer_still (core : Bool) (type : Byte) (stream : BitVec 4) (flags : Byte) (bad : BitVec 4) (room : Nat) (body : List Byte) (c : Bool)
    (s : State) : Still s (offer core type stream flags bad room body c s).2 := by
  unfold offer
  split
  · exact shedOffer_still _ _ _
  · dsimp only
    split
    · exact still_trans (writeGap_still s) (overload_still _ _ _ _ _ _ _)
    · split
      · exact addGap_still _ _ _
      · split
        · exact shedOffer_still _ _ _
        · exact still_refl s

theorem offerTrig_still (n : Nat) (s : State) : Still s (offerTrig n s) := offer_still _ _ _ _ _ _ _ _ _

/-! ### Settling -/

theorem sinkStep_still (rise fall line : BitVec 64) (s : State) (h : s.mainOn = true) : Still s (sinkStep rise fall line s) := by
  unfold sinkStep
  extract_lets s1 s2 s3 s4
  have h1 : Still s s1 := ⟨⟨rfl, viewStep_eq _ _ _ _, viewStep_eq _ _ _ _, rfl, rfl, rfl, rfl, .inl rfl⟩, rfl⟩
  have o1 : s1.mainOn = true := by rw [still_on h1, h]
  have h2 : Still s1 s2 := by
    refine still_foldl (fun s n h => ?_) _ _ o1
    split
    · exact lineEdge_still _ _ _ h
    · split
      · exact lineEdge_still _ _ _ h
      · exact still_refl s
  have h3 : Still s2 s3 := by
    simp only [s3]
    split
    · exact offerTrig_still _ _
    · exact still_refl s2
  have h4 : Still s3 s4 := by
    simp only [s4]
    split
    · exact offerTrig_still _ _
    · exact still_refl s3
  exact still_trans h1 (still_trans h2 (still_trans h3 (still_trans h4 ⟨⟨rfl, rfl, rfl, rfl, rfl, rfl, rfl, .inl rfl⟩, rfl⟩)))

theorem cellStep_eq (old line rise : BitVec 64) (f : Nat → Bool) (m : Mortar) (n : Nat) :
    cellStep old line rise f m n =
      { m with out := (cellStep old line rise f m n).out, lat := (cellStep old line rise f m n).lat,
               look := (cellStep old line rise f m n).look, wait := (cellStep old line rise f m n).wait } := by
  unfold cellStep
  simp only [addWait, dropWait, setLatch]
  (repeat' split) <;> rfl

theorem cells_eq (old line rise : BitVec 64) (f : Nat → Bool) (l : List Nat) (m : Mortar) :
    l.foldl (cellStep old line rise f) m =
      { m with out := (l.foldl (cellStep old line rise f) m).out, lat := (l.foldl (cellStep old line rise f) m).lat,
               look := (l.foldl (cellStep old line rise f) m).look, wait := (l.foldl (cellStep old line rise f) m).wait } := by
  induction l generalizing m with
  | nil => rfl
  | cons n l ih =>
    simp only [List.foldl_cons]
    rw [ih, cellStep_eq]

theorem settleRound_still (s : State) (h : s.mainOn = true) : Still s (settleRound s).1 := by
  unfold settleRound
  extract_lets line rise fall m0 s1 m
  have h0 : Still s { s with mrt.line := line } := ⟨⟨rfl, rfl, rfl, rfl, rfl, rfl, rfl, .inl rfl⟩, rfl⟩
  have h1 : Still { s with mrt.line := line } s1 := sinkStep_still _ _ _ _ h
  have h2 : Still s1 { s1 with mrt := m } := ⟨⟨rfl, rfl, rfl, rfl, rfl, rfl, by simp only [m]; rw [cells_eq], .inl rfl⟩, rfl⟩
  exact still_trans h0 (still_trans h1 h2)

theorem settle_still (n : Nat) (s : State) (h : s.mainOn = true) : Still s (settle n s) := by
  induction n generalizing s with
  | zero => exact still_refl s
  | succ n ih =>
    unfold settle
    have h1 := settleRound_still s h
    dsimp only
    split
    · exact h1
    · exact still_trans h1 (ih _ (by rw [still_on h1, h]))

theorem addPulse_eq (l : List (BitVec 8)) (m : Mortar) : l.foldl addPulse m = { m with pulses := (l.foldl addPulse m).pulses } := by
  induction l generalizing m with
  | nil => rfl
  | cons n l ih =>
    simp only [List.foldl_cons]
    rw [ih]
    unfold addPulse
    split <;> rfl

theorem wrCheck_settled (s : State) : Settled s (wrCheck s) := by
  unfold wrCheck
  split
  · rename_i z e
    dsimp only
    split
    · exact ⟨rfl, rfl, rfl, rfl, rfl, rfl, rfl, .inr ⟨z, e, rfl, rfl⟩⟩
    · exact settled_refl s
  · exact settled_refl s

/-- The fabric settles, and nothing else changes. -/
theorem emit_settled (ps : List (BitVec 8)) (s : State) : Settled s (emit ps s) := by
  unfold emit
  split
  · rename_i h
    have hp := addPulse_eq ps s.mrt
    generalize ps.foldl addPulse s.mrt = m at *
    have h0 : Still s { s with mrt := m } := ⟨⟨rfl, rfl, rfl, rfl, rfl, rfl, by dsimp only; rw [hp], .inl rfl⟩, rfl⟩
    exact settled_trans (still_trans h0 (settle_still _ _ h)) (wrCheck_settled _)
  · exact settled_refl s

/-! ### What `emit` leaves as it was -/

variable {ps : List (BitVec 8)}

@[simp] theorem emit_en : (emit ps s).en = s.en := by rw [(emit_settled ps s).1]
@[simp] theorem emit_por : (emit ps s).por = s.por := by rw [(emit_settled ps s).1]
@[simp] theorem emit_isl : (emit ps s).isl = s.isl := by rw [(emit_settled ps s).1]
@[simp] theorem emit_img : (emit ps s).img = s.img := by rw [(emit_settled ps s).1]
@[simp] theorem emit_mem : (emit ps s).mem = s.mem := by rw [(emit_settled ps s).1]
@[simp] theorem emit_tie : (emit ps s).tie = s.tie := by rw [(emit_settled ps s).1]
@[simp] theorem emit_ash : (emit ps s).ash = s.ash := by rw [(emit_settled ps s).1]
@[simp] theorem emit_prt : (emit ps s).prt = s.prt := by rw [(emit_settled ps s).1]
@[simp] theorem emit_pc : (emit ps s).pc = s.pc := by rw [(emit_settled ps s).1]
@[simp] theorem emit_pin : (emit ps s).pin = s.pin := by rw [(emit_settled ps s).1]
@[simp] theorem emit_tch : (emit ps s).tch = s.tch := by rw [(emit_settled ps s).1]
@[simp] theorem emit_sent : (emit ps s).sent = s.sent := by rw [(emit_settled ps s).1]
@[simp] theorem emit_sill : (emit ps s).sill = s.sill := by rw [(emit_settled ps s).1]
@[simp] theorem emit_rtc : (emit ps s).rtc = s.rtc := by rw [(emit_settled ps s).1]
@[simp] theorem emit_sec : (emit ps s).sec = s.sec := by rw [(emit_settled ps s).1]
@[simp] theorem emit_hng : (emit ps s).hng = s.hng := by rw [(emit_settled ps s).1]
@[simp] theorem emit_free : (emit ps s).free = s.free := by rw [(emit_settled ps s).1]
@[simp] theorem emit_out : (emit ps s).out = s.out := by rw [(emit_settled ps s).1]
@[simp] theorem emit_pending : (emit ps s).pending = s.pending := by rw [(emit_settled ps s).1]

end Laws
end Sys2Proof
end

