-- ==== Sys2Proof/Tests/Slice0.lean ====
section
/-!
SUPPORT. The model's own tests: well-formedness, the worked examples of the spec, and for every statement states that meet its
hypotheses.
-/
namespace Sys2Proof
namespace Tests
open Machine

/-! ### Small states -/

/-- The part awake, nothing else changed from reset. -/
def awakeS : State := { State.reset with pwr.phase := .awake }

/-- Core c runs at an address. -/
def running (c : CoreId) (a : Word) : State := awakeS.setCore c { (awakeS.core c) with st := .running, pc := a }

/-- Core c runs and owns every port's mailbox. -/
def portOwned (c : CoreId) : State :=
  let o : BitVec 16 := if c.isB then 5 else 3
  let s := running c 0
  { s with prt.s.cfg := o, prt.q.cfg := o, prt.u.cfg := o, pc.cfg := o }

/-- Core A runs under schedule check with a comparison in flight. -/
def comparing : State :=
  let k := (running .a 0).coreA
  let r : AuRes := { seq := 0, left := 1, dst := .flags true false false false, ff := 0, idz := false, iov := false, iter := false }
  { running .a 0 with coreA := { k with sched := true, au := { k.au with flight := [r] } } }

/-- A session is open, and core A owns pin PA0, which is trusted. -/
def trusted : State :=
  let s := running .a 0
  { s with hng.session := true, pin.rcv := false, pin.items := s.pin.items.set 0 0x00000009 }

/-- Core A runs with a division in flight, K1 = 3. -/
def dividing : State :=
  let k := (running .a 0).coreA
  let r : AuRes := { seq := 0, left := 5, dst := .qtrm 1 2, ff := 0, idz := false, iov := false, iter := true }
  { running .a 0 with coreA := { k with k := k.k.set 1 3, au := { k.au with flight := [r] } } }

/-- Core A runs with the binary16 accumulator hanging on a division in flight. -/
def hanging : State :=
  let k := (running .a 0).coreA
  { running .a 0 with coreA := { k with au := { k.au with frHang := true } } }

/-- A course of one task at 0x0010 on each core, every window open from the start. -/
def oneCourse : CourseDef :=
  let w : Window := { never := false, openUs := 0, closeUs := none }
  { event := false, line := 0, rising := false, falling := false, period := 4, phase := 0, bound := 100, tail := 10
    tasksA := [0x10], tasksB := [0x10], sleep := 1, noTick := false, banks := 0, ashShare := 0, resv := Vector.replicate 8 0
    mortSet := 0, mortClr := 0, winVault := w, winTouch := w, winPane := w }

/-- The part awake with course 0 pending and both cores in one state. -/
def courseReady (st : CoreSt) : State :=
  { awakeS with coreA.st := st, coreB.st := st, crs.table := [oneCourse], crs.forced := none, crs.pend := [{ course := 0, tick := 0, us := 0 }] }

/-- Course 0 runs. -/
def courseRunning : State := { courseReady .running with crs.running := true, crs.now := 0, crs.pend := [] }

/-- Core A waits for the gather of an empty list on stream 1. -/
def gathering : State :=
  let s := running .a 0
  let v := { s.vlt with present := true, mounting := false, wear := 0, gaps := [], cfg := { s.vlt.cfg with strm := 2, stop := false, thin := false } }
  { s with coreA.busy := some (.snap 1 0 0), mem.bytes := [(1, 1)], vlt := v }

/-- A write to LEDG_STAT is posted. -/
def posting : State :=
  { running .a 0 with tie.post := [{ addr := 0x048, data := .word 4, who := .coreA }] }

/-- Core c has an append of type 1 set up, its status as given. -/
def appending (c : CoreId) (st : BitVec 3) : State :=
  let s := running c 0
  let x := { s.vlt.set c with type := 1, src := 0, len := 2, st := st }
  { s with vlt := { s.vlt.putSet c x with present := true, mounting := false, wear := 0, cfg := { s.vlt.cfg with strm := 1, stop := false, thin := false } } }

/-- The Vault's queue is full. -/
def fullQueue : State :=
  let r : VRec := { seq := 0, bytes := List.replicate 248 0, tick := 0, copying := false, unsealed := false, prog := none }
  { appending .a 1 with vlt.queue := List.replicate 33 r }

/-- One gap is pending. -/
def gapped : State :=
  { appending .a 1 with vlt.gaps := [{ cause := .shed, lost := 1, streams := 1, seqRef := 0, first := 0, last := 0 }] }

/-- One old record waits in an open window. -/
def programming : State :=
  let s := appending .a 1
  let r : VRec := { seq := 0, bytes := List.replicate 248 1, tick := 0, copying := false, unsealed := false, prog := none }
  { s with crs.winVault := true, vlt := { s.vlt with queue := [r, r], aged := true, leave := .none, cfg := { s.vlt.cfg with flush := 1, ppt := 0 } } }

/-- A page is being programmed. -/
def inFlight : State :=
  { appending .a 1 with vlt.flight := [{ id := 3, kind := .page 7, bytes := [1, 2], firstSeq := 0, recs := 1, cls := 1 }] }

/-- The part awake on one source. -/
def onSource (src : Source) : State := { awakeS with en := { (awakeS.en.setQ src true) with sel := selOf src } }

/-- The part awake on a source, with cell charging enabled and STORE above 3.0 V. -/
def charging (src : Source) : State := { onSource src with en.cfg.chgEn := true, en.store3v := true }

/-- A count message is on its way. -/
def counting : State := { awakeS with tie.count := some { qin := 1000, qout := 10, mv := 30000, sat := false } }

/-- One request waits on the lane. -/
def asked (k : BitVec 3) (r : Requester) (c : Nat) : State := { awakeS with tie.lane := [.ask k r c] }

/-- A request of class 1 that must be deferred waits on the lane. -/
def deferring : State := { asked 1 .vault 5 with por.ledger := 0, por.cfg.pcls := Vector.replicate 8 4 }

/-- The part asleep. -/
def asleepIn (z : Sleep) : State := { State.reset with pwr.phase := .asleep z, en.sel := .veh }

/-- A wake under way. -/
def waking (z : Sleep) (granted : Bool) : State := { State.reset with pwr.phase := .waking z granted, pwr.latched := 2 }

/-- A start under way. -/
def starting (k : StartKind) (d : Option (BitVec 32)) : State := { State.reset with pwr.phase := .starting, pwr.startKind := k, isl.digest := d }

/-- An entry under way with nothing left to end. -/
def entering (z : Sleep) : State := { State.reset with pwr.phase := .entering z }

/-- An entry whose drain has lasted 32 ticks with a record left. -/
def draining (z : Sleep) : State :=
  let r : VRec := { seq := 0, bytes := List.replicate 8 0, tick := 0, copying := false, unsealed := false, prog := none }
  { entering z with pwr.drainTicks := 32, vlt := { Vault.reset with present := true, queue := [r] } }

/-- The last gasp with no Vault. -/
def gasping : State := { awakeS with por.lgActive := true }

/-- A boot with slot 0 alone to try. -/
def booting : State := { State.reset with pwr.phase := .boot, img.order := [false] }

/-- A message of port S at the store service. -/
def serving (op : Byte) (payload : List Byte) : State := { awakeS with img.svc := [{ port := .s, opcode := op, tag := 0, payload := payload }] }

/-- The same within a session on slot 1. -/
def inSession (op : Byte) (payload : List Byte) : State :=
  let s := serving op payload
  { s with img := { s.img with slot1 := { Slot.shipped with st := .writing }, sess := some { port := .s, slot := true, len := 16, next := 0 } } }

/-- Port C error-active on a bus with an external reference, owned by core A. -/
def onCan : State := { awakeS with pc := { PortC.reset with cfg := 0x000B, fsm := .active }, crs.onRc := false }

/-- A frame of nothing. -/
def blankFrame : CanFrame := { id := 0, ide := false, rtr := false, fdf := false, brs := false, esi := false, dlc := 0, data := [], tick := 0, us := 0 }

/-- A reply with leave waits to be sent. -/
def replying : State := { onCan with pc.job := some { slot := 0, frame := blankFrame, granted := true, sending := false } }

/-- A frame waits for channel 0, which has one bank; `w` is the result of no match. -/
def receiving (w : Word) : State := { onCan with pc.rxq := [blankFrame], ash := { Ashlar.reset with ch0Banks := 1, nomat := w } }

/-- The same with an entry that matches every frame. -/
def matching : State := { receiving 0 with ash.entries := [(0, { key := 0, data := 0x20, prio := 0, tag := 0, valid := true, parity := true })] }

/-- One SELF group with one sensor, past its acquisition, high-drive or not. -/
def touching (high : Bool) : State :=
  let g : GroupCfg := { GroupCfg.absent with kind := .self, tx := [3], high := high, th := 100, maxOn := 1 }
  let c : TouchCfg := { TouchCfg.absent with groups := #v[g, GroupCfg.absent, GroupCfg.absent, GroupCfg.absent] }
  let tg : TouchGroup := { TouchGroup.empty with acq := 16, self := [Reading.zero] }
  let off : TouchGroup := { TouchGroup.empty with acq := 16 }
  { awakeS with tch := { Touch.reset with cfg := c, groups := #v[tg, off, off, off] } }

/-- The sentinel with three sensors. -/
def sensing : State :=
  let c : SentinelCfg := { SentinelCfg.absent with sensors := [0, 1, 2], sth := 100, spalmN := 2 }
  { awakeS with tch := { Touch.reset with cfg := { TouchCfg.absent with sent := c } } }

/-- A matrix panel of eight rows, its rails off. -/
def paned : State := { awakeS with pane := { Pane.reset with cfg := { PaneCfg.absent with mode := .matrix, rows := 8, cols := 8 } } }

/-- A frame is due in LIT. -/
def framing : State := { paned with pane.st := .lit, pane.due := true, crs.winPane := true }

/-- A frame runs. -/
def drawing : State := { paned with pane.st := .lit, pane.frame := some { clear := false, negative := false, line := 0 } }

/-- The Ashlar in the main banks, with a share of one. -/
def idle0 : State := { awakeS with pwr.ashRld := false, ash := { Ashlar.reset with ch1Banks := 3, share := 1 } }

/-- Core A's search of two entries is under way. -/
def searching (physical : Bool) : State :=
  let e : AshEntry := { AshEntry.blank with valid := true, prio := 1 }
  let k := { AshSet.reset with op := some (.search 0 0 0 0 physical) }
  { idle0 with ash := { Ashlar.reset with ch1Banks := 3, entries := [(2, e), (5, { e with prio := 7 })], setA := k } }

/-- A DIRECT, a LATCH and a PULSE cell, two delays running. -/
def delayed : State :=
  let c := fun (m : CellMode) => { CellCfg.idle with mode := m, delay := 3 }
  let cells := ((MortarCfg.absent.cells.set 0 (c .direct)).set 1 (c .latch)).set 2 (c .pulse)
  { awakeS with mrt := { Mortar.reset with wait := [(0, true), (1, true)], out := 4, cfg := { MortarCfg.absent with cells := cells } } }

/-- The calendar at a time, counted from the RC. -/
def clockAt (day : BitVec 5) (mon : BitVec 4) (year : BitVec 8) (hour : BitVec 5) (min sec : BitVec 6) (sub : BitVec 10) : State :=
  { awakeS with crs.onRc := true, rtc.now := { sub := sub, sec := sec, min := min, hour := hour, day := day, mon := mon, year := year } }

def clocked : State := clockAt 1 1 0 0 0 0 0

/-- The shunt stream runs, owned by core A. -/
def sampling : State :=
  let th : ThrCfg := { ch := some 0xF, above := true, level := 100, hyst := 10, count := 0, trange := 2 }
  let c : SillCfg := { SillCfg.absent with owner := 1, per := 1000, shOn := true, rmin := 0, rmax := 5, thr := SillCfg.absent.thr.set 0 th }
  { awakeS with sill := { Sill.reset with cfg := c, run := true, auto := true, range := 2, low := 7 } }

/-- A burst has started. -/
def converting : State :=
  { sampling with sill.burst := some { range := 2, seq := 0, settle := false, resume := false, shunt := true, aux := none, temp := false } }

/-- A session with every right is open, core A halted. -/
def hinged : State :=
  { awakeS with coreA.st := .halted .running, pin.vioOk := 7, hng := { Hinge.reset with session := true, rights := 0x1F } }


/-! ### Well-formedness: a term that each check refuses -/

theorem test_pin_48_is_refused : (Instr.pinInputChange 48 true).illFormed = some "pin" := by decide
theorem test_wake_source_12_is_refused : (Instr.sealedWake 12 true).illFormed = some "wake source" := by decide
theorem test_rail_7_is_refused : (Instr.paneRailChange 7 true false).illFormed = some "rail" := by decide
theorem test_long_frame_is_refused :
    (Instr.canFrameAccept { blankFrame with data := List.replicate 65 0 } false 0).illFormed = some "frame data" := by decide
theorem test_empty_window_write_is_refused : (Instr.ashlarWindowWrite .a 0xD000 []).illFormed = some "window write" := by decide
theorem test_short_challenge_is_refused : (Instr.hingeChallenge [1]).illFormed = some "challenge" := by decide
theorem test_pin_47_is_well_formed : (Instr.pinInputChange 47 true).wellFormed = true := by decide
theorem test_no_word_spells_a_command : decodeTableWord 16 0 = none := by decide

/-! ### Integer edge results (R270) -/

theorem test_mul_edge : mulU 0xFFFF 0xFFFF = 0xFFFE0001 := by decide
theorem test_muls_edge : mulS 0x8000 0x8000 = 0x40000000 ∧ mulS 0x8000 0x7FFF = 0xC0008000 := by decide
theorem test_div_by_zero : divU 0x1234 0 = (0xFFFF, 0x1234, true, false) := by decide
theorem test_divs_truncates : divS 0xFFF9 2 = (0xFFFD, 0xFFFF, false, false) ∧ divS 7 0xFFFE = (0xFFFD, 1, false, false) := by decide
theorem test_divs_overflow : divS 0x8000 0xFFFF = (0x8000, 0, false, true) := by decide

/-! ### binary16 edge results (R279): rows 1, 2, 4, 8, 12, 15, 17, 21, 22, 28, 30 -/

theorem test_f16_row_1 : add16 0 false (unpack false 1) (unpack false 1) = (2, 0) ∧ add16 0 true (unpack true 1) (unpack true 1) = (0, 0) := by
  decide +kernel
theorem test_f16_row_2 : add16 3 false (unpack false 0x7BFF) (unpack false 1) = (0x7C00, ffOF ||| ffNX) := by decide +kernel
theorem test_f16_row_4 : add16 2 false (unpack false 1) (unpack false 1).neg = (0x8000, 0) := by decide +kernel
theorem test_f16_row_8 : mul16 3 false (unpack false 1) (unpack false 1) = (1, ffUF ||| ffNX) := by decide +kernel
theorem test_f16_row_12 : fma16 0 false (unpack false 1) (unpack false 1) (unpack false 1) = (1, ffUF ||| ffNX) := by decide +kernel
theorem test_f16_row_15 : fma16 0 true (unpack true 0x7BFF) (unpack true 1) (unpack true 0x9BFF) = (0x9BFF, 0) := by decide +kernel
theorem test_f16_row_17 : div16 1 false (unpack false 0x7BFF) (unpack false 1) = (0x7BFF, ffOF ||| ffNX) ∧
    div16 0 true (unpack true 0x7BFF) (unpack true 1) = (0x7C00, ffDZ) := by decide +kernel
theorem test_f16_row_21 : sqrt16 0 false (unpack false 0x7BFF) = (0x5BFF, ffNX) ∧ sqrt16 3 false (unpack false 0x7BFF) = (0x5C00, ffNX) := by
  decide +kernel
theorem test_f16_row_22 : sqrt16 0 false (unpack false 0x8001) = (0x7E00, ffNV) := by decide +kernel
theorem test_f16_row_28 : cvt16 0 false .ofUint 0xFFFF = (0x7C00, ffOF ||| ffNX) ∧ cvt16 1 false .ofUint 0xFFFF = (0x7BFF, ffNX) := by decide +kernel
theorem test_f16_row_30 : cmp16 (unpack false 1) (unpack false 0) = .gt ∧ cmp16 (unpack true 1) (unpack true 0) = .eq := by decide +kernel

/-! ### The worked schedule of 09_arithmetic_units.md -/

theorem test_schedule_fcvt : cvt16 0 false .ofInt 0x2800 = (0x7100, 0) := by decide +kernel
theorem test_schedule_ffma : fma16 0 false (unpack false 0x7100) (unpack false 0x2900) (unpack false 0xBE00) = (0x5E3A, 0) := by decide +kernel
theorem test_schedule_fdiv : div16 0 false (unpack false 0x5E3A) (unpack false 0x4400) = (0x563A, 0) := by decide +kernel

/-! ### The calendar (R509, R513) -/

theorem test_days_of_the_week : dayOfWeek CalTime.epoch = 6 ∧ dayOfWeek { CalTime.epoch with mon := 3, day := 1, year := 24 } = 5 := by decide +kernel
theorem test_leap_years : leapYear 0 = true ∧ leapYear 100 = false ∧ leapYear 24 = true ∧ leapYear 23 = false := by decide

theorem test_witness_StepRunsTheFrontCommand_0 : State.reset.pending = [] := by decide
theorem test_witness_SumsAndDifferences_0 : Ready .a 1 (running .a 0) := by decide
theorem test_witness_SumsAndDifferences_1 : Ready .b 1 (running .b 0x1FFF) := by decide
theorem test_witness_SumsAndDifferences_2 : Ready .b 2 (running .b 0x1FFE) := by decide
theorem test_witness_SumsAndDifferences_3 : NotEarly ((running .a 0).seen .a) 0 := by decide
theorem test_witness_ComparesSetFlagsAlone_0 : Ready .a 1 (running .a 0xFFFF) := by decide
theorem test_witness_ComparesSetFlagsAlone_1 : Ready .b 2 (running .b 0) := by decide
theorem test_witness_LogicResults_0 : Ready .a 1 (running .a 0) := by decide
theorem test_witness_LogicResults_1 : Ready .b 2 (running .b 0x1FFE) := by decide
theorem test_witness_ShiftsAndRotates_0 : Ready .a 1 (running .a 0) := by decide
theorem test_witness_MovesKeepFlags_0 : Ready .b 1 (running .b 0x1FFF) := by decide
theorem test_witness_MovesKeepFlags_1 : Ready .a 2 (running .a 0xFFFF) := by decide
theorem test_witness_SpecialRegistersMove_0 : Ready .a 1 (running .a 0) := by decide
theorem test_witness_SpecialRegistersMove_1 : NotEarly ((running .a 0).seen .a) 8 := by decide
theorem test_witness_SpecialRegistersMove_2 : (8#4).toNat < 9 := by decide
theorem test_witness_SpecialRegistersMove_3 : 9 ≤ (9#4).toNat := by decide
theorem test_witness_LoadsReadDataAndCode_0 : Ready .a 1 (running .a 0) := by decide
theorem test_witness_LoadsReadDataAndCode_1 : Ready .b 2 (running .b 0) := by decide
theorem test_witness_LoadsReadDataAndCode_2 : Loadable .a (running .a 0) 0xCFFE := by decide
theorem test_witness_LoadsReadDataAndCode_3 : Loadable .a (running .a 0) 0xD009 := by decide
theorem test_witness_LoadsReadDataAndCode_4 : Loadable .a (running .a 0) 0xEFFF := by decide
theorem test_witness_LoadsReadDataAndCode_5 : Loadable .a (portOwned .a) 0xF000 := by decide
theorem test_witness_LoadsReadDataAndCode_6 : Plain 0xCFFE := by decide
theorem test_witness_LoadsReadDataAndCode_7 : NoError (running .a 0) 0xCFFE := by decide
theorem test_witness_StoresWriteTheirBytesAlone_0 : Ready .a 1 (running .a 0) := by decide
theorem test_witness_StoresWriteTheirBytesAlone_1 : Ready .b 2 (running .b 0) := by decide
theorem test_witness_StoresWriteTheirBytesAlone_2 : Storable .a (running .a 0) 0 := by decide
theorem test_witness_StoresWriteTheirBytesAlone_3 : Storable .b (running .b 0) 0xDFF9 := by decide
theorem test_witness_StoresWriteTheirBytesAlone_4 : Plain 0xCFFF := by decide
theorem test_witness_StoresWriteTheirBytesAlone_5 : ¬ Plain 0xD000 := by decide
theorem test_witness_StoresWriteTheirBytesAlone_6 : Storable .a (portOwned .a) 0xF200 := by decide
theorem test_witness_soundMemory : (running .a 0).mem.sound := rfl
theorem test_witness_BranchesAndJumpsTakeEffectAfterTheirSlot_0 : Ready .a 1 (running .a 0) := by decide
theorem test_witness_BranchesAndJumpsTakeEffectAfterTheirSlot_1 : (running .a 0).coreA.xfer = none := by decide
theorem test_witness_BranchesAndJumpsTakeEffectAfterTheirSlot_2 : Ready .b 2 (running .b 0x1000) := by decide
theorem test_witness_BranchesAndJumpsTakeEffectAfterTheirSlot_3 : NotEarly ((running .a 0).seen .a) 0 := by decide
theorem test_witness_meets : ¬ ((running .a 0).seen .a).meets .eq := by simp [Core.meets]; decide
theorem test_witness_CallsPushAndReturnsPop_0 : Ready .a 1 (running .a 0xFFFF) := by decide
theorem test_witness_CallsPushAndReturnsPop_1 : Ready .b 2 (running .b 0x1FFE) := by decide
theorem test_witness_CallsPushAndReturnsPop_2 : (running .a 0).coreA.xfer = none := by decide
theorem test_witness_CallsPushAndReturnsPop_3 : ¬ ((running .a 0).coreA.rsD = 8 ∧ (running .a 0).coreA.rsTrap = true) := by decide
theorem test_witness_CallsPushAndReturnsPop_4 : ¬ ((running .a 0).coreA.rsD = 0 ∧ (running .a 0).coreA.rsTrap = true) := by decide
theorem test_witness_slot : Ready .a 2 { running .a 0 with coreA.xfer := some (some 7), coreA.call := true } := by decide
theorem test_witness_InstructionsTrapByRank_0 : Ready .a 1 (running .a 0) := by decide
theorem test_witness_InstructionsTrapByRank_1 : Ready .b 2 (running .b 0) := by decide
theorem test_witness_InstructionsTrapByRank_2 : (running .b 0x2000).coreB.st = .running := by decide
theorem test_witness_InstructionsTrapByRank_3 : (running .b 0x2000).coreB.busy = none := by decide
theorem test_witness_InstructionsTrapByRank_4 : 0x2000 ≤ (running .b 0x2000).coreB.pc.toNat := by decide
theorem test_witness_inSlot : ∃ o, ({ running .a 0 with coreA.xfer := some none } : State).coreA.xfer = some o := ⟨none, rfl⟩
theorem test_witness_full : ({ running .a 0 with coreA.rsTrap := true, coreA.rsD := 8 } : State).coreA.rsD = 8 := by decide
theorem test_witness_early : Ready .a 1 comparing ∧ comparing.coreA.sched = true ∧ ∃ r ∈ (comparing.seen .a).au.flight, r.aims 0 = true := by decide
theorem test_witness_DataAccessesTrap_0 : Ready .a 1 (running .a 0) := by decide
theorem test_witness_DataAccessesTrap_1 : (0xD00A : Word).getLsbD 0 = false ∧ 10 ≤ (0xD00A : Word).toNat % 16 := by decide
theorem test_witness_DataAccessesTrap_2 : mailboxOwner (running .a 0) 0 ≠ some .a := by decide
theorem test_witness_DataAccessesTrap_3 : (0xF1FE : Word).toNat % 0x400 < 0x200 := by decide
theorem test_witness_DataAccessesTrap_4 : 0x200 ≤ (0xF201 : Word).toNat % 0x400 := by decide
theorem test_witness_InReadsIoSpace_0 : Ready .a 1 (running .a 0) := by decide
theorem test_witness_InReadsIoSpace_1 : Ready .b 2 (running .b 0) := by decide
theorem test_witness_InReadsIoSpace_2 : ioVal .b 0x030 (running .b 0) = some 1 := by decide
theorem test_witness_InReadsIoSpace_3 : derzorRange 0x040 = true ∧ ioMapped 0x040 (running .a 0) = true := by decide
theorem test_witness_InReadsIoSpace_4 : ioMapped 0x4C0 (running .a 0) = false := by decide
theorem test_witness_InReadsIoSpace_5 : (running .a 0).mainOn = true := by decide
theorem test_witness_InReadsIoSpace_6 : (running .a 0).coreA.ioTrap = false := by decide
theorem test_witness_InReadsIoSpace_7 : (running .a 0).tie.lf.length < 8 := by decide
theorem test_witness_waits : ({ running .a 0 with coreA.busy := some (.read 1 0x040 0) } : State).coreA.busy = some (.read 1 0x040 0) := by decide
theorem test_witness_OutAndBitWritesReachTheirRegister_0 : Ready .a 1 (running .a 0) := by decide
theorem test_witness_OutAndBitWritesReachTheirRegister_1 : Ready .b 2 (running .b 0) := by decide
theorem test_witness_OutAndBitWritesReachTheirRegister_2 : ioMapped 0x480 ((running .a 0).moved .a 1) = true ∧ ioForeign .a 0x480 ((running .a 0).moved .a 1) = false := by decide
theorem test_witness_OutAndBitWritesReachTheirRegister_3 : ioForeign .b 0x480 (running .b 0) = true := by decide
theorem test_witness_OutAndBitWritesReachTheirRegister_4 : ioTrust .coreA 0x480 7 (running .a 0) = none := by decide
theorem test_witness_OutAndBitWritesReachTheirRegister_5 : pinBitTrap .a 0x480 0 true (running .a 0) = none := by decide
theorem test_witness_OutAndBitWritesReachTheirRegister_6 : pinBitTrap .a 0x080 0 true (running .a 0) = some (Trap.ownerPin 0x080) := by decide
theorem test_witness_OutAndBitWritesReachTheirRegister_7 : ioTrust .coreA 0x080 0xFFFF trusted = some 1 := by decide
theorem test_witness_OutAndBitWritesReachTheirRegister_8 : ioMapped 0x4C0 (running .a 0) = false := by decide
theorem test_witness_OutAndBitWritesReachTheirRegister_9 : (running .a 0).tie.post.length < 8 := by decide
theorem test_witness_IntegerProductsAndQuotientsStart_0 : Ready .a 1 (running .a 0) := by decide
theorem test_witness_IntegerProductsAndQuotientsStart_1 : Ready .b 1 (running .b 0x1FFF) := by decide
theorem test_witness_IntegerProductsAndQuotientsStart_2 : ((running .a 0).core .a).reg 1 = 0 := by decide
theorem test_witness_IntegerProductsAndQuotientsStart_3 : ((running .a 0).seen .a).au.flight.any (·.iter) = false := by decide
theorem test_witness_divisor : (dividing.coreA.reg 1 ≠ 0) ∧ (dividing.seen .a).au.flight.any (·.iter) = true := by decide
theorem test_witness_FloatingPointResultsStart_0 : Ready .a 1 (running .a 0) := by decide
theorem test_witness_FloatingPointResultsStart_1 : ((running .a 0).seen .a).au.frHang = false := by decide
theorem test_witness_FloatingPointResultsStart_2 : Ready .a 1 hanging := by decide
theorem test_witness_FloatingPointResultsStart_3 : (hanging.seen .a).au.frHang = true := by decide
theorem test_witness_landing : ∃ r, (dividing.core .a).au.flight = [r] ∧ r.left ≠ 0 := ⟨_, rfl, by decide⟩
theorem test_witness_due : ∃ r, ((comparing.setCore .a (comparing.coreA.spend 1)).core .a).au.flight = [r] ∧ r.left = 0 := ⟨_, rfl, by decide⟩
theorem test_witness_EveryNanDeliveredIsCanonical_0 : (0x7E01 : Word).toNat % 1024 ≠ 0 ∧ ((0x7E01 : Word) >>> 10).toNat % 32 = 31 := by decide
theorem test_witness_EveryNanDeliveredIsCanonical_1 : (0x3C00 : Word).toNat % 32768 ≠ 0x7C00 := by decide
theorem test_witness_EventSnapshotsAndWaits_0 : Ready .a 1 (running .a 0) := by decide
theorem test_witness_EventSnapshotsAndWaits_1 : Ready .b 2 (running .b 0) := by decide
theorem test_witness_EventSnapshotsAndWaits_2 : (running .a 0).coreA.xfer = none := by decide
theorem test_witness_EventSnapshotsAndWaits_3 : (running .a 0).crs.timeUp = false := by decide
theorem test_witness_EventSnapshotsAndWaits_4 : ({ running .a 0 with crs.timeUp := true } : State).crs.timeUp = true := by decide
theorem test_witness_EventSnapshotsAndWaits_5 : ({ running .a 0 with coreA.st := .waiting 1, coreA.hit := 1 } : State).coreA.hit &&& 1 ≠ 0 := by decide
theorem test_witness_waiting : ({ running .a 0 with coreA.st := .waiting 1 } : State).coreA.st = .waiting 1 := by decide
theorem test_witness_AskingSendsOneMessage_0 : Ready .a 1 (running .a 0) := by decide
theorem test_witness_AskingSendsOneMessage_1 : (running .a 0).coreA.xfer = none := by decide
theorem test_witness_TasksEndInListOrder_0 : Ready .a 1 (running .a 0) := by decide
theorem test_witness_TasksEndInListOrder_1 : (running .a 0).coreA.xfer = none := by decide
theorem test_witness_TasksEndInListOrder_2 : ({ running .a 0 with crs.tasksA := [5] } : State).crs.tasksA = 5 :: [] := by decide
theorem test_witness_TasksEndInListOrder_3 : (running .a 0).crs.tasksA = [] := by decide
theorem test_witness_TasksEndInListOrder_4 : ({ running .a 0 with crs.endedB := false } : State).crs.endedB = false := by decide
theorem test_witness_TasksEndInListOrder_5 : ({ running .a 0 with crs.running := true, crs.endedB := true } : State).crs.endedB = true := by decide
theorem test_witness_CoursesStartLowestNumberFirst_0 : (courseReady .idle).awake = true := by decide
theorem test_witness_CoursesStartLowestNumberFirst_1 : (courseReady .idle).crs.running = false := by decide
theorem test_witness_CoursesStartLowestNumberFirst_2 : (courseReady .idle).por.lgActive = false := by decide
theorem test_witness_CoursesStartLowestNumberFirst_3 : (courseReady .idle).coreA.st = .idle ∧ (courseReady .idle).coreB.st = .idle := by decide
theorem test_witness_CoursesStartLowestNumberFirst_4 : (courseReady .idle).coreA.haltReq = false ∧ (courseReady .idle).coreB.haltReq = false := by decide
theorem test_witness_CoursesStartLowestNumberFirst_5 : (courseReady .idle).crs.forced = none ∧ (courseReady .idle).crs.pend ≠ [] := by decide
theorem test_witness_CoursesStartLowestNumberFirst_6 : State.reset.awake = false := by decide
theorem test_witness_courseTable : ∃ d, (courseReady .idle).crs.table[(0 : BitVec 6).toNat]? = some d ∧ d.tasksA ≠ [] := ⟨_, rfl, by decide⟩
theorem test_witness_CourseWindowsTimeUpAndStall_0 : (courseRunning).crs.running = true := by decide
theorem test_witness_CourseWindowsTimeUpAndStall_1 : (courseRunning).crs.timeUp = false := by decide
theorem test_witness_CourseWindowsTimeUpAndStall_2 : ({ courseRunning with crs.winVault := true } : State).crs.winVault = true := by decide
theorem test_witness_CourseWindowsTimeUpAndStall_3 : ({ courseRunning with crs.winTouch := true } : State).crs.winTouch = true := by decide
theorem test_witness_CourseWindowsTimeUpAndStall_4 : ({ courseRunning with crs.winPane := true } : State).crs.winPane = true := by decide
theorem test_witness_CourseWindowsTimeUpAndStall_5 : ({ courseRunning with crs.stallTicks := 1, crs.tick := 1 } : State).crs.stallTicks ≠ 0 := by decide
theorem test_witness_CourseWindowsTimeUpAndStall_6 : ({ courseRunning with coreB.st := .waiting 0 } : State).coreB.st = .waiting 0 := by decide
theorem test_witness_CourseWindowsTimeUpAndStall_7 : courseRunning.crs.recs.length < 8 := by decide
theorem test_witness_window : ∃ d, courseRunning.crs.table[courseRunning.crs.now.toNat]? = some d ∧ d.winVault.never = false ∧ d.winPane.never = false ∧ d.winTouch.never = false := ⟨_, rfl, by decide⟩
theorem test_witness_TickAdvancesTimeAndMakesCoursesDue_0 : awakeS.derzorOn = true := by decide
theorem test_witness_TickAdvancesTimeAndMakesCoursesDue_1 : State.reset.derzorOn = false := by decide
theorem test_witness_TickAdvancesTimeAndMakesCoursesDue_2 : ({ awakeS with crs.onRc := false } : State).crs.onRc = false := by decide
theorem test_witness_TickAdvancesTimeAndMakesCoursesDue_3 : courseRunning.pwr.phase = .awake ∧ courseRunning.crs.table.length ≤ 64 := by decide
theorem test_witness_SnapshotGathersGoToTheVault_0 : Ready .a 1 (running .a 0) := by decide
theorem test_witness_SnapshotGathersGoToTheVault_1 : (0x100 : Word).toNat + 2 ≤ 0xD000 := by decide
theorem test_witness_SnapshotGathersGoToTheVault_2 : (sramWord (running .a 0).mem 0).toNat % 32 = 0 := by decide
theorem test_witness_SnapshotGathersGoToTheVault_3 : gathering.mainOn = true := by decide
theorem test_witness_SnapshotGathersGoToTheVault_4 : gathering.coreA.busy = some (.snap 1 0 0) := by decide
theorem test_witness_SnapshotGathersGoToTheVault_5 : sramWord gathering.mem (0 : Word).toNat = 0x0100 := by decide
theorem test_witness_SnapshotGathersGoToTheVault_6 : gathering.vlt.present = true ∧ gathering.vlt.mounting = false ∧ gathering.vlt.wear.toNat < 2 ∧ gathering.por.lgActive = false := by decide
theorem test_witness_SnapshotGathersGoToTheVault_7 : gathering.vlt.cfg.stop = false ∧ gathering.vlt.cfg.thin = false ∧ gathering.vlt.cfg.strm.getLsbD 1 = true ∧ gathering.vlt.gaps = [] := by decide
theorem test_witness_SnapshotGathersGoToTheVault_8 : vqFill gathering.vlt + 12 ≤ 8064 := by decide
theorem test_witness_SnapshotGathersGoToTheVault_9 : drains gathering = false := by decide
theorem test_witness_SnapshotGathersGoToTheVault_10 : ({ gathering with vlt.present := false } : State).vlt.present = false := by decide
theorem test_witness_PostedWritesEndOneWay_0 : posting.mainOn = true := by decide
theorem test_witness_PostedWritesEndOneWay_1 : posting.tie.lf.length < 8 := by decide
theorem test_witness_PostedWritesEndOneWay_2 : (posting.tie.post.map (·.addr)) = [0x048] := by decide
theorem test_witness_PostedWritesEndOneWay_3 : State.reset.tie.post = [] := by decide
theorem test_witness_posted : ∃ p l, posting.tie.post = p :: l := ⟨_, _, rfl⟩
theorem test_witness_rejected : panePut 0x388 (250 : Word) posting = none := by decide
theorem test_witness_RegisterWritesTakeEffectFieldByField_0 : (running .a 0).awake = true ∧ ioMapped 0x480 (running .a 0) = true ∧ ioForeign .a 0x480 (running .a 0) = false ∧ ioTrust .coreA 0x480 7 (running .a 0) = none := by decide
theorem test_witness_RegisterWritesTakeEffectFieldByField_1 : ioMapped 0x4C0 (running .a 0) = false := by decide
theorem test_witness_RegisterWritesTakeEffectFieldByField_2 : ioForeign .b 0x480 (running .a 0) = true := by decide
theorem test_witness_RegisterWritesTakeEffectFieldByField_3 : (running .a 0).hng.hcore = false := by decide
theorem test_witness_VaultAppendsAreTakenOrRefused_0 : (appending .a 1).pwr.phase = .awake := by decide
theorem test_witness_VaultAppendsAreTakenOrRefused_1 : (appending .a 1).vlt.setA.st ≠ 2 := by decide
theorem test_witness_VaultAppendsAreTakenOrRefused_2 : (appending .a 1).vlt.cfg.strm.getLsbD 0 = true := by decide
theorem test_witness_VaultAppendsAreTakenOrRefused_3 : (appending .a 1).vlt.setA.type ≠ 0 ∧ (appending .a 1).vlt.setA.src.toNat + 240 ≤ 0xD000 := by decide
theorem test_witness_VaultAppendsAreTakenOrRefused_4 : (appending .a 1).vlt.wear.toNat < 2 ∧ (appending .a 1).vlt.mounting = false ∧ (appending .a 1).por.lgActive = false ∧ (appending .a 1).vlt.present = true := by decide
theorem test_witness_VaultAppendsAreTakenOrRefused_5 : (appending .a 1).vlt.gaps = [] ∧ (appending .a 1).vlt.cfg.thin = false ∧ (appending .a 1).vlt.cfg.stop = false := by decide
theorem test_witness_VaultAppendsAreTakenOrRefused_6 : vqFill (appending .a 1).vlt + (8 + 240) ≤ 8064 := by decide
theorem test_witness_VaultAppendsAreTakenOrRefused_7 : (appending .a 2).vlt.setA.st = 2 ∧ (appending .a 2).mainOn = true ∧ (appending .a 2).mem.errs = [] := by decide
theorem test_witness_VaultAppendsAreTakenOrRefused_8 : ({ appending .a 1 with vlt.cfg := { (appending .a 1).vlt.cfg with strm := 0 } } : State).vlt.cfg.strm.getLsbD 0 = false := by decide
theorem test_witness_VaultAppendsAreTakenOrRefused_9 : ({ appending .a 1 with vlt.wear := 2 } : State).vlt.wear.toNat ≥ 2 := by decide
theorem test_witness_VaultAppendsAreTakenOrRefused_10 : (gapped.vlt.gapAt = none) ∧ gapped.vlt.gasp = .idle ∧ vqFill gapped.vlt + 28 ≤ 8192 := by decide
theorem test_witness_fullQueue : 8064 < vqFill fullQueue.vlt + 8 := by decide +kernel
theorem test_witness_gap : ∃ g l, gapped.vlt.gaps = g :: l := ⟨_, _, rfl⟩
theorem test_witness_VaultProgramsPagesOnce_0 : programming.pwr.phase = .awake ∧ programming.por.lgActive = false ∧ programming.vlt.present = true ∧ programming.vlt.mounting = false ∧ programming.vlt.flight.length < 4 := by decide
theorem test_witness_VaultProgramsPagesOnce_1 : programming.crs.winVault = true ∧ programming.vlt.cfg.ppt = 0 ∧ programming.pwr.drainOver = false ∧ programming.vlt.replaces = [] ∧ programming.vlt.tblTodo = [] ∧ programming.vlt.leave = .none := by decide
theorem test_witness_VaultProgramsPagesOnce_2 : ({ programming with vlt.leave := .granted } : State).vlt.leave = .granted := by decide
theorem test_witness_VaultProgramsPagesOnce_3 : (running .a 0).crs.winVault = false := by decide
theorem test_witness_VaultProgramsPagesOnce_4 : inFlight.mainOn = true ∧ inFlight.vlt.wear.toNat < 2 ∧ inFlight.vlt.chainPages < 15 := by decide
theorem test_witness_VaultProgramsPagesOnce_5 : ({ inFlight with vlt.mounting := true } : State).vlt.mounting = true := by decide
theorem test_witness_VaultProgramsPagesOnce_6 : inFlight.vlt.brim = false ∧ inFlight.vlt.tblTodo = [] ∧ inFlight.awake = true := by decide
theorem test_witness_VaultProgramsPagesOnce_7 : inFlight.vlt.mounting = false := by decide
theorem test_witness_soundStore : inFlight.vlt.sound := rfl
theorem test_witness_page : ∃ p, pageReady programming = some p := Option.isSome_iff_exists.1 (by decide +kernel)
theorem test_witness_inFlight : ∃ g p, inFlight.vlt.flight = [g] ∧ g.kind = .page p ∧ g.cls = 1 := ⟨_, 7, rfl, rfl, rfl⟩
theorem test_witness_spare : ∃ n, pickSpare inFlight.vlt.tbl (inFlight.vlt.replaces.map (·.spare)) = some n := Option.isSome_iff_exists.1 (by decide +kernel)
theorem test_witness_waitingRec : programming.vlt.cfg.flush ≠ 0 ∧ (waitingRecs programming.vlt).length = 2 := by decide +kernel
theorem test_witness_SelectorTakesTheFirstQualifiedSource_0 : awakeS.en.q .veh = false ∧ awakeS.por.lgActive = false ∧ awakeS.pwr.phase = .awake ∧ awakeS.en.hold = false := by decide
theorem test_witness_SelectorTakesTheFirstQualifiedSource_1 : ({ awakeS with en.hold := true } : State).en.hold = true := by decide
theorem test_witness_SelectorTakesTheFirstQualifiedSource_2 : ({ State.reset with pwr.phase := .asleep .sealed } : State).en.q .hv = false := by decide
theorem test_witness_SelectorTakesTheFirstQualifiedSource_3 : (onSource .hv).en.q .hv = true ∧ (onSource .hv).en.sel = .hv := by decide
theorem test_witness_SelectorTakesTheFirstQualifiedSource_4 : (onSource .hv).en.sel ≠ .veh := by decide
theorem test_witness_ConvertersStartAndStop_0 : ({ awakeS with en.flyback := .startup } : State).en.flyback = .startup := by decide
theorem test_witness_ConvertersStartAndStop_1 : ({ awakeS with en.flyback := .switching } : State).en.flyback ≠ .off := by decide
theorem test_witness_ConvertersStartAndStop_2 : awakeS.en.flyback = .off := by decide
theorem test_witness_ConvertersStartAndStop_3 : (onSource .hv).en.sel = .hv := by decide
theorem test_witness_ConvertersStartAndStop_4 : awakeS.en.hvQ = false ∧ awakeS.en.vehQ = false := by decide
theorem test_witness_ConvertersStartAndStop_5 : (onSource .harv).en.sel = .harv ∧ (onSource .harv).en.harvQ = true := by decide
theorem test_witness_holdoff : ({ awakeS with en.flyback := .holdoff true true } : State).en.flyback = .holdoff true true := by decide
theorem test_witness_CellIslandAndVout3_0 : (charging .hv).en.cfg.chgEn = true ∧ (charging .hv).en.sel = .hv ∧ (charging .hv).en.store3v = true ∧ (charging .hv).en.cellOv = false := by decide
theorem test_witness_CellIslandAndVout3_1 : ({ awakeS with en.vout3 := .on } : State).en.vout3 ≠ .off := by decide
theorem test_witness_CellIslandAndVout3_2 : (7 : BitVec 16).toNat % 4 = 3 := by decide
theorem test_witness_CellIslandAndVout3_3 : awakeS.mainOn = true := by decide
theorem test_witness_CellIslandAndVout3_4 : (onSource .veh).en.sel = .veh := by decide
theorem test_witness_CellIslandAndVout3_5 : (charging .hv).en.selDead = false ∧ (charging .hv).en.storeOv = false ∧ (charging .hv).en.overTemp = false ∧ (charging .hv).en.storeFull = false ∧ (charging .hv).en.hvOv = false := by decide
theorem test_witness_CellIslandAndVout3_6 : awakeS.en.sel = .none := by decide
theorem test_witness_LedgerCountsAndIsCorrected_0 : awakeS.derzorOn = true := by decide
theorem test_witness_LedgerCountsAndIsCorrected_1 : awakeS.tie.count = none := by decide
theorem test_witness_LedgerCountsAndIsCorrected_2 : counting.powered = true ∧ counting.por.counterDead = false := by decide
theorem test_witness_LedgerCountsAndIsCorrected_3 : ({ counting with por.counterDead := true } : State).por.counterDead = true := by decide
theorem test_witness_LedgerCountsAndIsCorrected_4 : awakeS.por.quiet = none := by decide
theorem test_witness_LedgerCountsAndIsCorrected_5 : ({ counting with por.armed := true } : State).por.armed = true := by decide
theorem test_witness_count : ∃ m, counting.tie.count = some m ∧ m.sat = false := ⟨_, rfl, rfl⟩
theorem test_witness_quiet : ∃ m, ({ counting with por.quiet := some 30000 } : State).por.quiet = some m := ⟨_, rfl⟩
theorem test_witness_PermitsAreDecidedInOrder_0 : (asked 6 .coreA 10).por.lgActive = false ∧ (asked 6 .coreA 10).por.deferred = [] := by decide
theorem test_witness_PermitsAreDecidedInOrder_1 : (asked 6 .coreA 10).tie.lane = .ask 6 .coreA 10 :: [] := by decide
theorem test_witness_PermitsAreDecidedInOrder_2 : (asked 7 .vault 1).tie.lane = .ask 7 .vault 1 :: [] := by decide
theorem test_witness_PermitsAreDecidedInOrder_3 : Requester.isGasp .vault = false ∧ Requester.isCore .coreB = true := by decide
theorem test_witness_PermitsAreDecidedInOrder_4 : deferring.por.cfg.policy 1 = .defer ∧ 1 ≤ deferring.por.cfg.deferTicks 1 ∧ deferring.tie.lane = .ask 1 .vault 5 :: [] := by decide
theorem test_witness_PermitsAreDecidedInOrder_5 : deferring.por.avail < 5 := by decide
theorem test_witness_PermitsAreDecidedInOrder_6 : ({ asked 1 .vault 1 with por.lgActive := true } : State).por.lgActive = true := by decide
theorem test_witness_PermitsAreDecidedInOrder_7 : (0 : Nat) ≤ (asked 1 .vault 0).por.resv.get 1 := by decide
theorem test_witness_PermitsAreDecidedInOrder_8 : ({ awakeS with tie.lane := [.withdraw 1 .vault] } : State).tie.lane = .withdraw 1 .vault :: [] := by decide
theorem test_witness_PermitsAreDecidedInOrder_9 : ({ awakeS with por.answers := [(6, .coreA, .grant)] } : State).por.answers = (6, .coreA, .grant) :: [] := by decide
theorem test_witness_PermitsAreDecidedInOrder_10 : awakeS.por.answers = [] := by decide
theorem test_witness_PermitsAreDecidedInOrder_11 : awakeS.por.deferred = [] := by decide
theorem test_witness_StartsBeginFromReset_0 : ({ State.reset with en.sel := .veh } : State).pwr.phase = .off ∧ ({ State.reset with en.sel := .veh } : State).en.sel ≠ .none := by decide
theorem test_witness_StartsBeginFromReset_1 : (asleepIn .sealed).pwr.phase = .asleep .sealed := by decide
theorem test_witness_StartsBeginFromReset_2 : awakeS.pwr.phase ≠ .off ∧ awakeS.pwr.phase ≠ .asleep .sealed ∧ awakeS.pwr.phase ≠ .starting := by decide
theorem test_witness_StartsBeginFromReset_3 : ({ asleepIn .sealed with isl.en := 2 } : State).isl.en.getLsbD (1 : BitVec 4).toNat = true := by decide
theorem test_witness_StartsBeginFromReset_4 : (starting .sealed (some 5)).isl.digest.isSome = true ∧ (starting .sealed (some 5)).sec.lc ≠ .retired := by decide
theorem test_witness_StartsBeginFromReset_5 : (starting .brown none).pwr.phase = .starting ∧ (starting .brown none).isl.digest = none := by decide
theorem test_witness_StartsBeginFromReset_6 : (starting .cold none).img.slot0.st = .empty ∧ (starting .cold none).img.slot1.st = .empty := by decide
theorem test_witness_StartsBeginFromReset_7 : ({ starting .cold none with img.slot1 := { Slot.shipped with st := .staged } } : State).img.slot1.st = .staged := by decide
theorem test_witness_StartsBeginFromReset_8 : ({ starting .cold none with img.slot0 := { Slot.shipped with st := .active } } : State).img.slot0.st = .active := by decide
theorem test_witness_PowerIsLostInOneStep_0 : awakeS.pwr.phase ≠ .off ∧ awakeS.pwr.phase ≠ .asleep .sealed := by decide
theorem test_witness_PowerIsLostInOneStep_1 : State.reset.pwr.phase = .off := by decide
theorem test_witness_PowerIsLostInOneStep_2 : (asleepIn .sealed).pwr.phase = .asleep .sealed := by decide
theorem test_witness_PowerIsLostInOneStep_3 : (draining .shuttered).pwr.drainOver = false ∧ 32 ≤ (draining .shuttered).pwr.drainTicks ∧ (draining .shuttered).vlt.leave = .none ∧ (draining .shuttered).vlt.flight = [] := by decide
theorem test_witness_PowerIsLostInOneStep_4 : (draining .shuttered).vlt.queue ≠ [] ∧ (draining .shuttered).vlt.gaps = [] := by decide
theorem test_witness_PowerIsLostInOneStep_5 : ({ draining .shuttered with pwr.drainTicks := 31 } : State).pwr.drainTicks < 32 := by decide
theorem test_witness_PowerIsLostInOneStep_6 : gasping.por.lgActive = true ∧ gasping.pwr.phase = .awake ∧ gasping.crs.running = false := by decide
theorem test_witness_PowerIsLostInOneStep_7 : gaspDone gasping = true := by decide
theorem test_witness_PowerIsLostInOneStep_8 : gaspDone ({ gasping with vlt.present := true } : State) = false := by decide
theorem test_witness_draining : (draining .shuttered).pwr.phase = .entering .shuttered := rfl
theorem test_witness_SleepIsEnteredWhenAllHasEnded_0 : drainDone (entering .shuttered) = true ∧ opsIdle (entering .shuttered) = true ∧ (entering .shuttered).crs.pend = [] := by decide
theorem test_witness_SleepIsEnteredWhenAllHasEnded_1 : drainDone (draining .barred) = false := by decide
theorem test_witness_SleepIsEnteredWhenAllHasEnded_2 : opsIdle ({ entering .latched with tch.running := true } : State) = false := by decide
theorem test_witness_SleepIsEnteredWhenAllHasEnded_3 : opsIdle (entering .latched) = true := by decide
theorem test_witness_SleepIsEnteredWhenAllHasEnded_4 : drainDone (entering .sealed) = true ∧ opsIdle (entering .sealed) = true := by decide
theorem test_witness_WakeSourcesFireAndAreAnswered_0 : (asleepIn .shuttered).pwr.phase = .asleep .shuttered := by decide
theorem test_witness_WakeSourcesFireAndAreAnswered_1 : ({ asleepIn .shuttered with pwr.wakeEn := 2 } : State).pwr.wakeEn.getLsbD 1 = true := by decide
theorem test_witness_WakeSourcesFireAndAreAnswered_2 : (asleepIn .latched).pwr.wakeEn.getLsbD 1 = false := by decide
theorem test_witness_WakeSourcesFireAndAreAnswered_3 : ({ entering .shuttered with pwr.wakeEn := 2 } : State).pwr.wakeEn.getLsbD 1 = true ∧ ({ entering .shuttered with pwr.wakeEn := 2 } : State).pwr.phase = .entering .shuttered := by decide
theorem test_witness_WakeSourcesFireAndAreAnswered_4 : ({ asleepIn .sealed with isl.en := 0x70 } : State).isl.en.getLsbD 4 = true ∧ ({ asleepIn .sealed with isl.en := 0x70 } : State).isl.en.getLsbD 6 = true := by decide
theorem test_witness_WakeSourcesFireAndAreAnswered_5 : awakeS.pwr.phase = .awake := by decide
theorem test_witness_WakeSourcesFireAndAreAnswered_6 : (asleepIn .barred).pin.vioOk.getLsbD 0 = true := by decide
theorem test_witness_WakeSourcesFireAndAreAnswered_7 : (waking .barred false).pwr.phase = .waking .barred false ∧ (waking .barred false).pwr.latched.getLsbD 0 = false := by decide
theorem test_witness_WakeSourcesFireAndAreAnswered_8 : ({ waking .barred false with por.answers := [(0, .wakeRouter, .grant)] } : State).por.answers = (0, .wakeRouter, .grant) :: [] := by decide
theorem test_witness_WakeSourcesFireAndAreAnswered_9 : awakeS.por.answers = [] := by decide
theorem test_witness_WakesCompleteAndWarmResetsRestart_0 : (waking .shuttered true).pwr.phase = .waking .shuttered true ∧ (waking .shuttered true).por.holds = []  := by decide
theorem test_witness_WakesCompleteAndWarmResetsRestart_1 : (waking .latched true).pwr.phase = .waking .latched true := by decide
theorem test_witness_WakesCompleteAndWarmResetsRestart_2 : ({ awakeS with pwr.ashRld := true } : State).pwr.ashRld = true ∧ awakeS.mainOn = true := by decide
theorem test_witness_WakesCompleteAndWarmResetsRestart_3 : awakeS.pwr.ashRld = false := by decide
theorem test_witness_WakesCompleteAndWarmResetsRestart_4 : awakeS.ash.testFail = 0 ∧ awakeS.ash.entries = [] ∧ awakeS.ash.image = [] ∧ awakeS.ash.setA.op = none ∧ awakeS.ash.setB.op = none := by decide
theorem test_witness_WakesCompleteAndWarmResetsRestart_5 : awakeS.crs.running = false := by decide
theorem test_witness_WakesCompleteAndWarmResetsRestart_6 : courseRunning.crs.running = true := by decide
theorem test_witness_WakesCompleteAndWarmResetsRestart_7 : State.reset.pwr.phase ≠ .awake := by decide
theorem test_witness_WakesCompleteAndWarmResetsRestart_8 : ({ waking .latched true with coreA.st := .frozen true } : State).coreA.st = .frozen true := by decide
theorem test_witness_BootVerifiesOneSlotAtATime_0 : booting.pwr.phase = .boot ∧ booting.img.reload = false ∧ booting.img.order = false :: [] := by decide
theorem test_witness_BootVerifiesOneSlotAtATime_1 : ({ booting with img.reload := true, sec.lc := .retired } : State).img.reload = true := by decide
theorem test_witness_BootVerifiesOneSlotAtATime_2 : awakeS.pwr.phase ≠ .boot := by decide
theorem test_witness_BootVerifiesOneSlotAtATime_3 : booting.isl.digest ≠ some (booting.img.slot booting.isl.sealSlot).digest := by decide
theorem test_witness_digest : ({ booting with isl.digest := some (Slot.digest Slot.shipped) } : State).isl.digest = some (Slot.digest Slot.shipped) := rfl
theorem test_witness_StoreServiceKeepsItsStates_0 : (serving 0xF1 []).img.svc = { port := .s, opcode := 0xF1, tag := 0, payload := [] } :: [] := by decide
theorem test_witness_StoreServiceKeepsItsStates_1 : (serving 0xF1 []).mainOn = true ∧ (serving 0xF1 []).por.lgActive = false ∧ (serving 0xF1 []).sec.lc ≠ .retired := by decide
theorem test_witness_StoreServiceKeepsItsStates_2 : ({ serving 0xF1 [] with img.active := some true } : State).img.updPorts.getLsbD 0 = false := by decide
theorem test_witness_StoreServiceKeepsItsStates_3 : ({ serving 0xF2 [] with sec.lc := .retired } : State).sec.lc = .retired := by decide
theorem test_witness_StoreServiceKeepsItsStates_4 : ({ serving 0xF1 [] with por.lgActive := true } : State).por.lgActive = true := by decide
theorem test_witness_StoreServiceKeepsItsStates_5 : (serving 0xF2 [1, 0, 0, 0, 8]).img.sess = none ∧ ([1, 0, 0, 0, 8] : List Byte).head? = some 1 ∧ ofBe (([1, 0, 0, 0, 8] : List Byte).drop 1) = 8 := by decide
theorem test_witness_StoreServiceKeepsItsStates_6 : ofBe (([1, 0, 0, 0, 7] : List Byte).drop 1) < 8 := by decide
theorem test_witness_StoreServiceKeepsItsStates_7 : (serving 0xF2 []).img.slot1.writes = some 0 := by decide
theorem test_witness_StoreServiceKeepsItsStates_8 : ({ serving 0xF2 [] with img.slot1 := { Slot.shipped with writes := some 10000 } } : State).img.slot1.writes = some 10000 := by decide
theorem test_witness_StoreServiceKeepsItsStates_9 : (inSession 0xF3 (List.replicate 12 0)).img.sess = some { port := .s, slot := true, len := 16, next := 0 } ∧ ofBe ((List.replicate 12 (0 : Byte)).take 4) = 0 := by decide
theorem test_witness_StoreServiceKeepsItsStates_10 : ofBe ([0, 0, 0, 8] : List Byte) ≠ 0 := by decide
theorem test_witness_StoreServiceKeepsItsStates_11 : Bytes.wf 0xFF (inSession 0xF3 (List.replicate 12 0)).img.slot1.str = true := by decide
theorem test_witness_StoreServiceKeepsItsStates_12 : (inSession 0xF4 []).sec.engine = none ∧ (inSession 0xF4 []).sec.waiters = [] := by decide
theorem test_witness_StoreServiceKeepsItsStates_13 : ({ serving 0xF5 [1] with img.slot1 := { Slot.shipped with st := .standby } } : State).img.slot1.st = .standby ∧ (serving 0xF5 [1]).img.active ≠ some true := by decide
theorem test_witness_StoreServiceKeepsItsStates_14 : (serving 0xF5 [1]).img.slot1.st ≠ .standby := by decide
theorem test_witness_StoreServiceKeepsItsStates_15 : ({ serving 0xF7 [] with img.slot0 := { Slot.shipped with st := .staged } } : State).img.slot0.st = .staged := by decide
theorem test_witness_StoreServiceKeepsItsStates_16 : ({ serving 0xF7 [] with img.slot1 := { Slot.shipped with st := .staged } } : State).img.slot1.st = .staged ∧ (serving 0xF7 []).img.slot0.st ≠ .staged := by decide
theorem test_witness_noCode : codeSect (tableAfter (inSession 0xF3 []).img.slot1 0 (List.replicate 8 0)) = none := by decide +kernel
theorem test_witness_otherSession : ∃ e, ({ inSession 0xF2 [] with img.svc := [{ port := .u, opcode := 0xF2, tag := 0, payload := [] }] } : State).img.sess = some e ∧ e.port ≠ .u := ⟨_, rfl, by decide⟩
theorem test_witness_PortsPollReadAndPost_0 : portUp .s awakeS = true ∧ portUp .u awakeS = true ∧ awakeS.prt.u.discLeft = 0 := by decide
theorem test_witness_PortsPollReadAndPost_1 : portReady awakeS = true := by decide
theorem test_witness_PortsPollReadAndPost_2 : ({ awakeS with prt.s.posted := true } : State).prt.s.posted = true := by decide
theorem test_witness_PortsPollReadAndPost_3 : awakeS.mem.errs = [] := by decide
theorem test_witness_PortsPollReadAndPost_4 : awakeS.awake = true := by decide
theorem test_witness_PortsPollReadAndPost_5 : portUp .s State.reset = false := by decide
theorem test_witness_PortsPollReadAndPost_6 : Bytes.wf 0 awakeS.mem.bytes = true := by decide
theorem test_witness_PortsPollReadAndPost_7 : ({ awakeS with img.replies := [{ port := .s, opcode := 0xF1, tag := 0, payload := [0] }] } : State).img.replies = { port := .s, opcode := 0xF1, tag := 0, payload := [0] } :: [] := by decide
theorem test_witness_PortsPollReadAndPost_8 : awakeS.prt.s.posted = false ∧ awakeS.prt.s.svc = false := by decide
theorem test_witness_PortsPollReadAndPost_9 : awakeS.img.replies = [] := by decide
theorem test_witness_PortWritesAreCheckedInOrder_0 : portUp .s awakeS = true ∧ portUp .u awakeS = true ∧ awakeS.prt.u.discLeft = 0 := by decide
theorem test_witness_PortWritesAreCheckedInOrder_1 : portReady awakeS = true ∧ inSpace .s awakeS = true ∧ inSpace .q awakeS = true := by decide
theorem test_witness_PortWritesAreCheckedInOrder_2 : ownerOf (portOwned .a).prt.s.cfg ≠ none ∧ portUp .s (portOwned .a) = true ∧ inSpace .s (portOwned .a) = true := by decide
theorem test_witness_PortWritesAreCheckedInOrder_3 : ownerOf awakeS.prt.s.cfg = none := by decide
theorem test_witness_PortWritesAreCheckedInOrder_4 : inSpace .s ({ awakeS with prt.s.held := true } : State) = false := by decide
theorem test_witness_PortWritesAreCheckedInOrder_5 : portReady (asleepIn .shuttered) = false ∧ portUp .s (asleepIn .shuttered) = true := by decide
theorem test_witness_PortWritesAreCheckedInOrder_6 : awakeS.mem.errs = [] ∧ Bytes.wf 0 awakeS.mem.bytes = true := by decide
theorem test_witness_PortCFollowsTheBus_0 : pcOnBus onCan = true ∧ pcFd onCan = false ∧ pcListens onCan = false := by decide
theorem test_witness_PortCFollowsTheBus_1 : pcOnBus State.reset = false := by decide
theorem test_witness_PortCFollowsTheBus_2 : pcUp ({ onCan with pc.fsm := .integrating } : State) = true := by decide
theorem test_witness_PortCFollowsTheBus_3 : ({ onCan with pc := { onCan.pc with fsm := .busOff, recovering := true } } : State).pc.recovering = true := by decide
theorem test_witness_PortCFollowsTheBus_4 : ({ onCan with pc := { onCan.pc with fsm := .busOff, cfg := 0x2B } } : State).pc.cfg.getLsbD 5 = true := by decide
theorem test_witness_PortCFollowsTheBus_5 : pcExt onCan = true ∧ onCan.powered = true := by decide
theorem test_witness_PortCFollowsTheBus_6 : pcExt awakeS = false := by decide
theorem test_witness_PortCFollowsTheBus_7 : pcOwner onCan = some (onCan.actsAs .coreA) := by decide
theorem test_witness_PortCFollowsTheBus_8 : pcOwner onCan ≠ some (onCan.actsAs .coreB) := by decide
theorem test_witness_PortCFollowsTheBus_9 : pcListens ({ onCan with pc.listen := true } : State) = true := by decide
theorem test_witness_PortCFollowsTheBus_10 : onCan.pc.refBad = false := by decide
theorem test_witness_ChannelZeroActsOnFrames_0 : replying.awake = true ∧ pcOnBus replying = true ∧ pcListens replying = false := by decide
theorem test_witness_ChannelZeroActsOnFrames_1 : (receiving 0).powered = true ∧ (receiving 0).ash.ch0 = .idle := by decide
theorem test_witness_ChannelZeroActsOnFrames_2 : ch0Unfiltered blankFrame false (receiving 0) = false := by decide
theorem test_witness_ChannelZeroActsOnFrames_3 : ch0Unfiltered blankFrame false ({ receiving 0 with ash.ch0Banks := 3 } : State) = true := by decide
theorem test_witness_ChannelZeroActsOnFrames_4 : ashMatches (ch0Query (receiving 0).ash blankFrame false) (bankSet0 (receiving 0)) (receiving 0).ash = [] ∧ (receiving 0).ash.c0pass2 = false := by decide
theorem test_witness_ChannelZeroActsOnFrames_5 : (receiving 0).pc.rxq = blankFrame :: [] := by decide
theorem test_witness_ChannelZeroActsOnFrames_6 : State.reset.powered = false := by decide
theorem test_witness_ChannelZeroActsOnFrames_7 : ({ receiving 0 with pc.listen := true } : State).pc.listen = true := by decide
theorem test_witness_ChannelZeroActsOnFrames_8 : (0x3040 : Word) &&& 0x1F0 = 0x40 := by decide
theorem test_witness_reply : ∃ j, replying.pc.job = some j ∧ j.granted = true ∧ j.sending = false := ⟨_, rfl, rfl, rfl⟩
theorem test_witness_match : ∃ m r, ashMatches (ch0Query matching.ash blankFrame false) (bankSet0 matching) matching.ash = m :: r := ⟨_, _, rfl⟩
theorem test_witness_TouchFramesRunInTheirWindow_0 : (touching false).awake = true ∧ (touching false).tch.on = true ∧ (touching false).tch.pending = false := by decide
theorem test_witness_TouchFramesRunInTheirWindow_1 : ({ touching false with tch.pending := true, tch.leave := .granted } : State).tch.leave = .granted := by decide
theorem test_witness_TouchFramesRunInTheirWindow_2 : awakeS.tch.on = false := by decide
theorem test_witness_TouchFramesRunInTheirWindow_3 : ({ touching false with crs.winTouch := true } : State).crs.winTouch = true ∧ (touching false).tch.highDrive = false ∧ (touching false).sent.running = false := by decide
theorem test_witness_TouchFramesRunInTheirWindow_4 : (touching true).tch.highDrive = true ∧ (touching true).tch.leave = .none := by decide
theorem test_witness_TouchFramesRunInTheirWindow_5 : (touching false).tch.running = false := by decide
theorem test_witness_TouchFramesRunInTheirWindow_6 : ({ touching false with tch.running := true } : State).tch.running = true := by decide
theorem test_witness_TouchFramesRunInTheirWindow_7 : (touching false).tch.chg = false ∧ (touching false).tch.hold = 0 ∧ (touching false).tch.hopped = false := by decide
theorem test_witness_TouchFramesRunInTheirWindow_8 : ((touching false).tch.cfg.groups.get 0).tx = [3] ∧ ((touching false).tch.groups.get 0).acq = 16 ∧ ((touching false).tch.groups.get 0).self = [Reading.zero] := by decide
theorem test_witness_TouchFramesRunInTheirWindow_9 : ∀ k : Fin 4, k ≠ 0 → ((touching false).tch.cfg.groups.get k).kind = .off ∧ ((touching false).tch.groups.get k).self = [] := by decide
theorem test_witness_TouchFramesRunInTheirWindow_10 : ((touching false).tch.cfg.groups.get (0 : BitVec 2).toFin).maxOn ≠ 0 := by decide
theorem test_witness_TouchFramesRunInTheirWindow_11 : ((touching false).tch.cfg.groups.get (1 : BitVec 2).toFin).maxOn = 0 := by decide
theorem test_witness_TouchFramesRunInTheirWindow_12 : (touching false).tch.busy = false ∧ (touching false).tch.step.toNat = 0 := by decide
theorem test_witness_TouchFramesRunInTheirWindow_13 : (touching false).actsAs .coreA = .a := by decide
theorem test_witness_TouchFramesRunInTheirWindow_14 : (touching false).actsAs .coreB ≠ .a := by decide
theorem test_witness_SentinelScansQualifyTouches_0 : sensing.powered = true ∧ 3 ≤ sensing.tch.cfg.sent.sensors.length ∧ sensing.sent.running = false := by decide
theorem test_witness_SentinelScansQualifyTouches_1 : sensing.tch.running = false := by decide
theorem test_witness_SentinelScansQualifyTouches_2 : ({ sensing with tch.running := true } : State).tch.running = true := by decide
theorem test_witness_SentinelScansQualifyTouches_3 : awakeS.tch.cfg.sent.sensors.length < 3 := by decide
theorem test_witness_SentinelScansQualifyTouches_4 : ({ sensing with sent.running := true } : State).sent.running = true := by decide
theorem test_witness_SentinelScansQualifyTouches_5 : sensing.tch.cfg.chgTh.toNat < (1 : BitVec 12).toNat := by decide
theorem test_witness_SentinelScansQualifyTouches_6 : 1 ≤ sensing.tch.cfg.sent.spalmN.toNat ∧ (0 : BitVec 12).toNat ≤ sensing.tch.cfg.chgTh.toNat := by decide
theorem test_witness_SentinelScansQualifyTouches_7 : ∀ i, i < sensing.tch.cfg.sent.sensors.length → 8 * sentDelta sensing.sent.useB (sensing.sent.sensors.getD i { baseA := none, baseB := none, negA := 0, touched := false, qualified := false }) (((([] : List (BitVec 16)).getD i 0)).toNat : Int) < 7 * (sensing.tch.cfg.sent.sth.toNat : Int) := by decide
theorem test_witness_SentinelScansQualifyTouches_8 : ({ Reading.zero with touched := true, off := 2, delta := -1 } : Reading).off = 2 := by decide
theorem test_witness_PaneFollowsItsStates_0 : paned.powered = true ∧ paned.actsAs .coreA = .a ∧ paned.actsAs .coreB ≠ .a := by decide
theorem test_witness_PaneFollowsItsStates_1 : paned.pane.st = .off ∧ paned.pane.cfg.mode ≠ .none ∧ railsOff paned.pane = true ∧ paned.pane.good.getLsbD 0 = false := by decide
theorem test_witness_PaneFollowsItsStates_2 : railsOff ({ paned with pane.offs := 0 } : State).pane = false := by decide
theorem test_witness_PaneFollowsItsStates_3 : paned.tie.lf.length < 8 := by decide
theorem test_witness_PaneFollowsItsStates_4 : ({ paned with pane.st := .lit } : State).pane.st = .lit := by decide
theorem test_witness_PaneFollowsItsStates_5 : ({ paned with pane.st := .fault } : State).pane.st = .fault := by decide
theorem test_witness_PaneFollowsItsStates_6 : (3 : Nat) ∈ paneUsed paned.pane.cfg ∧ (4 : Nat) ∉ paneUsed paned.pane.cfg := by decide
theorem test_witness_PaneFollowsItsStates_7 : ({ paned with pane := { paned.pane with st := .rise, stepDone := 3, good := 0x0F } } : State).pane.good.getLsbD 3 = true := by decide
theorem test_witness_PaneFollowsItsStates_8 : (0 : Nat) < stepOf (paneSteps paned.pane.cfg) 1 := by decide
theorem test_witness_PaneFollowsItsStates_9 : (240 : BitVec 8).toNat ≤ 240 ∧ 240 < (241 : BitVec 8).toNat := by decide
theorem test_witness_PaneFramesAreDrawnUnderLeave_0 : framing.pane.due = true ∧ framing.crs.winPane = true ∧ framing.pane.freeze = false ∧ framing.pane.frame = none ∧ paneDraws framing.pane = true := by decide
theorem test_witness_PaneFramesAreDrawnUnderLeave_1 : framing.pane.leave = .none := by decide
theorem test_witness_PaneFramesAreDrawnUnderLeave_2 : ({ framing with pane.leave := .granted } : State).pane.leave = .granted := by decide
theorem test_witness_PaneFramesAreDrawnUnderLeave_3 : paned.pane.due = false := by decide
theorem test_witness_PaneFramesAreDrawnUnderLeave_4 : drawing.pane.cfg.mode = .matrix ∧ drawing.pane.oorFrame = 0 := by decide
theorem test_witness_PaneFramesAreDrawnUnderLeave_5 : ({ drawing with pane.st := .clear } : State).pane.st = .clear := by decide
theorem test_witness_PaneFramesAreDrawnUnderLeave_6 : framing.pane.dark = false ∧ framing.pane.st = .lit := by decide
theorem test_witness_PaneFramesAreDrawnUnderLeave_7 : paned.pane.st ≠ .lit := by decide
theorem test_witness_drawing : ∃ f, drawing.pane.frame = some f ∧ f.line < drawing.pane.cfg.rows.toNat ∧ f.clear = false := ⟨_, rfl, by decide, rfl⟩
theorem test_witness_drawn : ∃ f, ({ drawing with pane.frame := some { clear := true, negative := false, line := 8 } } : State).pane.frame = some f ∧ paneLines drawing.pane.cfg ≤ f.line := ⟨_, rfl, by decide⟩
theorem test_witness_SearchesDeliverTheFirstMatch_0 : (searching false).awake = true ∧ (searching false).pwr.ashRld = false ∧ ((searching false).ash.set .a).leave ≠ .asked := by decide
theorem test_witness_SearchesDeliverTheFirstMatch_1 : ∀ e ∈ (searching false).ash.entries, (ashEntry (searching false).ash e.1).parity = true ∧ e.2.valid = true := by decide
theorem test_witness_SearchesDeliverTheFirstMatch_2 : idle0.awake = true ∧ (idle0.ash.set .a).leave = .none ∧ idle0.ash.share ≠ 0 := by decide
theorem test_search_takes_the_higher_priority : ∃ t, exec (.ashlarSearchLand .a) (searching false) = .next t ∧ t.ash.setA.idx = 5 ∧ t.ash.setA.multi = true :=
  ⟨_, rfl, by decide +kernel, by decide +kernel⟩
theorem test_search_takes_the_lower_index : ∃ t, exec (.ashlarSearchLand .a) (searching true) = .next t ∧ t.ash.setA.idx = 2 :=
  ⟨_, rfl, by decide +kernel⟩
theorem test_witness_AshlarCommitsStepsAndTests_0 : idle0.awake = true ∧ idle0.ash.share ≠ 0 ∧ (idle0.ash.set .a).leave = .none ∧ (idle0.ash.set .a).commit = none := by decide
theorem test_witness_AshlarCommitsStepsAndTests_1 : manyBanks (idle0.ash.ch1Banks &&& ~~~idle0.ash.fence) = true ∧ (idle0.ash.set .a).pfm = 0 := by decide
theorem test_witness_AshlarCommitsStepsAndTests_2 : ({ idle0 with ash.ch1Banks := 1 } : State).ash.ch1Banks = 1 ∧ manyBanks 1 = false := by decide
theorem test_witness_AshlarCommitsStepsAndTests_3 : (searching false).ash.share = 0 ∧ ((searching false).ash.set .a).leave = .none ∧ ((searching false).ash.set .a).commit = none := by decide
theorem test_witness_AshlarCommitsStepsAndTests_4 : ({ idle0 with ash.setA := { idle0.ash.setA with leave := .asked } } : State).ash.setA.leave = .asked := by decide
theorem test_witness_AshlarCommitsStepsAndTests_5 : ({ idle0 with ash.setA := { idle0.ash.setA with commit := some (3, AshEntry.blank) } } : State).ash.setA.commit = some (3, AshEntry.blank) := by decide
theorem test_witness_AshlarCommitsStepsAndTests_6 : idle0.ash.fence.getLsbD ((3 : BitVec 10).toNat / 64) = false := by decide
theorem test_witness_AshlarCommitsStepsAndTests_7 : ({ idle0 with ash.fence := 1 } : State).ash.fence.getLsbD ((3 : BitVec 10).toNat / 64) = true := by decide
theorem test_witness_AshlarCommitsStepsAndTests_8 : winEntry idle0 .a (0xD029 : BitVec 16).toNat < 1024 ∧ (0xD029 : BitVec 16).toNat % 16 < 10 := by decide
theorem test_witness_AshlarCommitsStepsAndTests_9 : ({ idle0 with ash.setA := { idle0.ash.setA with op := some .step, ahead := [3] } } : State).ash.setA.ahead = [3] ∧ (ashEntry idle0.ash 3).parity = true := by decide
theorem test_witness_AshlarCommitsStepsAndTests_10 : idle0.ash.setA.ahead = [] := by decide
theorem test_witness_AshlarCommitsStepsAndTests_11 : ({ idle0 with ash.scrubLeft := 1 } : State).ash.scrubLeft ≠ 0 ∧ idle0.ash.fence = 0 ∧ (ashEntry idle0.ash idle0.ash.scrPtr.toNat).parity = true := by decide
theorem test_witness_AshlarCommitsStepsAndTests_12 : (ashEntry ({ idle0.ash with entries := [(0, { AshEntry.blank with parity := false })] } : Ashlar) 0).parity = false := by decide
theorem test_witness_AshlarCommitsStepsAndTests_13 : ({ idle0 with ash.testing := 2 } : State).ash.testing.getLsbD 1 = true ∧ ∀ e ∈ idle0.ash.entries, e.2.parity = true := by decide
theorem test_witness_AshlarCommitsStepsAndTests_14 : idle0.ash.scrubLeft = 0 ∧ idle0.ash.testing = 0 := by decide
theorem test_witness_CellsPulsesAndPinsChange_0 : ({ awakeS with mrt.pulses := [0x30] } : State).mrt.pulses.contains 0x30 = true := by decide
theorem test_witness_CellsPulsesAndPinsChange_1 : awakeS.mrt.pulses.contains 0x30 = false := by decide
theorem test_witness_CellsPulsesAndPinsChange_2 : delayed.awake = true ∧ delayed.mrt.wait.find? (fun e => e.1 == 0) = some (0, true) ∧ cellMode delayed.mrt 0 = .direct := by decide
theorem test_witness_CellsPulsesAndPinsChange_3 : delayed.mrt.wait.find? (fun e => e.1 == 1) = some (1, true) ∧ cellMode delayed.mrt 1 = .latch := by decide
theorem test_witness_CellsPulsesAndPinsChange_4 : awakeS.mrt.wait.find? (fun e => e.1 == 31) = none := by decide
theorem test_witness_CellsPulsesAndPinsChange_5 : cellMode delayed.mrt 2 = .pulse ∧ delayed.mrt.out.getLsbD 2 = true := by decide
theorem test_witness_CellsPulsesAndPinsChange_6 : cellMode awakeS.mrt 0 ≠ .pulse := by decide
theorem test_witness_CellsPulsesAndPinsChange_7 : (47 : BitVec 6).toNat < 48 := by decide
theorem test_witness_CellsPulsesAndPinsChange_8 : awakeS.awake = true ∧ awakeS.hng.session = false := by decide
theorem test_witness_CellsPulsesAndPinsChange_9 : trusted.hng.session = true ∧ pinTrust trusted.pin 0 = true ∧ pinOwner trusted.pin 0 = .coreA ∧ (trusted.actsAs .coreA).isB = false ∧ (1 : Word).getLsbD 0 ≠ trusted.pin.out.getLsbD 0 := by decide
theorem test_witness_CellsPulsesAndPinsChange_10 : (1 : Word).getLsbD 0 ≠ trusted.pin.oe.getLsbD 0 := by decide
theorem test_witness_CellsPulsesAndPinsChange_11 : ({ CellCfg.idle with in0 := some 0, in1 := some 1, in2 := some 2, in3 := some 63 } : CellCfg).in3 = some 63 := by decide
theorem test_witness_CalendarCountsLoadsAndCaptures_0 : clocked.rtc.div < 32 ∧ clocked.crs.onRc = true ∧ clocked.rtc.now.sub ≠ 1023 ∧ clocked.awake = true := by decide
theorem test_witness_CalendarCountsLoadsAndCaptures_1 : (clockAt 28 2 24 0 0 0 1023).rtc.now.sub = 1023 ∧ (clockAt 28 2 24 0 0 0 1023).rtc.almEn = false := by decide
theorem test_witness_CalendarCountsLoadsAndCaptures_2 : (clockAt 31 12 199 23 59 59 1023).rtc.now.year = 199 := by decide
theorem test_witness_CalendarCountsLoadsAndCaptures_3 : (clockAt 1 1 0 0 0 59 1023).rtc.now.sec = 59 ∧ (clockAt 1 1 0 0 0 59 1023).rtc.now.min.toNat < 59 := by decide
theorem test_witness_CalendarCountsLoadsAndCaptures_4 : (clockAt 1 1 0 0 59 59 1023).rtc.now.hour.toNat < 23 := by decide
theorem test_witness_CalendarCountsLoadsAndCaptures_5 : (clockAt 28 2 24 23 59 59 1023).rtc.now.day.toNat < 29 := by decide
theorem test_witness_CalendarCountsLoadsAndCaptures_6 : (clockAt 29 2 24 23 59 59 1023).rtc.now.day.toNat = monthDays 24 2 := by decide
theorem test_witness_CalendarCountsLoadsAndCaptures_7 : (clockAt 31 12 24 23 59 59 1023).rtc.now.mon = 12 := by decide
theorem test_witness_CalendarCountsLoadsAndCaptures_8 : ((clocked.rtc.now.sec + 1).setWidth 16 : Word) = ({ clocked.rtc with almEn := true, amsk := 1, alm0 := 1 } : Rtc).alm0 &&& 0x3F := by decide
theorem test_witness_SillSamplesQueueAndRange_0 : sampling.awake = true ∧ sampling.sill.cfg.per ≠ 0 ∧ sampling.sill.run = true ∧ sampling.sill.burst = none ∧ sampling.sill.cfg.shOn = true ∧ sampling.sill.auto = true := by decide
theorem test_witness_SillSamplesQueueAndRange_1 : sampling.sill.cfg.aux = [] ∧ sampling.sill.queue.length < 64 := by decide
theorem test_witness_SillSamplesQueueAndRange_2 : converting.sill.burst.isSome = true ∧ converting.awake = true := by decide
theorem test_witness_SillSamplesQueueAndRange_3 : ∃ b, converting.sill.burst = some b ∧ b.shunt = true ∧ b.aux = none ∧ b.temp = false ∧ b.settle = false ∧ b.range = converting.sill.range := by decide
theorem test_witness_SillSamplesQueueAndRange_4 : converting.sill.range.toNat < converting.sill.cfg.rmax.toNat ∧ converting.sill.cfg.rmin.toNat < converting.sill.range.toNat ∧ converting.sill.low = 7 := by decide
theorem test_witness_SillSamplesQueueAndRange_5 : awakeS.sill.run = false ∧ awakeS.sill.tempDue = false ∧ awakeS.sill.burst = none := by decide
theorem test_witness_SillSamplesQueueAndRange_6 : ({ awakeS with sill.tempDue := true } : State).sill.tempDue = true ∧ ∀ i : Fin 8, (awakeS.sill.cfg.thr.get i).ch ≠ some 9 := by decide
theorem test_witness_SillSamplesQueueAndRange_7 : sampling.sill.cfg.owner = 1 ∧ sampling.actsAs .coreA = .a ∧ sampling.actsAs .coreB = .b := by decide
theorem test_witness_SillSamplesQueueAndRange_8 : awakeS.sill.cfg.owner = 0 := by decide
theorem test_witness_SillSamplesQueueAndRange_9 : (converting.sill.cfg.thr.get 0).ch = some 0xF ∧ (converting.sill.cfg.thr.get 0).above = true ∧ (converting.sill.cfg.thr.get 0).trange = 2 := by decide
theorem test_witness_EnginesFloorRandomAndOtp_0 : awakeS.sec.flrBusy = none ∧ awakeS.img.secVer.toNat ≤ (verFloor awakeS.sec).toNat := by decide
theorem test_witness_EnginesFloorRandomAndOtp_1 : (verFloor ({ awakeS with img.secVer := 5 } : State).sec).toNat < ({ awakeS with img.secVer := 5 } : State).img.secVer.toNat ∧ floorEntry awakeS.sec 0 = none := by decide
theorem test_witness_EnginesFloorRandomAndOtp_2 : ∀ i < 16, (floorEntry ({ awakeS.sec with otp := (List.range 16).map fun i => (0x080 + 4 * i, 1) } : Sec) i).isSome = true := by decide
theorem test_witness_EnginesFloorRandomAndOtp_3 : ({ awakeS with sec.flrBusy := some (0, 5) } : State).sec.flrBusy = some (0, 5) := by decide
theorem test_witness_EnginesFloorRandomAndOtp_4 : (0x8000 : Word).getLsbD 15 = true ∧ (awakeS.sec.jobs .a).st = 0 ∧ awakeS.sec.engine = none := by decide
theorem test_witness_EnginesFloorRandomAndOtp_5 : ∀ b ∈ jobBuffers 0 (awakeS.sec.jobs .a).src.toNat (awakeS.sec.jobs .a).len.toNat (awakeS.sec.jobs .a).dst.toNat (awakeS.sec.jobs .a).key.toNat, b.1 + b.2 ≤ 0xD000 := by decide
theorem test_witness_EnginesFloorRandomAndOtp_6 : ∃ b ∈ jobBuffers 0 0xFFFF 1 0 0, ¬ b.1 + b.2 ≤ 0xD000 := by decide
theorem test_witness_EnginesFloorRandomAndOtp_7 : ({ awakeS.sec with engine := some .coreA, jobA := { JobSet.reset with job := some (0, 0, 0, 0, 0) } } : Sec).engine = some (engUser .a) := by decide
theorem test_witness_EnginesFloorRandomAndOtp_8 : Bytes.wf 0 awakeS.mem.bytes = true ∧ awakeS.mem.errs = [] ∧ awakeS.sec.waiters = [] := by decide
theorem test_witness_EnginesFloorRandomAndOtp_9 : ({ awakeS.sec with engine := some .coreA, waiters := [.coreB] } : Sec).waiters = [.coreB] ∧ awakeS.sec.jobA.job = none := by decide
theorem test_witness_EnginesFloorRandomAndOtp_10 : awakeS.sec.rngReady = false ∧ awakeS.sec.rngHalt = false := by decide
theorem test_witness_EnginesFloorRandomAndOtp_11 : ({ awakeS.sec with rngReady := true } : Sec).rngReady = true := by decide
theorem test_witness_EnginesFloorRandomAndOtp_12 : awakeS.sec.otpBusy = none ∧ otpWord awakeS.sec 0x20 = none := by decide
theorem test_witness_EnginesFloorRandomAndOtp_13 : ({ awakeS.sec with otpBusy := some (0x20, 7) } : Sec).otpBusy = some (0x20, 7) := by decide
theorem test_witness_HingeAnswersItsTransactions_0 : hinged.awake = true ∧ hingeLive hinged = true ∧ hinged.pin.vioOk.getLsbD 0 = true := by decide
theorem test_witness_HingeAnswersItsTransactions_1 : hinged.hng.checking = false ∧ hinged.hng.reading = none ∧ hinged.hng.held = none ∧ hinged.hng.dropRead = false := by decide
theorem test_witness_HingeAnswersItsTransactions_2 : hinged.hng.session = true ∧ hinged.hng.rights = 0x1F ∧ hinged.crs.timeUp = false := by decide
theorem test_witness_HingeAnswersItsTransactions_3 : hingeLive ({ awakeS with crs.newEpoch := true } : State) = false := by decide
theorem test_witness_HingeAnswersItsTransactions_4 : hingeKnown 0x3F = false := by decide
theorem test_witness_HingeAnswersItsTransactions_5 : derzorRange 0x040 = true ∧ ioMapped 0x040 hinged = true ∧ ioForeign (hinged.actsAs .hinge) 0x048 hinged = false ∧ hinged.tie.post.length < 8 := by decide
theorem test_witness_HingeAnswersItsTransactions_6 : derzorRange 0x030 = false ∧ ioMapped 0x030 hinged = true := by decide
theorem test_witness_HingeAnswersItsTransactions_7 : (ioVal (hinged.actsAs .hinge) 0x030 hinged).isSome = true := by decide
theorem test_witness_HingeAnswersItsTransactions_8 : hinged.mem.errs = [] ∧ Bytes.wf 0 hinged.mem.bytes = true := by decide
theorem test_witness_HingeAnswersItsTransactions_9 : hinged.hng.fails ≠ 3 ∧ hinged.sec.lc = .factory := by decide
theorem test_witness_HingeAnswersItsTransactions_10 : ({ hinged with sec.lc := .locked, hng.chalv := true } : State).sec.lc = .locked := by decide
theorem test_witness_HingeAnswersItsTransactions_11 : isHalted hinged.coreA = true ∧ hinged.coreA.st = .halted .running := by decide
theorem test_witness_HingeAnswersItsTransactions_12 : isHalted hinged.coreB = false := by decide
theorem test_witness_HingeAnswersItsTransactions_13 : ({ hinged with coreB.haltReq := true, coreB.st := .running } : State).coreB.xfer = none := by decide
theorem test_witness_HingeAnswersItsTransactions_14 : hinged.coreB.haltReq = false := by decide
theorem test_witness_HingeAnswersItsTransactions_15 : hinged.sec.otpBusy = none ∧ otpWord hinged.sec 0x20 = none := by decide
theorem test_witness_HingeAnswersItsTransactions_16 : ({ hinged with hng.otpAddr := 0x20 } : State).hng.otpAddr.toNat % 2 = 0 := by decide
theorem test_witness_HingeAnswersItsTransactions_17 : keyHashSet ({ hinged.sec with otp := [(0x020, 1)] } : Sec) = true := by decide
theorem test_witness_HingeAnswersItsTransactions_18 : ({ hinged with hng.checking := true, sec.engine := some .session } : State).sec.waiters = [] := by decide
theorem test_witness_HingeAnswersItsTransactions_19 : dbgHashSet hinged.sec = false := by decide
theorem test_witness_HingeAnswersItsTransactions_20 : (List.replicate 32 (0 : Byte)).length = 32 := by decide

end Tests
end Sys2Proof
end

section
/-!
SUPPORT. Single fields of a core after slots are spent, after a step's end, after the counter has moved on, and after the fabric has
settled; general registers after a write.
-/
namespace Sys2Proof
namespace Laws
open Machine

variable {k : Core} {n : Nat}

@[simp] theorem stepEnd_k : k.stepEnd.k = k.k := by rw [stepEnd_eq]
@[simp] theorem stepEnd_pc : k.stepEnd.pc = k.pc := by rw [stepEnd_eq]
@[simp] theorem stepEnd_z : k.stepEnd.z = k.z := by rw [stepEnd_eq]
@[simp] theorem stepEnd_n : k.stepEnd.n = k.n := by rw [stepEnd_eq]
@[simp] theorem stepEnd_c : k.stepEnd.c = k.c := by rw [stepEnd_eq]
@[simp] theorem stepEnd_v : k.stepEnd.v = k.v := by rw [stepEnd_eq]
@[simp] theorem stepEnd_busy : k.stepEnd.busy = k.busy := by rw [stepEnd_eq]

@[simp] theorem spend_k : (k.spend n).k = k.k := rfl
@[simp] theorem spend_pc : (k.spend n).pc = k.pc := rfl
@[simp] theorem spend_z : (k.spend n).z = k.z := rfl
@[simp] theorem spend_n : (k.spend n).n = k.n := rfl
@[simp] theorem spend_c : (k.spend n).c = k.c := rfl
@[simp] theorem spend_v : (k.spend n).v = k.v := rfl
@[simp] theorem spend_busy : (k.spend n).busy = k.busy := rfl

@[simp] theorem advancePc_k : (k.advancePc n).k = k.k := by rw [advancePc_eq]
@[simp] theorem advancePc_z : (k.advancePc n).z = k.z := by rw [advancePc_eq]
@[simp] theorem advancePc_n : (k.advancePc n).n = k.n := by rw [advancePc_eq]
@[simp] theorem advancePc_c : (k.advancePc n).c = k.c := by rw [advancePc_eq]
@[simp] theorem advancePc_v : (k.advancePc n).v = k.v := by rw [advancePc_eq]
@[simp] theorem advancePc_pc : (k.advancePc n).pc = k.following n := following_eq k n
@[simp] theorem advancePc_ioTrap : (k.advancePc n).ioTrap = k.ioTrap := by rw [advancePc_eq]

@[simp] theorem landDue_ioTrap : k.landDue.ioTrap = k.ioTrap := by rw [landDue_lands k]

/-- The fabric changes a core's latches alone (R223, R323). -/
theorem emit_latched (ps : List (BitVec 8)) (s : State) (c : CoreId) : Latched (s.core c) ((emit ps s).core c) := by
  cases c
  · exact (emit_settled ps s).2.1
  · exact (emit_settled ps s).2.2.1

section
variable {ps : List (BitVec 8)} {s : State} {c : CoreId}

@[simp] theorem emit_core_k : ((emit ps s).core c).k = (s.core c).k := by rw [emit_latched ps s c]
@[simp] theorem emit_core_pc : ((emit ps s).core c).pc = (s.core c).pc := by rw [emit_latched ps s c]
@[simp] theorem emit_core_z : ((emit ps s).core c).z = (s.core c).z := by rw [emit_latched ps s c]
@[simp] theorem emit_core_n : ((emit ps s).core c).n = (s.core c).n := by rw [emit_latched ps s c]
@[simp] theorem emit_core_c : ((emit ps s).core c).c = (s.core c).c := by rw [emit_latched ps s c]
@[simp] theorem emit_core_v : ((emit ps s).core c).v = (s.core c).v := by rw [emit_latched ps s c]

@[simp] theorem moved_core {words : Nat} : (s.moved c words).core c = (s.seen c).advancePc words := State.core_setCore
@[simp] theorem moved_tie {words : Nat} : (s.moved c words).tie = s.tie := State.setCore_tie

end

/-- A register write puts its value in that register alone (R201). -/
theorem puts_of_set {k k' : Core} {d : Reg} {v : Word} (h : k'.k = k.k.set d.toFin v) : Puts k k' d v := by
  intro r
  simp only [Core.reg, h, Vector.get_eq_getElem, Vector.getElem_set]
  by_cases e : r = d
  · rw [if_pos e, if_pos (by rw [e])]
  · rw [if_neg e, if_neg fun h => e (BitVec.eq_of_toNat_eq h.symm)]

end Laws
end Sys2Proof
end

section
/-!
SUPPORT. What a register read does besides (R17), and the cases of IN (R208, R211).
-/
namespace Sys2Proof
namespace Laws
open Machine

variable {c e : CoreId} {a : Nat} {s : State}

/-! ### Which addresses a block maps does not depend on the reader -/

theorem coreVal_isSome {k : Core} : (coreVal c k a).isSome = decide (0x030 ≤ a ∧ a < 0x038) := by
  unfold coreVal
  (repeat' split) <;> simp <;> omega

theorem ioMapped_eq (c : CoreId) : ioMapped a s = (ioVal c a s).isSome := by
  simp only [ioMapped, ioVal, apply_ite Option.isSome, coreVal_isSome]

/-! ### Read effects leave the cores alone, but for captures and counters -/

theorem core_of {t : State} (ha : t.coreA = s.coreA) (hb : t.coreB = s.coreB) : t.core e = s.core e := by
  cases e <;> assumption

theorem core_ite {p : Prop} [Decidable p] {t u : State} (ht : t.core e = s.core e) (hu : u.core e = s.core e) :
    (if p then t else u).core e = s.core e := by split <;> assumption

@[simp] theorem courseSide_core : (courseSide a s).core e = s.core e := by
  unfold courseSide
  with_reducible repeat' apply core_ite
  all_goals exact core_of rfl rfl
@[simp] theorem memSide_core : (memSide a s).core e = s.core e := by
  unfold memSide
  with_reducible repeat' apply core_ite
  all_goals exact core_of rfl rfl
@[simp] theorem porterSide_core : (porterSide a s).core e = s.core e := by
  have hp : ∀ p : Porter, ({ s with por := p } : State).core e = s.core e := fun _ => core_of rfl rfl
  unfold porterSide
  with_reducible repeat' apply core_ite
  exacts [hp _, hp _, hp _, hp _, hp _, hp _, rfl]
@[simp] theorem energySide_core : (energySide a s).core e = s.core e := by
  unfold energySide
  with_reducible repeat' apply core_ite
  all_goals exact core_of rfl rfl
@[simp] theorem powerSide_core : (powerSide a s).core e = s.core e := by
  unfold powerSide
  with_reducible repeat' apply core_ite
  all_goals exact core_of rfl rfl
@[simp] theorem ashSide_core : (ashSide a s).core e = s.core e := by
  unfold ashSide
  with_reducible repeat' apply core_ite
  all_goals exact core_of rfl rfl
@[simp] theorem vaultSide_core : (vaultSide a s).core e = s.core e := by
  unfold vaultSide
  with_reducible repeat' apply core_ite
  all_goals exact core_of rfl rfl
@[simp] theorem touchSide_core : (touchSide a s).core e = s.core e := by
  unfold touchSide
  with_reducible repeat' apply core_ite
  all_goals exact core_of rfl rfl
@[simp] theorem paneSide_core : (paneSide a s).core e = s.core e := by
  unfold paneSide
  with_reducible repeat' apply core_ite
  all_goals exact core_of rfl rfl
@[simp] theorem sillSide_core : (sillSide a s).core e = s.core e := by
  unfold sillSide
  with_reducible repeat' apply core_ite
  all_goals exact core_of rfl rfl
@[simp] theorem rtcSide_core : (rtcSide a s).core e = s.core e := by
  unfold rtcSide
  with_reducible repeat' apply core_ite
  all_goals exact core_of rfl rfl
@[simp] theorem pcSide_core : (pcSide a s).core e = s.core e := rfl
@[simp] theorem portSide_core : (portSide a s).core e = s.core e := by
  unfold portSide
  split
  · rename_i p _; cases p <;> rfl
  · rfl

/-- k' is k but for what a register read may take from a core: TRAPCNT, the fetch count's capture, AU_ABN (R17). -/
def Captured (k k' : Core) : Prop := k' = { k with trapCnt := k'.trapCnt, fcntHiCap := k'.fcntHiCap, au := k'.au }

theorem captured_setCore {k : Core} (h : Captured (s.core c) k) : Captured (s.core e) ((s.setCore c k).core e) := by
  by_cases he : e = c
  · subst he; rwa [State.core_setCore]
  · rw [State.core_setCore_other he]; rfl

theorem captured_of_eq {k k' : Core} (h : k' = k) : Captured k k' := by subst h; rfl

theorem captured_ite {p : Prop} [Decidable p] {k : Core} {t u : State} (ht : Captured k (t.core e)) (hu : Captured k (u.core e)) :
    Captured k ((if p then t else u).core e) := by split <;> assumption

theorem captured_secSide : Captured (s.core e) ((secSide a s).core e) :=
  captured_ite (captured_of_eq rfl) <| captured_ite (captured_of_eq rfl) <| captured_ite (captured_setCore rfl) <|
    captured_ite (captured_setCore rfl) (captured_of_eq rfl)

theorem captured_au (k : Core) {u : Au} : Captured k { k with au := u } := rfl

theorem captured_coreSide {k : Core} : Captured k (coreSide k a) := by
  unfold coreSide; split <;> rfl

/-- A register read changes no more of a core than `Captured` says. -/
theorem captured_ioSide : Captured (s.core e) ((ioSide c a s).core e) := by
  unfold ioSide
  with_reducible repeat' apply captured_ite
  exacts [captured_of_eq rfl, captured_of_eq courseSide_core, captured_of_eq memSide_core, captured_setCore captured_coreSide,
    captured_of_eq memSide_core, captured_of_eq porterSide_core, captured_of_eq energySide_core, captured_of_eq porterSide_core,
    captured_of_eq powerSide_core, captured_of_eq rfl, captured_of_eq rfl, captured_of_eq ashSide_core,
    captured_of_eq vaultSide_core, captured_of_eq portSide_core, captured_of_eq pcSide_core, captured_of_eq touchSide_core,
    captured_of_eq paneSide_core, captured_of_eq sillSide_core, captured_of_eq rtcSide_core, captured_secSide,
    captured_setCore (captured_au s.coreA), captured_setCore (captured_au s.coreB), captured_of_eq rfl]

@[simp] theorem ioSide_core_k : ((ioSide c a s).core e).k = (s.core e).k := by rw [captured_ioSide]
@[simp] theorem ioSide_core_pc : ((ioSide c a s).core e).pc = (s.core e).pc := by rw [captured_ioSide]
@[simp] theorem ioSide_core_z : ((ioSide c a s).core e).z = (s.core e).z := by rw [captured_ioSide]
@[simp] theorem ioSide_core_n : ((ioSide c a s).core e).n = (s.core e).n := by rw [captured_ioSide]
@[simp] theorem ioSide_core_c : ((ioSide c a s).core e).c = (s.core e).c := by rw [captured_ioSide]
@[simp] theorem ioSide_core_v : ((ioSide c a s).core e).v = (s.core e).v := by rw [captured_ioSide]

end Laws
end Sys2Proof
end

section
/-!
O17: IN and IN_IMM, and the end of a Derzor-side read.
-/
namespace Sys2Proof
namespace Laws
open Machine

variable {c : CoreId} {d : Reg} {n : Nat} {f : Core → BitVec 12} {a : BitVec 12} {s : State} {v : Word}

@[simp] theorem setCore_moved {k : Core} : (s.moved c n).setCore c k = s.setCore c k := State.setCore_setCore

/-! ### What IN does, case by case (R208, R211) -/

theorem inWordOp_unmapped (ha : f (s.core c) = a) (hm : ioMapped a.toNat s = false) :
    inWordOp c d f s = ioUnmapped c false a s (regIn c d (0, s)) := by
  simp [inWordOp, ha, hm]

theorem inWordOp_derzor (ha : f (s.core c) = a) (hm : ioMapped a.toNat s = true) (hd : derzorRange a.toNat = true) :
    inWordOp c d f s = .done (s.setCore c { s.core c with busy := some (.read d a s.tie.post.length) }) 10 := by
  simp [inWordOp, ha, hm, hd]

theorem inWordOp_here (ha : f (s.core c) = a) (hv : ioVal c a.toNat s = some v) (hd : derzorRange a.toNat = false) :
    inWordOp c d f s = .done (emit [] (regIn c d (v, ioSide c a.toNat s))) 0 := by
  have hm : ioMapped a.toNat s = true := by rw [ioMapped_eq c, hv]; rfl
  simp [inWordOp, ha, hm, hd, hv]

/-! ### IN issued -/

/-- What a ready core's legal instruction leaves, from what its body leaves. -/
theorem issue_of_done {words extra : Nat} {body : State → Effect} {t : State} (hr : Ready c words s) (hw : words = 1 ∨ words = 2)
    (hb : body (s.moved c words) = .done t extra) :
    issue c words legal body s = t.setCore c ((t.core c).spend (words + extra)).stepEnd :=
  issue_done (ready_issuing hr) (ready_check hr hw rfl) hb

/-- A Shadjaras register is read at once, with its read effects. -/
theorem in_here (hr : Ready c n s) (hw : n = 1 ∨ n = 2) (ha : f ((s.moved c n).core c) = a) (hd : derzorRange a.toNat = false)
    (hv : ioVal c a.toNat (s.moved c n) = some v) :
    let t := issue c n legal (inWordOp c d f) s
    Puts (s.core c) (t.core c) d v ∧ (t.core c).pc = (s.seen c).following n ∧ KeepsFlags c s t ∧
      Beyond c (ioSide c a.toNat (s.moved c n)) t := by
  intro t
  have ht : t = _ := issue_of_done hr hw (inWordOp_here ha hv hd)
  let u := regIn c d (v, ioSide c a.toNat (s.moved c n))
  rw [ht]
  refine ⟨puts_of_set ?_, ?_, ⟨?_, ?_, ?_, ?_⟩, u.core c, emit [] u, ?_, by simp [u]⟩
  case refine_7 => simpa [u, regIn] using emit_settled [] u
  all_goals simp [regIn, Core.put, State.seen]

/-- A Derzor-side read waits behind the writes posted before it. -/
theorem in_derzor (hr : Ready c n s) (hw : n = 1 ∨ n = 2) (ha : f ((s.moved c n).core c) = a) (hd : derzorRange a.toNat = true)
    (hm : ioMapped a.toNat (s.moved c n) = true) :
    let t := issue c n legal (inWordOp c d f) s
    (t.core c).busy = some (.read d a s.tie.post.length) ∧ OnlyCore c s t ∧ (t.core c).k = (s.core c).k ∧ KeepsFlags c s t := by
  intro t
  have ht : t = _ := issue_of_done hr hw (inWordOp_derzor ha hm hd)
  rw [ht]
  simp [OnlyCore, KeepsFlags, State.seen]

theorem in_unmapped (hr : Ready c n s) (hw : n = 1 ∨ n = 2) (ha : f ((s.moved c n).core c) = a)
    (hm : ioMapped a.toNat (s.moved c n) = false) (hi : (s.core c).ioTrap = false) :
    let t := issue c n legal (inWordOp c d f) s
    Runs c n s t ∧ Puts (s.core c) (t.core c) d 0 ∧ KeepsFlags c s t := by
  intro t
  have hb : inWordOp c d f (s.moved c n) = .done (s.setCore c (((s.seen c).advancePc n).put d 0)) 0 := by
    rw [inWordOp_unmapped ha hm]
    simp [ioUnmapped, State.seen, hi, regIn]
  obtain ⟨hrun, hk, hz, hn, hc, hv⟩ := runs_of (ill := legal) hr hw rfl _ hb rfl
  refine ⟨hrun, puts_of_set ?_, ?_⟩
  · rw [hk]; simp [Core.put, State.seen]
  · exact ⟨by simpa [Core.put] using hz, by simpa [Core.put] using hn, by simpa [Core.put] using hc, by simpa [Core.put] using hv⟩

theorem in_traps (hr : Ready c n s) (hw : n = 1 ∨ n = 2) (ha : f ((s.moved c n).core c) = a)
    (hm : ioMapped a.toNat (s.moved c n) = false) (hi : (s.core c).ioTrap = true) :
    Traps c n (Trap.unmappedIo false a) s (issue c n legal (inWordOp c d f) s) := by
  refine traps_body hr hw rfl ?_
  change inWordOp c d f (s.moved c n) = _
  rw [inWordOp_unmapped ha hm]
  simp [ioUnmapped, State.seen, hi]

/-! ### A Derzor-side read ends (R296) -/

theorem exec_readComplete (who : Who) (fail : Option TieFail) (s : State) :
    exec (.tieReadComplete who fail) s = execTieReadComplete who fail s := rfl

theorem exec_coreRead (hm : s.mainOn = true) (fail : Option TieFail) :
    exec (.tieReadComplete c.who fail) s = .next (coreReadEnd c fail s) := by
  rw [exec_readComplete]
  cases c <;> simp [execTieReadComplete, hm, CoreId.who]

/-- The core whose read has ended goes on with the value. -/
theorem coreReadEnd_eq (fail : Option TieFail) (hb : (s.core c).busy = some (.read d a 0)) :
    let r := tieRead c.who a fail s
    coreReadEnd c fail s = r.2.setCore c { r.2.core c with k := (r.2.core c).k.set d.toFin r.1, busy := none }.stepEnd := by
  simp [coreReadEnd, hb]

theorem read_ends (hv : ioVal c a.toNat s = some v) (hb : (s.core c).busy = some (.read d a 0)) :
    let t := coreReadEnd c none s
    Puts (s.core c) (t.core c) d v ∧ (t.core c).busy = none ∧ Beyond c (ioSide c a.toNat s) t := by
  have hr : tieRead c.who a none s = (v, emit [] (ioSide c a.toNat s)) := by
    cases c <;> simp [tieRead, State.actsAs, CoreId.who, hv]
  rw [coreReadEnd_eq none hb, hr]
  refine ⟨puts_of_set ?_, by simp, (ioSide c a.toNat s).core c, emit [] (ioSide c a.toNat s), ?_, by simp⟩
  · simp
  · simpa using emit_settled [] (ioSide c a.toNat s)

theorem lateFault_of_room {e : LateFault} (h : s.tie.lf.length < 8) : s.lateFault e = { s with tie.lf := s.tie.lf ++ [e] } :=
  if_neg (Nat.not_le.mpr h)

/-- The late-fault entry of a read that failed (R298). -/
def failedRead (c : CoreId) (a : BitVec 12) (f : TieFail) (s : State) : LateFault :=
  { addr := a, outcome := if f = .parity then 4 else 5, bitw := false, data := 0, stamp := s.crs.tick.setWidth 14, who := if c.isB then 1 else 0 }

theorem readFault_of_room {f : TieFail} (h : s.tie.lf.length < 8) :
    readFault c.who a f s = { s with tie.lf := s.tie.lf ++ [failedRead c a f s] } := by
  have he : ∀ (w : Who) (o : BitVec 3), s.lateWord a.toNat o 0 w = { s with tie.lf := s.tie.lf ++
      [{ addr := a, outcome := o, bitw := false, data := 0, stamp := s.crs.tick.setWidth 14, who := w.code }] } := by
    intro w o
    rw [State.lateWord, lateFault_of_room h, BitVec.ofNat_toNat, BitVec.setWidth_eq]
  cases f <;> cases c <;> exact he _ _

theorem read_fails {f : TieFail} (h : s.tie.lf.length < 8) (hb : (s.core c).busy = some (.read d a 0)) :
    let t := coreReadEnd c (some f) s
    Puts (s.core c) (t.core c) d 0 ∧ (t.core c).busy = none ∧ t.tie.lf = s.tie.lf ++ [failedRead c a f s] ∧
      t = { s.setCore c (t.core c) with tie.lf := t.tie.lf } := by
  rw [coreReadEnd_eq _ hb]
  simp only [tieRead, readFault_of_room h, State.core_setCore, stepEnd_busy, State.setCore_tie, true_and]
  refine ⟨puts_of_set ?_, ?_⟩
  · cases c <;> simp [State.core]
  · cases c <;> rfl

/-- Settles O17: IN has four cases by its address, and a read over the lane two ends; each case is a lemma above. -/
theorem inReadsIoSpace : Obligations.InReadsIoSpace := by
  unfold Obligations.InReadsIoSpace
  intro c d x s reads entry
  have key : ∀ (n : Nat) (i : Instr) (f : Core → BitVec 12) (a : BitVec 12), n = 1 ∨ n = 2 → f ((s.moved c n).core c) = a →
      exec i s = .next (issue c n legal (inWordOp c d f) s) → reads n i a := by
    intro n i f a hw ha he hr
    exact ⟨fun hd v hv => ⟨_, he, in_here hr hw ha hd hv⟩, fun hd hm => ⟨_, he, in_derzor hr hw ha hd hm⟩,
      fun hm hi => ⟨_, he, in_unmapped hr hw ha hm hi⟩, fun hm hi => ⟨_, he, in_traps hr hw ha hm hi⟩⟩
  have haddr : ((s.moved c 1).core c).ioAt x = ((s.core c).reg x).setWidth 12 := by simp [Core.ioAt, Core.reg, State.seen]
  refine ⟨key 1 _ _ _ (.inl rfl) haddr rfl, fun a => key 2 _ _ a (.inr rfl) rfl rfl, fun hm a hb => ⟨fun v hv => ?_, fun f hl => ?_⟩⟩
  · exact ⟨_, exec_coreRead hm none, read_ends hv hb⟩
  · exact ⟨_, exec_coreRead hm (some f), read_fails hl hb⟩

end Laws
end Sys2Proof
end

section
/-!
O27: windows, time-up and the stall of the running course.
-/
namespace Sys2Proof
namespace Laws
open Machine

variable {s : State} {c e : CoreId} {k : Core}

theorem getLsbD_setBit_true {w : Nat} (v : BitVec w) (n i : Nat) :
    (setBit v n true).getLsbD i = (v.getLsbD i || decide (i < w ∧ i = n)) := by
  simp only [setBit, if_true, BitVec.getLsbD_or, BitVec.getLsbD_shiftLeft, BitVec.getLsbD_one]
  congr 1
  rw [Bool.eq_iff_iff]
  simp
  omega

/-! ### Windows (R151) -/

/-- A window's opening changes the Pane alone. -/
theorem paneWindowOpen_eq (s : State) : paneWindowOpen s = { s with pane := (paneWindowOpen s).pane } := by
  unfold paneWindowOpen
  split <;> rfl

theorem vaultWindowClose_eq (s : State) : vaultWindowClose s = { s with vlt := (vaultWindowClose s).vlt, tie := (vaultWindowClose s).tie } := by
  unfold vaultWindowClose vaultDropLeave
  split <;> rfl

theorem touchWindowClose_eq (s : State) : touchWindowClose s = { s with tch := (touchWindowClose s).tch, tie := (touchWindowClose s).tie } := by
  unfold touchWindowClose touchDropLeave
  split <;> rfl

theorem paneDropLeave_eq (s : State) : paneDropLeave s = { s with pane := (paneDropLeave s).pane, tie := (paneDropLeave s).tie } := by
  unfold paneDropLeave
  split <;> rfl

theorem paneWindowClose_eq (s : State) : paneWindowClose s = { s with pane := (paneWindowClose s).pane, tie := (paneWindowClose s).tie } := by
  unfold paneWindowClose
  split
  · rw [paneSkip, paneDropLeave_eq]
  · rfl

theorem exec_courseWindowOpen (b : WinBlock) (s : State) : exec (.courseWindowOpen b) s = execCourseWindowOpen b s := rfl
theorem exec_courseWindowClose (b : WinBlock) (s : State) : exec (.courseWindowClose b) s = execCourseWindowClose b s := rfl

/-- A window that the running course does not open stays as it is. -/
theorem exec_windowOpen_never {d : CourseDef} {b : WinBlock} (hd : s.crs.table[s.crs.now.toNat]? = some d)
    (hn : (d.window b).never = true) : exec (.courseWindowOpen b) s = .next s := by
  rw [exec_courseWindowOpen]
  simp [execCourseWindowOpen, CourseEngine.def?, hd, hn]

section
variable {d : CourseDef} (hr : s.crs.running = true) (hd : s.crs.table[s.crs.now.toNat]? = some d)
include hr hd

theorem exec_windowOpen_vault (hn : d.winVault.never = false) :
    exec (.courseWindowOpen .vault) s = .next { s with crs.winVault := true } := by
  rw [exec_courseWindowOpen]
  simp [execCourseWindowOpen, CourseEngine.def?, hd, CourseDef.window, hn, hr]

theorem exec_windowOpen_touch (hn : d.winTouch.never = false) :
    exec (.courseWindowOpen .touch) s = .next { s with crs.winTouch := true } := by
  rw [exec_courseWindowOpen]
  simp [execCourseWindowOpen, CourseEngine.def?, hd, CourseDef.window, hn, hr]

theorem exec_windowOpen_pane (hn : d.winPane.never = false) :
    exec (.courseWindowOpen .pane) s = .next (paneWindowOpen { s with crs.winPane := true }) := by
  rw [exec_courseWindowOpen]
  simp [execCourseWindowOpen, CourseEngine.def?, hd, CourseDef.window, hn, hr]

end

theorem exec_windowClose_vault (h : s.crs.winVault = true) :
    exec (.courseWindowClose .vault) s = .next { vaultWindowClose s with crs.winVault := false } := by
  simp only [exec_courseWindowClose, execCourseWindowClose, h, if_true]

theorem exec_windowClose_touch (h : s.crs.winTouch = true) :
    exec (.courseWindowClose .touch) s = .next { touchWindowClose s with crs.winTouch := false } := by
  simp only [exec_courseWindowClose, execCourseWindowClose, h, if_true]

theorem exec_windowClose_pane (h : s.crs.winPane = true) :
    exec (.courseWindowClose .pane) s = .next { paneWindowClose s with crs.winPane := false } := by
  simp only [exec_courseWindowClose, execCourseWindowClose, h, if_true]

/-! ### Time-up (R153, R160, R161) -/

/-- A core after time-up: a WAITEV has ended with a snapshot that shows it. -/
def atTimeUp (k : Core) : Core :=
  match k.st with
  | .waiting _ => { k.snapshot true with st := .running }
  | _ => k

theorem atTimeUp_other (h : ∀ m, k.st ≠ .waiting m) : atTimeUp k = k := by
  unfold atTimeUp
  split
  · exact absurd ‹_› (h _)
  · rfl

theorem atTimeUp_waiting {m : BitVec 13} (h : k.st = .waiting m) : atTimeUp k = { k.snapshot true with st := .running } := by
  simp [atTimeUp, h]

/-- EV of a snapshot at time-up holds the latches and TIME (R224). -/
theorem evWord_timeUp : (k.evWord true).getLsbD 13 = true ∧ (k.evWord true).setWidth 13 = k.lat := by
  unfold Core.evWord fieldAt bitAt
  constructor
  · simp
  · ext i hi
    cases k.ovf <;> simp

theorem endWait_other (h : ∀ m, (s.core c).st ≠ .waiting m) : endWait c s = s := by
  unfold endWait
  dsimp only
  split
  · exact absurd ‹_› (h _)
  · rfl

/-- A WAITEV that ends at time-up is counted and flagged. -/
theorem endWait_waiting {m : BitVec 13} (h : (s.core c).st = .waiting m) (ht : s.crs.timeUp = true) :
    endWait c s = { s.setCore c (atTimeUp (s.core c)) with
      crs := { s.crs with tuCnt := satInc s.crs.tuCnt, flags := setBit s.crs.flags 3 true } } := by
  rw [atTimeUp_waiting h]
  simp [endWait, h, ht]

/-- What the end of a WAITEV at time-up changes: its core, TU_CNT and the flags. -/
theorem endWait_eq (c : CoreId) (ht : s.crs.timeUp = true) :
    endWait c s = { s.setCore c (atTimeUp (s.core c)) with
      crs := { s.crs with tuCnt := (endWait c s).crs.tuCnt, flags := (endWait c s).crs.flags } } := by
  by_cases h : ∃ m, (s.core c).st = .waiting m
  · obtain ⟨m, h⟩ := h
    rw [endWait_waiting h ht]
  · have h' : ∀ m, (s.core c).st ≠ .waiting m := fun m hm => h ⟨m, hm⟩
    rw [endWait_other h', atTimeUp_other h', State.setCore_core]

/-- The course is flagged once a WAITEV has ended at time-up, and keeps a flag it has. -/
theorem endWait_flag (ht : s.crs.timeUp = true) (h : s.crs.flags.getLsbD 3 = true ∨ ∃ m, (s.core c).st = .waiting m) :
    (endWait c s).crs.flags.getLsbD 3 = true := by
  by_cases hw : ∃ m, (s.core c).st = .waiting m
  · obtain ⟨m, hw⟩ := hw
    rw [endWait_waiting hw ht]
    simp [getLsbD_setBit_true]
  · rw [endWait_other fun m hm => hw ⟨m, hm⟩]
    exact h.resolve_right hw

section
variable {sub : BitVec 10}

/-- The state in which TIMEUP is set and no WAITEV has ended yet. -/
def timeUpSet (sub : BitVec 10) (s : State) : State := { s.atSub sub with crs.timeUp := true }

/-- The state that COURSE_TIME_UP leaves. -/
def afterTimeUp (sub : BitVec 10) (s : State) : State := endWait .b (endWait .a (timeUpSet sub s))

theorem exec_courseTimeUp (sub : BitVec 10) (s : State) : exec (.courseTimeUp sub) s = execCourseTimeUp sub s := rfl

theorem exec_timeUp (hr : s.crs.running = true) (ht : s.crs.timeUp = false) :
    exec (.courseTimeUp sub) s = .next (afterTimeUp sub s) := by
  rw [exec_courseTimeUp]
  simp [execCourseTimeUp, hr, ht, afterTimeUp, timeUpSet]

/-- Time-up ends the WAITEV of either core, and changes TIMEUP, SUBTICK, TU_CNT and the course's flags beside. -/
theorem afterTimeUp_eq (sub : BitVec 10) (s : State) : afterTimeUp sub s = { s with
    coreA := atTimeUp s.coreA, coreB := atTimeUp s.coreB
    crs := { s.crs with subtick := sub, timeUp := true, tuCnt := (afterTimeUp sub s).crs.tuCnt
                        flags := (afterTimeUp sub s).crs.flags } } := by
  have ha := endWait_eq (s := timeUpSet sub s) .a rfl
  have hb : afterTimeUp sub s = _ := endWait_eq (s := endWait .a (timeUpSet sub s)) .b (by rw [ha]; rfl)
  rw [hb, ha]
  rfl

theorem afterTimeUp_core (c : CoreId) : (afterTimeUp sub s).core c = atTimeUp (s.core c) := by
  rw [afterTimeUp_eq]
  cases c <;> rfl

/-- A course in which a WAITEV ended at time-up is flagged. -/
theorem afterTimeUp_flag {m : BitVec 13} (h : (s.core c).st = .waiting m) : (afterTimeUp sub s).crs.flags.getLsbD 3 = true := by
  have ha := endWait_eq (s := timeUpSet sub s) .a rfl
  refine endWait_flag (by rw [ha]; rfl) ?_
  cases c
  · exact .inl (endWait_flag rfl (.inr ⟨m, h⟩))
  · exact .inr ⟨m, by rw [ha]; exact h⟩

end

/-! ### The stall (R157, R158) -/

/-- A core's start changes that core and the course's flags. -/
theorem startCore_eq (c : CoreId) (v : Word) (s : State) :
    startCore c v s = { s.setCore c ((s.core c).startTask v) with crs := { s.crs with flags := (startCore c v s).crs.flags } } := by
  unfold startCore
  cases c <;> dsimp only <;> split <;> rfl

/-- An idle core with no HALT before it runs from the address it is given (R212). -/
theorem startTask_idle {v : Word} (h : k.st = .idle) (hh : k.haltReq = false) :
    (k.startTask v).pc = v ∧ (k.startTask v).st = .running := by
  simp [Core.startTask, h, hh]

/-- What core A's stall door changes: the core, the course's flags, and that its list has ended. -/
theorem stallDoor_a_eq (s : State) : stallDoor .a s = { s with
    coreA := (stallDoor .a s).coreA
    crs := { s.crs with flags := (stallDoor .a s).crs.flags, endedA := (stallDoor .a s).crs.endedA } } := by
  unfold stallDoor
  dsimp only
  split
  · rw [startCore_eq]; rfl
  · rfl

theorem stallDoor_b_eq (s : State) : stallDoor .b s = { s with
    coreB := (stallDoor .b s).coreB
    crs := { s.crs with flags := (stallDoor .b s).crs.flags, endedB := (stallDoor .b s).crs.endedB } } := by
  unfold stallDoor
  dsimp only
  split
  · rw [startCore_eq]; rfl
  · rfl

/-- Core A, its list ended, begins at its stall door, unless the image declares corner S (R135, R157). -/
theorem stallDoor_a_starts (he : s.crs.endedA = true) (hc : s.crs.corner ≠ 3) :
    (stallDoor .a s).coreA = s.coreA.startTask s.crs.doorA ∧ (stallDoor .a s).crs.endedA = false := by
  simp only [stallDoor, he, bne_iff_ne.mpr hc, Bool.and_self, if_true, and_true]
  rw [startCore_eq]
  rfl

theorem stallDoor_b_starts (he : s.crs.endedB = true) :
    (stallDoor .b s).coreB = s.coreB.startTask s.crs.doorB ∧ (stallDoor .b s).crs.endedB = false := by
  simp only [stallDoor, he, if_true, and_true]
  rw [startCore_eq]
  rfl

/-- The contract record of a stall (R158). -/
def stallRecord (c : CourseEngine) : ContractRec :=
  { course := c.now, kind := .stall, flags := c.flags, stamp := c.startTick.setWidth 32, meas := c.stallTicks.setWidth 16 }

/-- The course engine once the stall is recorded, before the stall doors. -/
def stalled (c : CourseEngine) : CourseEngine := addRecord (stallRecord c) { c with stallDone := true, stat := setBit c.stat 2 true }

/-- A stall changes STALL, the records and REC_LOST. -/
theorem stalled_eq (c : CourseEngine) :
    stalled c = { c with stallDone := true, stat := (stalled c).stat, recs := (stalled c).recs } := by
  unfold stalled
  rw [addRecord_eq]

theorem stalled_stat (c : CourseEngine) : (stalled c).stat.getLsbD 2 = true := by
  unfold stalled addRecord
  split <;> simp [getLsbD_setBit_true]

theorem stalled_recs {c : CourseEngine} (h : c.recs.length < 8) : (stalled c).recs = c.recs ++ [stallRecord c] := by
  rw [stalled, addRecord, if_neg (Nat.not_le.mpr h)]

/-- The state that COURSE_STALL leaves: the stall recorded, both stall doors entered. -/
def afterStall (s : State) : State := stallDoor .b (stallDoor .a { s with crs := stalled s.crs })

theorem exec_stall (hr : s.crs.running = true) (hd : s.crs.stallDone = false) (hn : s.crs.stallTicks ≠ 0)
    (ht : s.crs.startTick.toNat + s.crs.stallTicks.toNat ≤ s.crs.tick.toNat) :
    exec .courseStall s = .next (afterStall s) := by
  have hn' : (s.crs.stallTicks != 0) = true := bne_iff_ne.mpr hn
  have hg : (s.crs.running && !s.crs.stallDone && s.crs.stallTicks != 0 &&
      decide (s.crs.startTick.toNat + s.crs.stallTicks.toNat ≤ s.crs.tick.toNat)) = true := by
    rw [hr, hd, hn', decide_eq_true ht]; rfl
  exact congrArg Host.Outcome.next (if_pos hg)

/-- The stall's whole effect: the cores and the course engine, and there the record, STALL, the flags and which lists have ended. -/
theorem afterStall_eq (s : State) : afterStall s = { s with
    coreA := (afterStall s).coreA, coreB := (afterStall s).coreB
    crs := { stalled s.crs with flags := (afterStall s).crs.flags, endedA := (afterStall s).crs.endedA
                                endedB := (afterStall s).crs.endedB } } := by
  have ha := stallDoor_a_eq { s with crs := stalled s.crs }
  have hb : afterStall s = _ := stallDoor_b_eq (stallDoor .a { s with crs := stalled s.crs })
  rw [hb, ha]

/-- Core A at its stall door. -/
theorem afterStall_a (he : s.crs.endedA = true) (hc : s.crs.corner ≠ 3) :
    (afterStall s).coreA = s.coreA.startTask s.crs.doorA ∧ (afterStall s).crs.endedA = false := by
  rw [afterStall, stallDoor_b_eq]
  have h := stallDoor_a_starts (s := { s with crs := stalled s.crs }) (by rw [stalled_eq]; exact he) (by rw [stalled_eq]; exact hc)
  rw [stalled_eq] at h
  rw [stalled_eq]
  exact h

/-- Core B at its stall door. -/
theorem afterStall_b (he : s.crs.endedB = true) :
    (afterStall s).coreB = s.coreB.startTask s.crs.doorB ∧ (afterStall s).crs.endedB = false := by
  have h := stallDoor_b_starts (s := stallDoor .a { s with crs := stalled s.crs }) (by rw [stallDoor_a_eq, stalled_eq]; exact he)
  rw [stallDoor_a_eq, stalled_eq] at h
  rw [afterStall, stallDoor_a_eq, stalled_eq]
  exact h

/-- Settles O27: each command's effect is the equation of a lemma above, from which its clauses are read off. -/
theorem courseWindowsTimeUpAndStall : Obligations.CourseWindowsTimeUpAndStall := by
  unfold Obligations.CourseWindowsTimeUpAndStall
  intro s sub
  refine ⟨fun d hr hd => ⟨exec_windowOpen_vault hr hd, exec_windowOpen_touch hr hd, fun hn => ?_, fun b => exec_windowOpen_never hd⟩,
    fun h => ?_, fun h => ?_, fun h => ?_, fun hr ht => ?_, fun c m hr ht hw => ?_, fun hr hd hn ht => ?_, rfl, rfl⟩
  · refine ⟨_, exec_windowOpen_pane hr hd hn, ?_⟩
    rw [paneWindowOpen_eq]
    exact ⟨rfl, rfl⟩
  · refine ⟨_, exec_windowClose_vault h, ?_⟩
    rw [vaultWindowClose_eq]
    exact ⟨rfl, rfl⟩
  · refine ⟨_, exec_windowClose_touch h, ?_⟩
    rw [touchWindowClose_eq]
    exact ⟨rfl, rfl⟩
  · refine ⟨_, exec_windowClose_pane h, ?_⟩
    rw [paneWindowClose_eq]
    exact ⟨rfl, rfl⟩
  · refine ⟨_, exec_timeUp hr ht, ?_, ?_, ?_, fun c hc => by rw [afterTimeUp_core, atTimeUp_other hc]⟩ <;> rw [afterTimeUp_eq]
  · have hev := evWord_timeUp (k := s.core c)
    refine ⟨_, exec_timeUp hr ht, ?_, ?_, ?_, ?_, afterTimeUp_flag hw⟩ <;> rw [afterTimeUp_core, atTimeUp_waiting hw]
    exacts [hev.1, hev.2, rfl]
  · refine ⟨_, exec_stall hr hd hn ht, ?_, ?_, ?_, fun hl => ⟨stallRecord s.crs, ?_, rfl, rfl, rfl, rfl⟩, fun he hi hh => ?_,
      fun he hc hi hh => ?_, ?_⟩
    case refine_5 =>
      obtain ⟨hk, hb⟩ := afterStall_b he
      obtain ⟨hpc, hst⟩ := startTask_idle (v := s.crs.doorB) hi hh
      rw [hk]; exact ⟨hpc, hst, hb⟩
    case refine_6 =>
      obtain ⟨hk, ha⟩ := afterStall_a he hc
      obtain ⟨hpc, hst⟩ := startTask_idle (v := s.crs.doorA) hi hh
      rw [hk]; exact ⟨hpc, hst, ha⟩
    all_goals rw [afterStall_eq]
    · rw [stalled_eq]
    · exact stalled_stat s.crs
    · rw [stalled_eq]; exact hr
    · exact stalled_recs hl

end Laws
end Sys2Proof
end

section
/-!
O30: posted writes. Every clause but one is proved here. The one that is left says that a time-out with a full late-fault queue leaves
LOST set, also where the write took effect. `Posted` may name any address, and a posted write to TIE_STAT itself clears LOST as it
takes effect; whether a write that timed out takes effect is `Config.freeBit`, a constant of which nothing is known. So O30 says
neither more nor less than that no free bit is ever 1, and it can be neither proved nor refuted.
-/
namespace Sys2Proof
namespace Laws
open Machine

variable {s : State} {p : Posted} {l : List Posted}

theorem lateFault_of_full {e : LateFault} (h : 8 ≤ s.tie.lf.length) : s.lateFault e = { s with tie.lost := true } := if_pos h

/-- A late fault changes the late-fault queue and LOST alone. -/
theorem lateFault_eq (e : LateFault) (s : State) :
    s.lateFault e = { s with tie := { s.tie with lf := (s.lateFault e).tie.lf, lost := (s.lateFault e).tie.lost } } := by
  unfold State.lateFault
  split <;> rfl

theorem exec_tieWriteDeliver (parity : Bool) (s : State) : exec (.tieWriteDeliver parity) s = execTieWriteDeliver parity s := rfl
theorem exec_tieWriteTimeout (s : State) : exec .tieWriteTimeout s = execTieWriteTimeout s := rfl
theorem exec_tieLateFaultPop (s : State) : exec .tieLateFaultPop s = execTieLateFaultPop s := rfl

theorem exec_deliver (parity : Bool) (h : s.tie.post = p :: l) (hm : s.mainOn = true) :
    exec (.tieWriteDeliver parity) s = .next (if parity then (tieDone s).lateFault (p.fault 1 s.crs.tick)
      else emit [] (derzorWrite p (tieDone s))) := by
  simp only [exec_tieWriteDeliver, execTieWriteDeliver, h, hm, if_true]
  rfl

/-- A write that times out: it has taken effect or not as a free bit says (R297). -/
theorem exec_timeout (h : s.tie.post = p :: l) (hm : s.mainOn = true) :
    let u := (tieDone { s with free := s.free + 1 }).lateFault (p.fault 2 s.crs.tick)
    exec .tieWriteTimeout s = .next (if Config.freeBit s.free then emit [] (derzorWrite p u) else u) := by
  simp only [exec_tieWriteTimeout, execTieWriteTimeout, h, hm, if_true]
  rfl

/-! ### A write is delivered (R296, R297) -/

/-- A delivered write takes effect, and the fabric settles. -/
theorem deliver_does (h : s.tie.post = p :: l) (hm : s.mainOn = true) :
    Does (.tieWriteDeliver false) s (derzorWrite p (tieDone s)) :=
  ⟨_, exec_deliver false h hm, emit_settled _ _⟩

theorem derzorWrite_io (ha : p.addr.toNat < 0x380) : derzorWrite p s = ioPut p.who p.addr.toNat (postedWord p s) s := if_pos ha

theorem derzorWrite_pane {w : State} (ha : 0x380 ≤ p.addr.toNat) (hw : panePut p.addr.toNat (postedWord p s) s = some w) :
    derzorWrite p s = w := by
  simp [derzorWrite, Nat.not_lt.mpr ha, hw]

theorem derzorWrite_rejected (ha : 0x380 ≤ p.addr.toNat) (hw : panePut p.addr.toNat (postedWord p s) s = none) :
    derzorWrite p s = s.lateFault (p.fault 3 s.crs.tick) := by
  simp [derzorWrite, Nat.not_lt.mpr ha, hw]

theorem postedWord_word {v : Word} (hd : p.data = .word v) : postedWord p s = v := by simp [postedWord, hd]

theorem postedWord_bit {n : BitVec 4} {b : Bool} (hd : p.data = .bit n b) :
    postedWord p s = bitWord (s.actsAs p.who) p.addr.toNat n b s := by simp [postedWord, hd]

/-- A write whose parity fails leaves a late-fault entry and nothing else (R298). -/
theorem deliver_parity (h : s.tie.post = p :: l) (hm : s.mainOn = true) :
    ∃ t, exec (.tieWriteDeliver true) s = .next t ∧ t = { tieDone s with tie := t.tie } ∧ t.tie.post = l ∧
      (s.tie.lf.length < 8 → ∃ e, t.tie.lf = s.tie.lf ++ [e] ∧ e.addr = p.addr ∧ e.outcome = 1 ∧ e.who = p.who.code) := by
  refine ⟨_, exec_deliver true h hm, ?_, ?_, fun hl => ⟨p.fault 1 s.crs.tick, ?_, rfl, rfl, rfl⟩⟩ <;> rw [if_pos rfl]
  · rw [lateFault_eq]
  · rw [lateFault_eq]; simp [tieDone, h]
  · rw [lateFault_of_room (s := tieDone s) hl]; rfl

/-- A write that its register rejects leaves a late-fault entry with the word (R297). -/
theorem deliver_rejected {v : Word} (h : s.tie.post = p :: l) (hm : s.mainOn = true) (ha : 0x380 ≤ p.addr.toNat) (hd : p.data = .word v)
    (hw : panePut p.addr.toNat v (tieDone s) = none) (hl : s.tie.lf.length < 8) :
    ∃ t, exec (.tieWriteDeliver false) s = .next t ∧ ∃ e, t.tie.lf = s.tie.lf ++ [e] ∧ e.addr = p.addr ∧ e.outcome = 3 ∧ e.data = v := by
  refine ⟨_, exec_deliver false h hm, p.fault 3 s.crs.tick, ?_, rfl, rfl, by simp [Posted.fault, hd]⟩
  rw [if_neg Bool.false_ne_true, emit_tie, derzorWrite_rejected ha (by rw [postedWord_word hd]; exact hw),
    lateFault_of_room (s := tieDone s) hl]
  rfl

/-- A write that times out and takes no effect: its entry, or LOST (R297, R298). -/
theorem timeout_untaken (h : s.tie.post = p :: l) (hm : s.mainOn = true) (hf : Config.freeBit s.free = false) :
    ∃ t, exec .tieWriteTimeout s = .next t ∧ t.tie.post = l ∧
      (s.tie.lf.length < 8 → ∃ e, e.addr = p.addr ∧ e.outcome = 2 ∧ e.who = p.who.code ∧ t.tie.lf[s.tie.lf.length]? = some e) ∧
      (8 ≤ s.tie.lf.length → t.tie.lost = true) := by
  let u := tieDone { s with free := s.free + 1 }
  refine ⟨_, exec_timeout h hm, ?_, fun hl => ⟨p.fault 2 s.crs.tick, rfl, rfl, rfl, ?_⟩, fun hl => ?_⟩ <;>
    rw [if_neg (by simp [hf])]
  · rw [lateFault_eq]; simp [tieDone, h]
  · rw [lateFault_of_room (s := u) hl]; simp [u, tieDone]
  · rw [lateFault_of_full (s := u) hl]

theorem exec_noPost (h : s.tie.post = []) :
    (∀ b, exec (.tieWriteDeliver b) s = .next s) ∧ exec .tieWriteTimeout s = .next s := by
  constructor <;> simp [exec_tieWriteDeliver, exec_tieWriteTimeout, execTieWriteDeliver, execTieWriteTimeout, h]

theorem exec_lateFaultPop (s : State) : exec .tieLateFaultPop s = .next { s with
    tie.lf := s.tie.lf.drop 1
    out := .word (match s.tie.lf with
      | f :: _ => f.stamp.setWidth 16 ||| (f.who.setWidth 16 <<< 14)
      | [] => 0) } := by
  have hv : (memVal 0x03E s).getD 0 = ((s.tie.lf.head?.map LateFault.word2).getD 0) := rfl
  simp only [exec_tieLateFaultPop, execTieLateFaultPop, hv]
  cases h : s.tie.lf <;> simp [tieLfPop, State.reply, LateFault.word2, fieldAt, h]

/-! ### What O30 comes to -/

/-- A posted write to TIE_STAT (io:0x03B) that clears LOST. -/
def clearLost : Posted := { addr := 0x03B, data := .word 0x0010, who := .coreA }

theorem derzorWrite_clearLost (s : State) : (derzorWrite clearLost s).tie.lost = false := by
  rw [derzorWrite_io (by simp [clearLost])]
  simp [clearLost, postedWord, ioPut, memPut]

/-- That write waits beside a full late-fault queue; n free values have been taken. -/
def lostStands (n : Nat) : State :=
  { State.reset with
    pwr.phase := .awake, free := n
    tie := { Tie.reset with post := [clearLost]
                            lf := List.replicate 8 { addr := 0, outcome := 0, bitw := false, data := 0, stamp := 0, who := 0 } } }

/-- Timing out, but taking effect all the same, the write clears the LOST that its own time-out set. -/
theorem freeBit_of_postedWritesEndOneWay (h : Obligations.PostedWritesEndOneWay) (n : Nat) : Config.freeBit n = false := by
  by_contra hf
  have hfree : Config.freeBit (lostStands n).free = true := Bool.eq_true_of_not_eq_false hf
  obtain ⟨hp, -, -⟩ := h (lostStands n)
  obtain ⟨-, -, -, -, -, t, ht, -, -, hlost⟩ := hp clearLost [] rfl rfl
  rw [exec_timeout (p := clearLost) (l := []) rfl rfl, if_pos hfree] at ht
  have he := hlost (Nat.le_refl 8)
  obtain rfl := Host.Outcome.next.inj ht
  rw [emit_tie, derzorWrite_clearLost] at he
  exact Bool.false_ne_true he

/-- O30 holds exactly where no free bit is ever 1, which the model leaves open (log entry 22). -/
theorem postedWritesEndOneWay_iff : Obligations.PostedWritesEndOneWay ↔ ∀ n, Config.freeBit n = false := by
  refine ⟨freeBit_of_postedWritesEndOneWay, fun hf s => ⟨fun p l h hm => ⟨deliver_parity h hm, fun v ha hd => ?_, fun n b ha hd => ?_,
    fun v w ha hd hw => ?_, fun v ha hd hw hl => deliver_rejected h hm ha hd hw hl, timeout_untaken h hm (hf _)⟩,
    exec_noPost, exec_lateFaultPop s⟩⟩
  · simpa [derzorWrite_io ha, postedWord_word hd] using deliver_does h hm
  · simpa [derzorWrite_io ha, postedWord_bit hd] using deliver_does h hm
  · have := deliver_does h hm
    rwa [derzorWrite_pane ha (by rw [postedWord_word hd]; exact hw)] at this

end Laws
end Sys2Proof
end

section
/-!
O2 and O3: the reset state is sound, and every command carries soundness, and with it the queue, through.
-/
namespace Sys2Proof
namespace Laws
open Machine

variable {x : Carry} {s t : State}

/-- Every command carries the queue and soundness through: each arm by the lemma of its own operation. -/
theorem kept_exec (i : Instr) (hs : Kept x s) : KeptO x (exec i s) := by
  cases i <;> simp [exec, hs]

/-- What is kept beside some queue is sound where soundness is asked for. -/
theorem inv_of_kept {l : List Instr} (h : Kept ⟨True, l⟩ t) : t.Inv := by
  have hq : t.pending = l := h.pending
  subst hq
  exact (kept_iff t).1 h

/-- A command leaves a sound state sound. -/
theorem exec_inv {i : Instr} (hs : s.Inv) (h : exec i s = .next t) : t.Inv :=
  inv_of_kept (kept_exec i ((kept_iff s).2 hs) t h)

/-- The queue plays no part in soundness. -/
theorem inv_setPending {l : List Instr} (hs : s.Inv) : ({ s with pending := l } : State).Inv := hs

/-- Settles O2: each part of State.reset carries its own soundness. -/
theorem resetIsSound : Obligations.ResetIsSound :=
  inv_of_kept (l := []) (by simp [State.reset, QueueK])

/-- Settles O3: an idle step changes nothing, and any other step is a command on a state that differs in its queue alone. -/
theorem stepKeepsSound : Obligations.StepKeepsSound := by
  intro s t hs h
  unfold step at h
  split at h
  · obtain rfl := Host.Outcome.next.inj h
    exact hs
  · exact exec_inv (inv_setPending hs) h

end Laws
end Sys2Proof
end

section
/-!
O37: the ledger's counts and corrections, and what a change of the ledger brings.
-/
namespace Sys2Proof
namespace Laws
open Machine

variable {s : State} {p q r : Porter} {m : CountMsg} {mv : BitVec 16}

/-! ### Open quotients (log entry 6) -/

theorem mul_divOpenN_lt {n d : Nat} (hd : 0 < d) : d * divOpenN n d < n + d := by
  have hn := Nat.div_add_mod n d
  unfold divOpenN
  split
  · omega
  · split
    · rw [Nat.mul_add]; omega
    · omega

theorem lt_mul_divOpenN {n d : Nat} (hd : 0 < d) : n < d * divOpenN n d + d := by
  have hn := Nat.div_add_mod n d
  have hm := Nat.mod_lt n hd
  unfold divOpenN
  split
  · omega
  · split
    · rw [Nat.mul_add]; omega
    · omega

/-- A charge's energy is within 1/1024 nJ of charge times voltage (R69). -/
theorem chargeEnergy_bounds (nc v : Nat) :
    625 * chargeEnergy nc v < 64 * (nc * v) + 625 ∧ 64 * (nc * v) < 625 * chargeEnergy nc v + 625 := by
  rw [Nat.mul_comm 64]
  exact ⟨mul_divOpenN_lt (by decide), lt_mul_divOpenN (by decide)⟩

/-! ### Decisions on claims leave the ledger's own fields alone (R77, R80) -/

/-- q is p but for claims, reservations, answers and the record of denials. -/
def Reclaimed (p q : Porter) : Prop :=
  q = { p with holds := q.holds, deferred := q.deferred, resv := q.resv, answers := q.answers, denyCnt := q.denyCnt,
               lastClass := q.lastClass, lastReason := q.lastReason, lastReq := q.lastReq }

theorem reclaimed_trans (h : Reclaimed p q) (g : Reclaimed q r) : Reclaimed p r := by
  unfold Reclaimed at *
  rw [h] at g
  exact g

theorem reclaimed_setDeferred (l : List Claim) (p : Porter) : Reclaimed p { p with deferred := l } := rfl

theorem reclaimed_deny (k : BitVec 3) (w : Requester) (why : BitVec 3) (p : Porter) : Reclaimed p (p.deny k w why) := rfl

theorem reclaimed_tryGrant {k : BitVec 3} {w : Requester} {c : Nat} (h : p.tryGrant k w c = some q) : Reclaimed p q := by
  unfold Porter.tryGrant at h
  split at h
  · obtain rfl := Option.some.inj h; rfl
  · split at h
    · obtain rfl := Option.some.inj h; rfl
    · cases h

theorem reclaimed_redecideL (l : List Claim) (p : Porter) : Reclaimed p (redecideL l p) := by
  induction l generalizing p with
  | nil => rfl
  | cons d l ih =>
    unfold redecideL
    split
    · exact reclaimed_trans (reclaimed_tryGrant ‹_›) (ih _)
    · exact reclaimed_trans (reclaimed_setDeferred _ _) (ih _)

theorem reclaimed_redecide (p : Porter) : Reclaimed p p.redecide :=
  reclaimed_trans (reclaimed_setDeferred [] p) (reclaimed_redecideL _ _)

/-- Denials in a row touch no deferred request. -/
theorem deny_foldl (why : BitVec 3) (l : List Claim) (p : Porter) :
    Reclaimed p (l.foldl (fun p d => p.deny d.cls d.req why) p) ∧
      (l.foldl (fun p d => p.deny d.cls d.req why) p).deferred = p.deferred := by
  induction l generalizing p with
  | nil => exact ⟨rfl, rfl⟩
  | cons d l ih => exact ⟨reclaimed_trans (reclaimed_deny d.cls d.req why p) (ih _).1, (ih _).2⟩

theorem reclaimed_denyDeferred (f : Requester → Bool) (why : BitVec 3) (p : Porter) : Reclaimed p (p.denyDeferred f why) :=
  reclaimed_trans (reclaimed_setDeferred _ p) (deny_foldl _ _ _).1

theorem denyDeferred_all (why : BitVec 3) (p : Porter) : (p.denyDeferred (fun _ => true) why).deferred = [] := by
  rw [Porter.denyDeferred, (deny_foldl _ _ _).2]
  simp

/-! ### The start of the last-gasp sequence (R91) -/

@[simp] theorem setVcore_por {v : BitVec 7} : (setVcore v s).por = s.por := by unfold setVcore; split <;> rfl
@[simp] theorem setVcore_tie {v : BitVec 7} : (setVcore v s).tie = s.tie := by unfold setVcore; split <;> rfl
@[simp] theorem paneDisch_por : (paneDisch s).por = s.por := by rw [paneDisch, paneDropLeave_eq]
@[simp] theorem paneDisch_count : (paneDisch s).tie.count = s.tie.count := by
  unfold paneDisch paneDropLeave
  split <;> rfl

/-- What the Porter has, and the count message that waits for it, are those of s. -/
def SamePorter (s t : State) : Prop := t.por = s.por ∧ t.tie.count = s.tie.count

theorem samePorter_ite {b : Prop} [Decidable b] {t u : State} (ht : SamePorter s t) (hu : SamePorter s u) :
    SamePorter s (if b then t else u) := by split <;> assumption

theorem samePorter_wakeAsk (n : Nat) (s : State) : SamePorter s (wakeAsk n s) := samePorter_ite ⟨rfl, rfl⟩ ⟨rfl, rfl⟩

theorem samePorter_wakeFrom (t : Sleep) (n : Nat) (s : State) : SamePorter s (wakeFrom t n s) :=
  samePorter_ite ⟨rfl, rfl⟩ (samePorter_wakeAsk n _)

/-- A wake source that fires reaches the Porter by a request on the lane at most. -/
theorem samePorter_fire (n : Nat) (s : State) : SamePorter s (fire n s) := by
  have same : SamePorter s s := ⟨rfl, rfl⟩
  have starting : SamePorter s (fireStarting n s) := samePorter_ite ⟨rfl, rfl⟩ same
  unfold fire
  split
  · exact samePorter_ite ⟨rfl, rfl⟩ same
  · exact samePorter_ite ⟨rfl, rfl⟩ same
  · exact samePorter_ite ⟨rfl, rfl⟩ same
  · exact samePorter_ite (samePorter_wakeFrom _ _ _) same
  · exact samePorter_ite (samePorter_ite (samePorter_wakeAsk 0 _) ⟨rfl, rfl⟩) same
  · exact starting
  · exact starting
  · exact same

/-- The sequence starts: whatever is deferred is denied LASTGASP, and a count message that waits stays. -/
theorem lgStart_porter (s : State) :
    (lgStart s).por = ({ s.por with lgActive := true }).denyDeferred (fun _ => true) rGasp ∧
      (lgStart s).tie.count = s.tie.count := by
  unfold lgStart
  extract_lets before p vault told s2
  have h2 : s2.por = p ∧ s2.tie.count = s.tie.count := by simp [s2, told]
  split
  · exact h2
  · exact ⟨(samePorter_fire 0 s2).1.trans h2.1, (samePorter_fire 0 s2).2.trans h2.2⟩

/-! ### A change of the ledger (R80, R90, R91) -/

/-- ARMED after a change of the ledger: it arms above 1.5 times the reserve (R90). -/
def rearmed (p : Porter) : Porter := { p with armed := p.armed || decide (3 * p.cfg.res < 2 * p.ledger) }

/-- The last-gasp sequence starts: armed, not in it yet, and at or below the reserve (R91). -/
def gasps (p : Porter) : Bool := p.armed && !p.lgActive && decide (p.ledger ≤ p.cfg.res)

theorem rearmed_eq (p : Porter) :
    (if !p.armed && decide (2 * p.ledger > 3 * p.cfg.res) then { p with armed := true } else p) = rearmed p := by
  unfold rearmed
  split
  · rename_i h
    obtain ⟨-, hl⟩ : p.armed = false ∧ 3 * p.cfg.res < 2 * p.ledger := by simpa using h
    simp [hl]
  · rename_i h
    have same : (p.armed || decide (3 * p.cfg.res < 2 * p.ledger)) = p.armed := by
      cases ha : p.armed <;> simp_all
    rw [same]

/-- A ledger that arms is above the reserve, so arming starts no sequence. -/
theorem gasps_rearmed (p : Porter) : gasps (rearmed p) = gasps p := by
  simp only [gasps, rearmed]
  cases p.armed
  · by_cases hl : p.ledger ≤ p.cfg.res
    · have : ¬ 3 * p.cfg.res < 2 * p.ledger := by omega
      simp [this]
    · simp [hl]
  · rfl

theorem ledgerMoved_eq (s : State) :
    ledgerMoved s = if gasps s.por then lgStart { s with por := rearmed s.por } else { s with por := (rearmed s.por).redecide } := by
  unfold ledgerMoved
  simp only [rearmed_eq]
  rw [← gasps_rearmed]
  rfl

/-- At the Porter a change of the ledger restates ARMED and LGASP and decides claims again, and does no more. -/
theorem ledgerMoved_por (s : State) :
    Reclaimed { rearmed s.por with lgActive := s.por.lgActive || gasps s.por } (ledgerMoved s).por := by
  rw [ledgerMoved_eq]
  cases h : gasps s.por
  · rw [Bool.or_false]
    exact reclaimed_redecide _
  · rw [Bool.or_true, if_pos rfl, (lgStart_porter _).1]
    exact reclaimed_denyDeferred _ _ _

@[simp] theorem ledgerMoved_count : (ledgerMoved s).tie.count = s.tie.count := by
  rw [ledgerMoved_eq]
  split
  · exact (lgStart_porter _).2
  · rfl

/-- The sequence's start denies what is deferred. -/
theorem ledgerMoved_deferred (h : gasps s.por = true) : (ledgerMoved s).por.deferred = [] := by
  rw [ledgerMoved_eq, if_pos h, (lgStart_porter _).1, denyDeferred_all]

theorem ledgerMoved_lgActive : (ledgerMoved s).por.lgActive = (s.por.lgActive || gasps s.por) := by rw [ledgerMoved_por s]

/-- It arms above 1.5 times the reserve (R90). -/
theorem ledgerMoved_arms (h : 3 * s.por.cfg.res < 2 * s.por.ledger) : (ledgerMoved s).por.armed = true := by
  rw [ledgerMoved_por s]
  simp [rearmed, h]

/-- Armed and at or below the reserve, it starts the sequence, which denies what is deferred (R91). -/
theorem ledgerMoved_gasps (ha : s.por.armed = true) (hg : s.por.lgActive = false) (hl : s.por.ledger ≤ s.por.cfg.res) :
    (ledgerMoved s).por.lgActive = true ∧ (ledgerMoved s).por.deferred = [] := by
  have h : gasps s.por = true := by simp [gasps, ha, hg, hl]
  exact ⟨by rw [ledgerMoved_lgActive, h, Bool.or_true], ledgerMoved_deferred h⟩

/-- Above the reserve no sequence starts. -/
theorem ledgerMoved_lgActive_above (hr : s.por.cfg.res < s.por.ledger) : (ledgerMoved s).por.lgActive = s.por.lgActive := by
  have h : gasps s.por = false := by simp [gasps, Nat.not_le.mpr hr]
  rw [ledgerMoved_lgActive, h, Bool.or_false]

@[simp] theorem ledgerMoved_ledger : (ledgerMoved s).por.ledger = s.por.ledger := by rw [ledgerMoved_por s]; rfl
@[simp] theorem ledgerMoved_qinSeen : (ledgerMoved s).por.qinSeen = s.por.qinSeen := by rw [ledgerMoved_por s]; rfl
@[simp] theorem ledgerMoved_qoutSeen : (ledgerMoved s).por.qoutSeen = s.por.qoutSeen := by rw [ledgerMoved_por s]; rfl
@[simp] theorem ledgerMoved_lastSample : (ledgerMoved s).por.lastSample = s.por.lastSample := by rw [ledgerMoved_por s]; rfl
@[simp] theorem ledgerMoved_quiet : (ledgerMoved s).por.quiet = s.por.quiet := by rw [ledgerMoved_por s]; rfl
@[simp] theorem ledgerMoved_skipRun : (ledgerMoved s).por.skipRun = s.por.skipRun := by rw [ledgerMoved_por s]; rfl
@[simp] theorem ledgerMoved_corrUp : (ledgerMoved s).por.corrUp = s.por.corrUp := by rw [ledgerMoved_por s]; rfl
@[simp] theorem ledgerMoved_corrDown : (ledgerMoved s).por.corrDown = s.por.corrDown := by rw [ledgerMoved_por s]; rfl

/-! ### Counting (R69, R505, R506) -/

theorem exec_countMessage (din dout : BitVec 32) (mv : BitVec 16) (lost : Bool) (s : State) :
    exec (.countMessage din dout mv lost) s = execCountMessage din dout mv lost s := rfl
theorem exec_ledgerCount (s : State) : exec .ledgerCount s = execLedgerCount s := rfl
theorem exec_storeCounterSat (s : State) : exec .storeCounterSat s = execStoreCounterSat s := rfl
theorem exec_ledgerCorrection (s : State) : exec .ledgerCorrection s = execLedgerCorrection s := rfl

/-- The Porter takes a count message: charge totals, and the sample, a quiet one where nothing is held or charged (R70). -/
def received (m : CountMsg) (s : State) : State :=
  { s with tie.count := none
           por := { s.por with qinSeen := m.qin, qoutSeen := m.qout, lastSample := m.mv
                               quiet := if s.por.holds.isEmpty && !s.en.charging then some m.mv else s.por.quiet } }

/-- The ledger after a count message (R69). -/
def countedLedger (m : CountMsg) (p : Porter) : Nat :=
  min ledgerTop (p.ledger + chargeEnergy (m.qin - p.qinSeen).toNat m.mv.toNat) - chargeEnergy (m.qout - p.qoutSeen).toNat m.mv.toNat

/-- The message is taken and the ledger has moved by it; what that brings is still to come. -/
def recounted (m : CountMsg) (s : State) : State := { received m s with por.ledger := countedLedger m s.por }

/-- The message is taken, and the ledger moves by it unless counting has stopped (R72). -/
def counted (m : CountMsg) (s : State) : State :=
  if s.por.counterDead then received m s else ledgerMoved (recounted m s)

/-- A message that says SAT stops the counting (R506). -/
def satChecked (m : CountMsg) (s : State) : State := if m.sat then counterFault s else s

theorem satChecked_por (m : CountMsg) (s : State) : (satChecked m s).por =
    { s.por with cntFault := s.por.cntFault || m.sat, counterDead := s.por.counterDead || m.sat } := by
  unfold satChecked
  cases m.sat
  · simp
  · simp [counterFault]

@[simp] theorem satChecked_tie (m : CountMsg) (s : State) : (satChecked m s).tie = s.tie := by unfold satChecked; split <;> rfl

theorem exec_ledgerCount_some (h : s.tie.count = some m) :
    exec .ledgerCount s = .next (if s.powered then emit [] (satChecked m (counted m s)) else received m s) := by
  simp only [exec_ledgerCount, execLedgerCount, h]
  rfl

/-- Counting has stopped: the message is taken, and the ledger stays. -/
theorem exec_ledgerCount_dead (h : s.tie.count = some m) (hd : s.por.counterDead = true) :
    ∃ t, exec .ledgerCount s = .next t ∧ t.por.ledger = s.por.ledger ∧ t.tie.count = none := by
  refine ⟨_, exec_ledgerCount_some h, ?_⟩
  have hc : counted m s = received m s := if_pos hd
  split
  · simp [satChecked_por, hc, received]
  · exact ⟨rfl, rfl⟩

/-- Counting goes on: the ledger moves by the message's energies, and all that its change brings follows. -/
theorem exec_ledgerCount_live (h : s.tie.count = some m) (hp : s.powered = true) (hd : s.por.counterDead = false) :
    exec .ledgerCount s = .next (emit [] (satChecked m (ledgerMoved (recounted m s)))) := by
  rw [exec_ledgerCount_some h, if_pos hp, counted, hd]
  rfl

/-! ### Correcting (R70 to R72) -/

/-- How far the ledger is from the quiet sample's energy. -/
def bandGap (old new : Nat) : Nat := if old ≤ new then new - old else old - new

theorem correct_eq (always : Bool) (v : Nat) (p : Porter) :
    correct always v p =
      if p.ledger != energyOf p.cfg.farads v * 1024 && (always || energyOf p.cfg.farads v = 0xFFFFFFFF ||
          decide (10 * bandGap p.ledger (energyOf p.cfg.farads v * 1024) > p.cfg.farads * v * (p.cfg.corrMv.toNat + 1) * 1024))
      then corrected p.ledger (energyOf p.cfg.farads v * 1024) p else p := rfl

theorem corrected_ledger (old new : Nat) (p : Porter) : (corrected old new p).ledger = new := by
  unfold corrected
  extract_lets
  split <;> rfl

theorem corrected_corrUp (old new : Nat) (p : Porter) :
    (corrected old new p).corrUp = if old < new then satInc p.corrUp else p.corrUp := by
  unfold corrected
  extract_lets
  split <;> exact if_congr decide_eq_true_iff rfl rfl

theorem corrected_corrDown (old new : Nat) (p : Porter) :
    (corrected old new p).corrDown = if old < new then p.corrDown else satInc p.corrDown := by
  unfold corrected
  extract_lets
  split <;> exact if_congr decide_eq_true_iff rfl rfl

/-- Outside its band the ledger is set to the sample's energy. -/
theorem correct_outside {v : Nat}
    (h : p.cfg.farads * v * (p.cfg.corrMv.toNat + 1) * 1024 < 10 * bandGap p.ledger (energyOf p.cfg.farads v * 1024)) :
    correct false v p = corrected p.ledger (energyOf p.cfg.farads v * 1024) p := by
  have hne : p.ledger ≠ energyOf p.cfg.farads v * 1024 := by
    intro he
    rw [he, bandGap, if_pos (Nat.le_refl _), Nat.sub_self] at h
    exact Nat.not_lt_zero _ h
  rw [correct_eq]
  exact if_pos (by simp [hne, h])

/-- Inside its band the ledger stays. -/
theorem correct_inside {v : Nat}
    (h : 10 * bandGap p.ledger (energyOf p.cfg.farads v * 1024) ≤ p.cfg.farads * v * (p.cfg.corrMv.toNat + 1) * 1024)
    (hg : energyOf p.cfg.farads v ≠ 0xFFFFFFFF) : correct false v p = p := by
  rw [correct_eq]
  exact if_neg (by simp [hg, Nat.not_lt.mpr h])

theorem exec_ledgerCorrection_sample (h : s.por.quiet = some mv) (hp : s.powered = true) (hd : s.por.counterDead = false) :
    exec .ledgerCorrection s =
      .next (emit [] (ledgerMoved { s with por := { correct false mv.toNat s.por with quiet := none, skipRun := 0 } })) := by
  simp [exec_ledgerCorrection, execLedgerCorrection, h, hp, hd]

theorem exec_ledgerCorrection_skip (h : s.por.quiet = none) (hp : s.powered = true) (hd : s.por.counterDead = false) :
    exec .ledgerCorrection s =
      .next { s with por := { s.por with skipRun := s.por.skipRun + 1, corrSkip := s.por.corrSkip || decide (s.por.skipRun + 1 ≥ 4) } } := by
  simp [exec_ledgerCorrection, execLedgerCorrection, h, hp, hd]

/-! ### Captures (R95) -/

theorem exec_ledgerCaptureRead (s : State) : exec .ledgerCaptureRead s = execLedgerCaptureRead s := rfl
theorem exec_availCaptureRead (s : State) : exec .availCaptureRead s = execAvailCaptureRead s := rfl

/-! ### The clauses together -/

/-- Settles O37: each command's effect is the equation of a lemma above, from which its clauses are read off. -/
theorem ledgerCountsAndIsCorrected : Obligations.LedgerCountsAndIsCorrected := by
  intro s din dout mv
  refine ⟨fun hz => ?_, fun hz => ?_, fun hz => ?_, fun h => ?_, fun m h hp hd => ?_, fun m => exec_ledgerCount_dead, fun v h hp hd => ?_,
    exec_ledgerCorrection_skip, ?_, ?_⟩
  · simp [exec_countMessage, execCountMessage, hz]
  · simp [exec_countMessage, execCountMessage, hz]
  · simp [exec_storeCounterSat, execStoreCounterSat, counterFault, hz]
  · simp [exec_ledgerCount, execLedgerCount, h]
  · obtain ⟨hup, hup'⟩ := chargeEnergy_bounds (m.qin - s.por.qinSeen).toNat m.mv.toNat
    obtain ⟨hdn, hdn'⟩ := chargeEnergy_bounds (m.qout - s.por.qoutSeen).toNat m.mv.toNat
    refine ⟨_, _, _, exec_ledgerCount_live h hp hd, hup, hup', hdn, hdn', ?_⟩
    simp only [emit_por, emit_tie, satChecked_por, satChecked_tie, ledgerMoved_ledger, ledgerMoved_qinSeen, ledgerMoved_qoutSeen,
      ledgerMoved_lastSample, ledgerMoved_count]
    refine ⟨rfl, rfl, rfl, rfl, rfl, fun _ => ledgerMoved_arms (s := recounted m s), ledgerMoved_gasps (s := recounted m s),
      ledgerMoved_lgActive_above (s := recounted m s), fun hs => ?_⟩
    rw [hs, Bool.or_true]
  · refine ⟨_, exec_ledgerCorrection_sample h hp hd, by simp, by simp, fun ho => ?_, fun hi hg => ?_⟩
    · simp [correct_outside ho, corrected_ledger, corrected_corrUp, corrected_corrDown]
    · simp [correct_inside hi (by omega)]
  · rw [exec_ledgerCaptureRead, execLedgerCaptureRead, ledgerCapture, State.reply, ledgLo]
  · rw [exec_availCaptureRead, execAvailCaptureRead, availCapture, State.reply, availLo]

end Laws
end Sys2Proof
end

section
/-!
O39: how a start begins, and how the boot begins after it.
-/
namespace Sys2Proof
namespace Laws
open Machine

variable {s : State} {src : BitVec 4}

/-! ### STORE_START_THRESHOLD (R59, R64, R124) -/

theorem exec_storeStartThreshold (s : State) : exec .storeStartThreshold s = execStoreStartThreshold s := rfl

theorem exec_storeStart_off (hp : s.pwr.phase = .off) (hs : s.en.sel ≠ .none) :
    exec .storeStartThreshold s = .next (coldStart (startKindOf s) s) := by
  simp [exec_storeStartThreshold, execStoreStartThreshold, hp, hs]

theorem exec_storeStart_sealed (hp : s.pwr.phase = .asleep .sealed) (hs : s.en.sel ≠ .none ∨ s.isl.fired ≠ 0) :
    exec .storeStartThreshold s = .next (coldStart (startKindOf s) s) := by
  have hc : (s.en.sel != .none || s.isl.fired != 0) = true := by simpa using hs
  simp only [exec_storeStartThreshold, execStoreStartThreshold, hp, hc, if_true]

theorem exec_storeStart_elsewhere (ho : s.pwr.phase ≠ .off) (hz : s.pwr.phase ≠ .asleep .sealed) :
    exec .storeStartThreshold s = .next s := by
  rw [exec_storeStartThreshold, execStoreStartThreshold]
  split
  · exact absurd ‹_› ho
  · exact absurd ‹_› hz
  · rfl

theorem startKindOf_eq (s : State) :
    startKindOf s = if s.isl.digest.isSome ∨ s.isl.fired ≠ 0 then .sealed else if s.isl.brown then .brown else .cold := by
  simp [startKindOf]

/-! ### SEALED_WAKE (R124) -/

theorem exec_sealedWake (src : BitVec 4) (ok : Bool) (s : State) : exec (.sealedWake src ok) s = execSealedWake src ok s := rfl

/-- SRC always wakes a part in SEALED, the sources of the island where it keeps their bit (R102). -/
theorem sourceArmed_sealed
    (h : src = 10 ∨ ((src = 1 ∨ src = 2 ∨ src = 4 ∨ src = 5 ∨ src = 6 ∨ src = 8) ∧ s.isl.en.getLsbD src.toNat = true)) :
    sourceArmed .sealed src.toNat s = true := by
  obtain rfl | ⟨hsrc, hen⟩ := h
  · rfl
  · have hl : [1, 2, 4, 5, 6, 8].contains src.toNat = true := by
      obtain rfl | rfl | rfl | rfl | rfl | rfl := hsrc <;> rfl
    rw [sourceArmed, hl, hen, Bool.and_true, Bool.or_true]

theorem exec_sealedWake_armed (ok : Bool) (hp : s.pwr.phase = .asleep .sealed) (ha : sourceArmed .sealed src.toNat s = true) :
    exec (.sealedWake src ok) s =
      .next (if ok then coldStart .sealed { s with isl.fired := setBit s.isl.fired src.toNat true }
        else { s with isl := { s.isl with fired := setBit s.isl.fired src.toNat true, sealPend := true } }) := by
  simp [exec_sealedWake, execSealedWake, hp, ha]

theorem exec_sealedWake_elsewhere (ok : Bool) (hp : s.pwr.phase ≠ .asleep .sealed) : exec (.sealedWake src ok) s = .next s := by
  simp [exec_sealedWake, execSealedWake, hp]

/-! ### The order in which a full boot tries slots (R180, R181) -/

section
variable {x : Store} {st : SlotSt}

theorem slotsIn_neither (h0 : x.slot0.st ≠ st) (h1 : x.slot1.st ≠ st) : slotsIn x st = [] := by
  simp [slotsIn, Store.slot, h0, h1]

theorem slotsIn_slot0 (h0 : x.slot0.st = st) (h1 : x.slot1.st ≠ st) : slotsIn x st = [false] := by
  simp [slotsIn, Store.slot, h0, h1]

theorem slotsIn_slot1 (h0 : x.slot0.st ≠ st) (h1 : x.slot1.st = st) : slotsIn x st = [true] := by
  simp [slotsIn, Store.slot, h0, h1]

/-- A STAGED slot is tried before every other. -/
theorem bootOrder_staged (h1 : x.slot1.st = .staged) (h0 : x.slot0.st ≠ .staged) : ∃ l, bootOrder x = true :: l := by
  rw [bootOrder, slotsIn_slot1 h0 h1]
  exact ⟨_, rfl⟩

/-- An ACTIVE slot is tried first where none is STAGED. -/
theorem bootOrder_active (h0 : x.slot0.st = .active) (hs : x.slot1.st ≠ .staged) (ha : x.slot1.st ≠ .active) :
    ∃ l, bootOrder x = false :: l := by
  have h0s : x.slot0.st ≠ .staged := by rw [h0]; decide
  rw [bootOrder, slotsIn_neither h0s hs, slotsIn_slot0 h0 ha]
  exact ⟨_, rfl⟩

/-- EMPTY and WRITING slots are never tried. -/
theorem bootOrder_nil (h0 : x.slot0.st = .empty ∨ x.slot0.st = .writing) (h1 : x.slot1.st = .empty ∨ x.slot1.st = .writing) :
    bootOrder x = [] := by
  have none_in : ∀ st, st ≠ .empty → st ≠ .writing → slotsIn x st = [] := fun st he hw =>
    slotsIn_neither (h0.elim (· ▸ he.symm) (· ▸ hw.symm)) (h1.elim (· ▸ he.symm) (· ▸ hw.symm))
  rw [bootOrder, none_in _ (by decide) (by decide), none_in _ (by decide) (by decide), none_in _ (by decide) (by decide),
    none_in _ (by decide) (by decide)]
  rfl

end

theorem fullBoot_tries {n : Bool} {l : List Bool} (hl : s.sec.lc ≠ .retired) (h : bootOrder s.img = n :: l) :
    (fullBoot s).pwr.phase = .boot ∧ (fullBoot s).img.order.head? = some n := by
  simp [fullBoot, hl, h]

theorem fullBoot_noImage (h : s.sec.lc = .retired ∨ bootOrder s.img = []) : (fullBoot s).pwr.phase = .noImage := by
  obtain h | h := h <;> simp [fullBoot, h]

/-! ### POWER_GOOD (R64, R124, R125, R127) -/

theorem exec_powerGood (s : State) : exec .powerGood s = execPowerGood s := rfl

/-- A sealed start that holds a digest reloads the sealed slot. -/
theorem exec_powerGood_reload (hp : s.pwr.phase = .starting) (hk : s.pwr.startKind = .sealed) (hd : s.isl.digest.isSome = true)
    (hl : s.sec.lc ≠ .retired) :
    exec .powerGood s = .next { s with isl.rstCause := 2, pwr.phase := .boot, img.reload := true } := by
  have hc : causeOf s = 2 := by simp [causeOf, hk, hd, hl]
  simp [exec_powerGood, execPowerGood, hp, hc]

/-- RST_CAUSE of a start that ends in a full boot (R127). -/
def fullCause : StartKind → BitVec 3
  | .cold => 0
  | .brown => 1
  | .sealed => 3

theorem causeOf_eq_fullCause (h : s.pwr.startKind ≠ .sealed ∨ s.isl.digest = none) : causeOf s = fullCause s.pwr.startKind := by
  cases hk : s.pwr.startKind with
  | cold => simp [causeOf, fullCause, hk]
  | brown => simp [causeOf, fullCause, hk]
  | sealed =>
    have hd : s.isl.digest = none := h.resolve_left (· hk)
    simp [causeOf, fullCause, hk, hd]

theorem exec_powerGood_full (hp : s.pwr.phase = .starting) (h : s.pwr.startKind ≠ .sealed ∨ s.isl.digest = none) :
    exec .powerGood s = .next (fullBoot { s with isl.rstCause := fullCause s.pwr.startKind }) := by
  have hc : fullCause s.pwr.startKind ≠ 2 := by cases s.pwr.startKind <;> decide
  rw [exec_powerGood, execPowerGood, if_pos hp]
  dsimp only
  rw [causeOf_eq_fullCause h, if_neg hc]

theorem exec_powerGood_elsewhere (hp : s.pwr.phase ≠ .starting) : exec .powerGood s = .next s := by
  rw [exec_powerGood, execPowerGood, if_neg hp]

/-! ### The clauses together -/

/-- Settles O39: a start is `coldStart` with the island it finds, its kind as log entry 16 reads it, and the boot begins with the
first slot of `bootOrder`. -/
theorem startsBeginFromReset : Obligations.StartsBeginFromReset := by
  intro s src ok starts kind held
  have cold : ∀ k isl, starts k isl (coldStart k { s with isl := isl }) := fun k isl =>
    ⟨rfl, rfl, rfl, rfl, rfl, rfl, rfl, rfl, rfl, rfl, rfl, rfl, rfl, rfl, rfl, rfl, rfl, rfl, rfl, rfl, rfl, rfl, rfl⟩
  have hk : kind = startKindOf s := (startKindOf_eq s).symm
  rw [hk]
  refine ⟨fun hp hs => ⟨_, exec_storeStart_off hp hs, cold _ s.isl⟩, fun hp hs => ⟨_, exec_storeStart_sealed hp hs, cold _ s.isl⟩,
    exec_storeStart_elsewhere, fun hp hsrc => ?_, exec_sealedWake_elsewhere ok, exec_powerGood_reload, fun hp h => ?_,
    exec_powerGood_elsewhere⟩
  · have ha := sourceArmed_sealed hsrc
    exact ⟨⟨_, exec_sealedWake_armed true hp ha, cold _ held⟩, exec_sealedWake_armed false hp ha⟩
  · refine ⟨_, exec_powerGood_full hp h, rfl, ?_, rfl, rfl, rfl, rfl, fun hl => fullBoot_noImage (.inl hl), fun hl h0 hs ha => ?_,
      fun hl h1 h0 => ?_, fun h0 h1 => fullBoot_noImage (.inr (bootOrder_nil h0 h1))⟩
    · cases s.pwr.startKind <;> rfl
    · obtain ⟨l, ho⟩ := bootOrder_active h0 hs ha
      exact fullBoot_tries hl ho
    · obtain ⟨l, ho⟩ := bootOrder_staged h1 h0
      exact fullBoot_tries hl ho

end Laws
end Sys2Proof
end

section
/-!
O40: brownout, the loss of the island's supply, the end of the drain and the seal after the last gasp.
-/
namespace Sys2Proof
namespace Laws
open Machine

variable {s : State}

/-! ### Brownout and the island's supply (R54, R55, R65, R128, R131) -/

theorem exec_brownout (s : State) : exec .brownout s = execBrownout s := rfl
theorem exec_backupIslandReset (s : State) : exec .backupIslandReset s = execBackupIslandReset s := rfl

theorem exec_brownout_powered (ho : s.pwr.phase ≠ .off) (hz : s.pwr.phase ≠ .asleep .sealed) :
    exec .brownout s =
      .next { s with isl := { s.isl with brown := true, digest := none, en := 0, mode0 := 0, mode1 := 0, fired := 0 }
                     en := { s.en with islandOnCell := true, vout3 := .off, vout3Pg := false }
                     pwr.phase := .off, img := { s.img with digest := none, sess := none } } := by
  have hu : s.railsUp = true := by simp [State.railsUp, ho, hz]
  rw [exec_brownout, execBrownout, if_pos hu]
  rfl

theorem exec_brownout_unpowered (h : s.pwr.phase = .off ∨ s.pwr.phase = .asleep .sealed) : exec .brownout s = .next s := by
  have hu : s.railsUp = false := by obtain h | h := h <;> simp [State.railsUp, h]
  simp [exec_brownout, execBrownout, hu]

theorem exec_islandReset_sealed (hz : s.pwr.phase = .asleep .sealed) :
    exec .backupIslandReset s = .next { s with isl := Island.reset, rtc := Rtc.reset, pwr.phase := .off } := by
  rw [exec_backupIslandReset, execBackupIslandReset, if_pos hz]

theorem exec_islandReset_elsewhere (hz : s.pwr.phase ≠ .asleep .sealed) :
    exec .backupIslandReset s = .next { s with isl := Island.reset, rtc := Rtc.reset } := by
  rw [exec_backupIslandReset, execBackupIslandReset, if_neg hz]

/-! ### The end of the drain (R115, R379) -/

theorem exec_drainBoundExpiry (s : State) : exec .drainBoundExpiry s = execDrainBoundExpiry s := rfl

theorem vaultDropLeave_of_none (h : s.vlt.leave = .none) : vaultDropLeave s = s := by
  have hs : s = { s with vlt.leave := .none } := by rw [← h]
  rw [vaultDropLeave, h]
  exact hs.symm

theorem drains_of_entering {z : Sleep} (hp : s.pwr.phase = .entering z) (hz : z ≠ .latched) : drains s = true := by
  cases z with
  | latched => exact absurd rfl hz
  | shuttered | barred | sealed => simp [drains, hp]

/-- A discard changes the queue, its marks, the gaps and QLOST alone. -/
theorem discardQueue_eq (s : State) :
    discardQueue s =
      { s with vlt := { s.vlt with queue := (discardQueue s).vlt.queue, replaces := [], aged := (discardQueue s).vlt.aged
                                   gaps := (discardQueue s).vlt.gaps }
               pwr.qlost := (discardQueue s).pwr.qlost } := by
  unfold discardQueue
  dsimp only
  split <;> rfl

theorem discardQueue_nothing (hq : s.vlt.queue = []) : discardQueue s = { s with vlt.replaces := [] } := by
  simp [discardQueue, hq]

/-- With no program under way the whole queue is discarded. -/
theorem discardQueue_queue (hf : s.vlt.flight = []) : (discardQueue s).vlt.queue = [] := by
  cases hq : s.vlt.queue with
  | nil => simp [discardQueue_nothing, hq]
  | cons r l => simp +contextual [discardQueue, hf, hq]

/-- What is discarded becomes a gap of cause DRAIN that counts it. -/
theorem discardQueue_lost (hf : s.vlt.flight = []) (hq : s.vlt.queue ≠ []) :
    (discardQueue s).pwr.qlost = true ∧
      (s.vlt.gaps = [] → ∃ g, (discardQueue s).vlt.gaps = [g] ∧ g.cause = .drain ∧ g.lost = s.vlt.queue.length) := by
  obtain ⟨r, l, hq⟩ := List.exists_cons_of_ne_nil hq
  refine ⟨by simp [discardQueue, hf, hq], fun hg => ?_⟩
  simp [discardQueue, hf, hq, hg]

theorem exec_drainBoundExpiry_due {z : Sleep} (hp : s.pwr.phase = .entering z) (hz : z ≠ .latched) (hover : s.pwr.drainOver = false)
    (ht : 32 ≤ s.pwr.drainTicks) (hl : s.vlt.leave = .none) :
    exec .drainBoundExpiry s = .next { (discardQueue s) with pwr.drainOver := true } := by
  simp [exec_drainBoundExpiry, execDrainBoundExpiry, drains_of_entering hp hz, hover, ht, vaultDropLeave_of_none hl]

theorem exec_drainBoundExpiry_early (ht : s.pwr.drainTicks < 32) : exec .drainBoundExpiry s = .next s := by
  simp [exec_drainBoundExpiry, execDrainBoundExpiry, Nat.not_le.mpr ht]

/-! ### The seal after the last gasp (R91, R117) -/

theorem exec_lastGaspSeal (s : State) : exec .lastGaspSeal s = execLastGaspSeal s := rfl

/-- The sources from which a seal after the last gasp starts the part again: one that qualified in the sequence (R92). -/
def gaspFired (s : State) : BitVec 12 := if s.isl.fired.getLsbD 10 && s.en.best != .none then setBit 0 10 true else 0

theorem exec_lastGaspSeal_done (hg : s.por.lgActive = true) (hp : s.pwr.phase = .awake) (hr : s.crs.running = false)
    (hd : gaspDone s = true) : exec .lastGaspSeal s = .next (sealNow 2 (gaspFired s) s) := by
  have ha : s.awake = true := by simp [State.awake, hp]
  simp [exec_lastGaspSeal, execLastGaspSeal, gaspFired, hg, ha, hr, hd]

theorem exec_lastGaspSeal_before (h : s.por.lgActive = false ∨ s.crs.running = true ∨ gaspDone s = false) :
    exec .lastGaspSeal s = .next s := by
  obtain h | h | h := h <;> simp [exec_lastGaspSeal, execLastGaspSeal, h]

/-! ### The clauses together -/

/-- Settles O40: each command's effect is an equation above; the discarded queue is read off `discardQueue`. The calendar's values
after the loss of the island's supply are those of log entry 41. -/
theorem powerIsLostInOneStep : Obligations.PowerIsLostInOneStep := by
  intro s
  refine ⟨exec_brownout_powered, exec_brownout_unpowered, exec_islandReset_elsewhere, exec_islandReset_sealed,
    fun z hp hz => ⟨fun hover ht hl hf => ?_, exec_drainBoundExpiry_early⟩,
    fun hg hp hr hd => ⟨_, exec_lastGaspSeal_done hg hp hr hd, rfl, rfl, rfl, rfl, rfl⟩, exec_lastGaspSeal_before⟩
  refine ⟨_, exec_drainBoundExpiry_due hp hz hover ht hl, ?_, discardQueue_queue hf, ?_, ?_, fun hq => ?_, discardQueue_lost hf⟩
  · rw [discardQueue_eq]
  · rw [discardQueue_eq]
  · rw [discardQueue_eq]
  · rw [discardQueue_nothing hq]
    exact ⟨rfl, rfl⟩

end Laws
end Sys2Proof
end

section
/-!
O35: the flyback, the converters' stops, the harvest tracking and the cold starter.
-/
namespace Sys2Proof
namespace Laws
open Machine

variable {s : State} {voc store : BitVec 16}

/-! ### The flyback (R37, R39 to R41) -/

theorem exec_flybackSwitchingStart (s : State) : exec .flybackSwitchingStart s = execFlybackSwitchingStart s := rfl
theorem exec_flybackVddpLow (s : State) : exec .flybackVddpLow s = execFlybackVddpLow s := rfl
theorem exec_flybackFault (cause : FlybackCause) (s : State) : exec (.flybackFault cause) s = execFlybackFault cause s := rfl
theorem exec_flybackRestart (cooled : Bool) (s : State) : exec (.flybackRestart cooled) s = execFlybackRestart cooled s := rfl

theorem exec_switchingStart_startup (h : s.en.flyback = .startup) :
    exec .flybackSwitchingStart s = .next { s with en.flyback := .switching } := by
  rw [exec_flybackSwitchingStart, execFlybackSwitchingStart, if_pos h]

theorem exec_vddpLow_switching (h : s.en.flyback = .switching) :
    exec .flybackVddpLow s = .next { s with en.flyback := .startup } := by
  rw [exec_flybackVddpLow, execFlybackVddpLow, if_pos h]

/-- A fault holds a working flyback off; only an over-temperature waits for its region to cool. -/
theorem exec_flybackFault_working (cause : FlybackCause) (h : s.en.flyback ≠ .off) :
    exec (.flybackFault cause) s = .next { s with en.flyback := .holdoff true (cause == .overTemp) } := by
  rw [exec_flybackFault, execFlybackFault]
  split
  · exact absurd ‹_› h
  · rfl

theorem exec_flybackFault_off (cause : FlybackCause) (h : s.en.flyback = .off) : exec (.flybackFault cause) s = .next s := by
  rw [exec_flybackFault, execFlybackFault, h]

/-- The hold-off's time is over: a hot region still holds the flyback off. -/
theorem exec_flybackRestart_time {time hot : Bool} (h : s.en.flyback = .holdoff time hot) :
    exec (.flybackRestart false) s = .next { s with en.flyback := if hot then .holdoff false true else .startup } := by
  cases hot <;> simp [exec_flybackRestart, execFlybackRestart, h]

/-- The region has cooled: the hold-off's time may still run. -/
theorem exec_flybackRestart_cooled {time hot : Bool} (h : s.en.flyback = .holdoff time hot) :
    exec (.flybackRestart true) s = .next { s with en.flyback := if time then .holdoff true false else .startup } := by
  cases time <;> simp [exec_flybackRestart, execFlybackRestart, h]

/-! ### The entry buck's margin and the cold starter (R45, R53) -/

theorem exec_entryBuckMargin (met : Bool) (s : State) : exec (.entryBuckMargin met) s = execEntryBuckMargin met s := rfl
theorem exec_coldStarterStart (s : State) : exec .coldStarterStart s = execColdStarterStart s := rfl

theorem exec_margin_buck (met : Bool) (h : s.en.sel = .hv ∨ s.en.sel = .veh) :
    exec (.entryBuckMargin met) s = .next { s with en.marginOk := met } := by
  obtain h | h := h <;> simp [exec_entryBuckMargin, execEntryBuckMargin, h]

theorem exec_coldStarterStart_unsupplied (hh : s.en.hvQ = false) (hv : s.en.vehQ = false) :
    exec .coldStarterStart s = .next { s with en.coldStarter := true } := by
  simp [exec_coldStarterStart, execColdStarterStart, hh, hv]

/-! ### Harvest tracking (R50, R51) -/

theorem exec_harvTrackingSample (voc store : BitVec 16) (s : State) :
    exec (.harvTrackingSample voc store) s = execHarvTrackingSample voc store s := rfl

theorem satOf_toNat (w n : Nat) : (satOf w n).toNat = min n (2 ^ w - 1) := by
  have hw := Nat.two_pow_pos w
  unfold satOf
  split
  · rw [BitVec.toNat_allOnes]; omega
  · rw [BitVec.toNat_ofNat, Nat.mod_eq_of_lt (by omega)]; omega

/-- The regulation point: K times the open-circuit voltage in mV, rounded as log entry 6 leaves open. -/
def regPoint (e : Energy) (voc : BitVec 16) : BitVec 16 := BitVec.ofNat 16 (divOpenN (harvK e * voc.toNat) 100)

theorem regPoint_lt (e : Energy) (voc : BitVec 16) : 100 * (regPoint e voc).toNat < harvK e * voc.toNat + 100 := by
  have hq : 100 * divOpenN (harvK e * voc.toNat) 100 < harvK e * voc.toNat + 100 := mul_divOpenN_lt (by decide)
  have hm := Nat.mod_le (divOpenN (harvK e * voc.toNat) 100) (2 ^ 16)
  rw [regPoint, BitVec.toNat_ofNat]
  omega

/-- K is at most 0.90, so the point fits its register and lies less than a millivolt below K times the voltage. -/
theorem lt_regPoint {e : Energy} (voc : BitVec 16) (hk : e.cfg.k.toNat ≤ 8) :
    harvK e * voc.toNat < 100 * (regPoint e voc).toNat + 100 := by
  have hn : harvK e * voc.toNat ≤ 90 * voc.toNat := Nat.mul_le_mul_right _ (by unfold harvK; omega)
  have hq : 100 * divOpenN (harvK e * voc.toNat) 100 < harvK e * voc.toNat + 100 := mul_divOpenN_lt (by decide)
  have hl : harvK e * voc.toNat < 100 * divOpenN (harvK e * voc.toNat) 100 + 100 := lt_mul_divOpenN (by decide)
  have hv := voc.isLt
  rw [regPoint, BitVec.toNat_ofNat, Nat.mod_eq_of_lt (by omega)]
  exact hl

/-- A sample with a source on HARV sets what the tracking regulates to. -/
theorem exec_harvSample_tracks (hs : s.en.sel = .harv) (hv : 250 ≤ voc.toNat) :
    exec (.harvTrackingSample voc store) s =
      .next { s with en := { s.en with harvVoc := satOf 13 voc.toNat, harvPoint := regPoint s.en voc
                                       pass := decide (harvK s.en * voc.toNat + 10000 ≥ 100 * store.toNat) } } := by
  rw [exec_harvTrackingSample, execHarvTrackingSample, if_pos hs]
  dsimp only
  rw [if_neg (Nat.not_lt.mpr hv)]
  rfl

theorem exec_harvSample_loses (hs : s.en.sel = .harv) (hv : voc.toNat < 250) :
    exec (.harvTrackingSample voc store) s =
      .next (emit [] { s with en := ({ s with en.harvVoc := satOf 13 voc.toNat } : State).en.lose .harv }) := by
  rw [exec_harvTrackingSample, execHarvTrackingSample, if_pos hs]
  dsimp only
  rw [if_pos hv]

@[simp] theorem reselect_q (e : Energy) (src : Source) : e.reselect.q src = e.q src := by
  unfold Energy.reselect
  split <;> cases src <;> rfl

@[simp] theorem reselect_stat (e : Energy) : e.reselect.stat = e.stat := by
  unfold Energy.reselect
  split <;> rfl

/-- A lost source qualifies no more, whether the selector is held or not (R33, R35). -/
theorem lose_q (e : Energy) (src : Source) : (e.lose src).q src = false := by
  unfold Energy.lose
  split
  · dsimp only
    split
    · split <;> cases src <;> rfl
    · rw [reselect_q]
      cases src <;> rfl
  · exact Bool.eq_false_iff.mpr ‹_›

/-- A source that is lost sets its LOST bit (R36). -/
theorem lose_stat {e : Energy} {src : Source} (hq : e.q src = true) : (e.lose src).stat = setBit e.stat (lostBit src) true := by
  rw [Energy.lose, if_pos hq]
  dsimp only
  split
  · split <;> rfl
  · exact reselect_stat _

theorem lose_lostBit {e : Energy} {src : Source} (hq : e.q src = true) : (e.lose src).stat.getLsbD (lostBit src) = true := by
  rw [lose_stat hq, getLsbD_setBit_true]
  cases src <;> simp [lostBit]

/-! ### The clauses together -/

/-- Settles O35: each event's effect is its operation's own equation; the tracking sample's point is bounded by `regPoint_lt`
and `lt_regPoint`, whose rounding log entry 6 leaves open. -/
theorem convertersStartAndStop : Obligations.ConvertersStartAndStop := by
  intro s b cause
  refine ⟨rfl, rfl, rfl, exec_switchingStart_startup, exec_vddpLow_switching, exec_flybackFault_working cause, exec_flybackFault_off cause,
    fun time hot h => ⟨exec_flybackRestart_time h, exec_flybackRestart_cooled h⟩, rfl, rfl, rfl, rfl, rfl, rfl, exec_margin_buck b,
    exec_coldStarterStart_unsupplied, rfl, fun voc store hs hv => ?_, fun voc store hs hv hq => ?_⟩
  · exact ⟨_, exec_harvSample_tracks hs hv, rfl, satOf_toNat 13 _, regPoint_lt s.en voc, lt_regPoint voc, decide_eq_true_iff⟩
  · refine ⟨_, exec_harvSample_loses hs hv, ?_, ?_⟩
    · rw [emit_en]
      exact lose_q _ .harv
    · rw [emit_en]
      exact lose_lostBit (src := .harv) hq

end Laws
end Sys2Proof
end

section
/-!
O36: the cell, the island's supply and VOUT3, and what ends charging.
-/
namespace Sys2Proof
namespace Laws
open Machine

variable {s : State} {v : BitVec 16}

/-! ### The cell (R56) -/

theorem exec_cellOvervoltage (s : State) : exec .cellOvervoltage s = execCellOvervoltage s := rfl

/-- The cell is charged from HV or VEH alone, with STORE at 3.0 V and no stop of its own. -/
theorem cellCharging_iff (e : Energy) :
    e.cellCharging = true ↔ e.cfg.chgEn = true ∧ (e.sel = .hv ∨ e.sel = .veh) ∧ e.store3v = true ∧ e.cellOv = false := by
  simp [Energy.cellCharging, and_assoc]

theorem exec_cellOv_charging (h : s.en.cellCharging = true) :
    exec .cellOvervoltage s = .next { s with en.cellOv := true, en.stat := setBit s.en.stat 7 true } := by
  rw [exec_cellOvervoltage, execCellOvervoltage, if_pos h]

theorem exec_cellOv_idle (h : ¬ s.en.cellCharging = true) : exec .cellOvervoltage s = .next s := by
  rw [exec_cellOvervoltage, execCellOvervoltage, if_neg h]

theorem not_cellCharging {e : Energy} (h : e.cfg.chgEn = false ∨ e.store3v = false ∨ e.sel = .none ∨ e.sel = .harv) :
    ¬ e.cellCharging = true := by
  obtain h | h | h | h := h <;> simp [Energy.cellCharging, h]

/-! ### VOUT3 (R62, R63) -/

theorem exec_vout3CurrentLimit (s : State) : exec .vout3CurrentLimit s = execVout3CurrentLimit s := rfl
theorem exec_vout3ModeWrite (v : BitVec 16) (s : State) : exec (.vout3ModeWrite v) s = execVout3ModeWrite v s := rfl

theorem exec_currentLimit_on (h : s.en.vout3 ≠ .off) :
    exec .vout3CurrentLimit s = .next { s with en := { s.en with vout3 := .off, vout3Pg := false, stat := setBit s.en.stat 8 true } } := by
  rw [exec_vout3CurrentLimit, execVout3CurrentLimit, if_neg h]
  rfl

/-- The mode field of a written word against a mode code. -/
theorem setWidth_two_eq_iff (v : BitVec 16) (c : BitVec 2) : v.setWidth 2 = c ↔ v.toNat % 4 = c.toNat := by
  rw [← BitVec.toNat_inj, BitVec.toNat_setWidth]

theorem vout3Write_reserved (h : v.toNat % 4 = 3) : vout3Write v s = s :=
  if_pos ((setWidth_two_eq_iff v 3).mpr h)

theorem voutOfCode_setWidth (v : BitVec 16) :
    voutOfCode (v.setWidth 2) = if v.toNat % 4 = 1 then .lowq else if v.toNat % 4 = 2 then .on else .off := by
  simp only [voutOfCode, setWidth_two_eq_iff]
  rfl

theorem vout3Write_mode (h : v.toNat % 4 < 3) (hm : s.mainOn = true) :
    vout3Write v s = vout3Apply (voutOfCode (v.setWidth 2)) { s with en.vout3Ctl := v.setWidth 2 } := by
  have hc : ¬ v.setWidth 2 = (3 : BitVec 2) := fun he => absurd ((setWidth_two_eq_iff v 3).mp he) (Nat.ne_of_lt h)
  exact (if_neg hc).trans (if_pos hm)

/-! ### What ends charging (R45, R46, R59, R66) -/

/-- A stop of STORE, of the die or of the selected path ends charging. -/
theorem charging_eq_false {e : Energy}
    (h : e.storeOv = true ∨ e.overTemp = true ∨ (e.sel = .veh ∧ e.vehOv = true) ∨ (e.sel = .hv ∧ e.hvOv = true)) : e.charging = false := by
  obtain h | h | ⟨hs, h⟩ | ⟨hs, h⟩ := h
  · simp [Energy.charging, h]
  · simp [Energy.charging, h]
  · simp [Energy.charging, hs, h]
  · simp [Energy.charging, hs, h]

theorem charging_hv {e : Energy} (hs : e.sel = .hv) (hd : e.selDead = false) (ho : e.storeOv = false) (ht : e.overTemp = false)
    (hf : e.storeFull = false) (hv : e.hvOv = false) (hm : e.marginOk = true) : e.charging = true := by
  simp [Energy.charging, hs, hd, ho, ht, hf, hv, hm]

/-! ### The clauses together -/

/-- Settles O36: the events are their operations' own equations; a stop ends charging by `charging_eq_false`. What a stop
ends, the cell's stop cleared at 3.0 V and VOUT3_PG at once are log entry 13. -/
theorem cellIslandAndVout3 : Obligations.CellIslandAndVout3 := by
  intro s b
  refine ⟨rfl, rfl, rfl, rfl, fun hen hsel h3 hov => exec_cellOv_charging ((cellCharging_iff _).mpr ⟨hen, hsel, h3, hov⟩),
    fun h => exec_cellOv_idle (not_cellCharging h), exec_currentLimit_on, fun v h => ?_, fun v h hm => ?_, fun t ht => ?_, fun t ht => ?_,
    fun t hs ht => ?_, fun t hs ht => ?_, fun hs hd ho hot hf hv t ht => ?_⟩
  · rw [exec_vout3ModeWrite, execVout3ModeWrite, vout3Write_reserved h]
  · rw [exec_vout3ModeWrite, execVout3ModeWrite, vout3Write_mode h hm, voutOfCode_setWidth]
    rfl
  · obtain rfl := Host.Outcome.next.inj ht
    exact charging_eq_false (.inl rfl)
  · obtain rfl := Host.Outcome.next.inj ht
    exact charging_eq_false (.inr (.inl rfl))
  · obtain rfl := Host.Outcome.next.inj ht
    exact charging_eq_false (.inr (.inr (.inl ⟨hs, rfl⟩)))
  · obtain rfl := Host.Outcome.next.inj ht
    exact charging_eq_false (.inr (.inr (.inr ⟨hs, rfl⟩)))
  · rw [exec_margin_buck true (.inl hs)] at ht
    obtain rfl := Host.Outcome.next.inj ht
    exact charging_hv hs hd ho hot hf hv rfl

end Laws
end Sys2Proof
end

section
/-!
O24: ASKP and ASKE, which put one message on the lane to the Porter.
-/
namespace Sys2Proof
namespace Laws
open Machine

variable {c : CoreId} {words slots extra : Nat} {ill : Core → Option (BitVec 4)} {body : State → Effect} {s : State} {k : Core}
variable {st : CoreSt} {m : LaneMsg} {p : BitVec 3}

/-! ### The core after an instruction that changes its run state alone -/

/-- The core moved on, its slots spent and its step over, is what `Issued` says. -/
theorem issued_advancePc : Issued k ((k.advancePc words).spend slots).stepEnd words slots := by
  refine ⟨?_, fun h => ?_, fun h => ?_⟩
  · rw [stepEnd_eq, Core.spend, advancePc_eq]
    rfl
  · rw [stepEnd_eq, Core.spend, advancePc_eq, growReturn_rs h]
  · have hs : ((k.advancePc words).spend slots).stepping = false := by rw [Core.spend, advancePc_eq]; exact h
    rw [stepEnd_same hs, Core.spend, advancePc_eq]
    exact ⟨rfl, h, rfl⟩

/-- The run state has no part in moving on. -/
theorem advancePc_st : { k.advancePc words with st := st } = ({ k with st := st } : Core).advancePc words := by
  have hrs : (({ k with st := st } : Core).growReturn words).rs = (k.growReturn words).rs := by
    unfold Core.growReturn
    split <;> rfl
  rw [advancePc_eq, advancePc_eq, hrs]
  rfl

/-! ### A message sent -/

/-- A send leaves the cores alone. -/
@[simp] theorem send_core : (s.send m).core c = s.core c := core_of rfl rfl

/-- A send and a core's write, in either order, add the message behind the others and write the core. -/
theorem send_setCore : (s.send m).setCore c k = { s.setCore c k with tie.lane := s.tie.lane ++ [m] } := by cases c <;> rfl

/-- A ready core's instruction that sends one message leaves the core moved on, and the message behind the others on the lane. -/
theorem issue_sends (hr : Ready c words s) (hw : words = 1 ∨ words = 2) (hi : ill (s.core c).landDue = none)
    (hb : body (s.moved c words) = .done ((s.setCore c (({ s.seen c with st := st } : Core).advancePc words)).send m) extra) :
    let t := issue c words ill body s
    (t.core c).k = (s.seen c).k ∧ KeepsFlags c s t ∧ Issued { s.seen c with st := st } (t.core c) words (words + extra) ∧
      t = { s.setCore c (t.core c) with tie.lane := s.tie.lane ++ [m] } := by
  intro t
  have ht : t = _ := issue_done (ready_issuing hr) (ready_check hr hw hi) hb
  rw [send_core, State.core_setCore, send_setCore, State.setCore_setCore, State.setCore_tie] at ht
  have hc : t.core c = ((({ s.seen c with st := st } : Core).advancePc words).spend (words + extra)).stepEnd := by
    rw [ht]
    cases c <;> rfl
  refine ⟨by simp [hc], ?_, hc ▸ issued_advancePc, by rw [hc, ht]⟩
  simp [KeepsFlags, hc]

/-! ### ASKP and ASKE (R252, R253) -/

theorem coreReq_eq (c : CoreId) : coreReq c = if c.isB then .coreB else .coreA := by cases c <;> rfl

/-- Outside a slot ASKP is legal (R215). -/
theorem noSlot_landDue (h : k.xfer = none) : noSlot k.landDue = none := by simp [noSlot, h]

/-- A class's cost is a setting of the Porter, not of a core (R75). -/
@[simp] theorem classCost_setCore : (s.setCore c k).classCost p = s.classCost p := by cases c <;> rfl

/-- An ASKP as its core finds it, the counters moved on: the core waits, and its request is on the lane (R252). -/
theorem askp_body : (((s.moved c 1).setCore c { (s.moved c 1).core c with st := .asking }).ask p (coreReq c)) =
    (s.setCore c (({ s.seen c with st := .asking } : Core).advancePc 1)).send (.ask p (coreReq c) (s.classCost p)) := by
  rw [moved_core, advancePc_st, setCore_moved, State.ask, classCost_setCore]

/-- Outside a slot ASKP sends its request and waits, for two slots (R252, R257). -/
theorem askp_sends (hr : Ready c 1 s) (hx : (s.core c).xfer = none) :
    ∃ t, exec (.cAskp c p) s = .next t ∧ (t.core c).k = (s.seen c).k ∧ KeepsFlags c s t ∧
      Issued { s.seen c with st := .asking } (t.core c) 1 2 ∧
        t = { s.setCore c (t.core c) with tie.lane := s.tie.lane ++ [.ask p (coreReq c) (s.classCost p)] } :=
  ⟨_, rfl, issue_sends (extra := 1) hr (.inl rfl) (noSlot_landDue hx) (congrArg (Effect.done · 1) askp_body)⟩

/-- ASKE is legal in a slot too, and its core runs on (R253). -/
theorem aske_sends (hr : Ready c 1 s) :
    ∃ t, exec (.cAske c p) s = .next t ∧ (t.core c).k = (s.seen c).k ∧ KeepsFlags c s t ∧
      Issued (s.seen c) (t.core c) 1 1 ∧ t = { s.setCore c (t.core c) with tie.lane := s.tie.lane ++ [.fin p (coreReq c)] } :=
  ⟨_, rfl, issue_sends (st := (s.seen c).st) (extra := 0) hr (.inl rfl) rfl rfl⟩

/-! ### The clauses together -/

/-- Settles O24: both instructions send one message, and `issue_sends` says what the core and the lane then hold. -/
theorem askingSendsOneMessage : Obligations.AskingSendsOneMessage := by
  intro c p s hr k req cost
  have hreq : coreReq c = req := coreReq_eq c
  rw [← hreq]
  exact ⟨askp_sends hr, aske_sends hr⟩

end Laws
end Sys2Proof
end

section
/-!
O41: the entries to the sleep states, from the gate of each to the state reached.
-/
namespace Sys2Proof
namespace Laws
open Machine

variable {s : State} {z : Sleep} {k : Core}

/-! ### Cores on the way into a sleep state (R108, R213, R256) -/

/-- All results in flight land, and nothing else of the core changes. -/
theorem landAll_lands (k : Core) : Lands k k.landAll := by
  unfold Core.landAll
  generalize List.range 16 = l
  induction l generalizing k with
  | nil => exact rfl
  | cons n l ih =>
    have hland : Lands k ((k.au.flight.filter fun r => r.left == n).foldl landOne
        { k with au := { k.au with flight := k.au.flight.filter fun r => r.left != n } }) :=
      lands_trans (b := { k with au := { k.au with flight := k.au.flight.filter fun r => r.left != n } }) rfl (lands_foldl _ _)
    exact lands_trans hland (ih _)

@[simp] theorem landAll_k (k : Core) : k.landAll.k = k.k := by rw [landAll_lands k]

@[simp] theorem freeze_k : k.freeze.k = k.k := rfl

/-- A core that freezes with all results landed keeps its general registers. -/
theorem freeze_landAll_k (k : Core) : k.landAll.freeze.k = k.k := by rw [freeze_k, landAll_k]

theorem freeze_st (k : Core) : ∃ b, k.freeze.st = .frozen b := by
  unfold Core.freeze
  dsimp only
  split
  · exact ⟨true, rfl⟩
  · exact ⟨false, rfl⟩

/-! ### The steps of an entry (R106, R114, R115, R164) -/

/-- The Vault's unused leave goes back by a message, and nothing else changes. -/
theorem vaultDropLeave_eq (s : State) : vaultDropLeave s = { s with vlt.leave := .none, tie := (vaultDropLeave s).tie } := by
  unfold vaultDropLeave
  split <;> rfl

/-- TICK does not fire at once where nothing is pending or the entry leaves it out. -/
theorem tickAtOnce_quiet (h : s.crs.pend = [] ∨ s.pwr.entryNoTick = true) : tickAtOnce s = s := by
  unfold tickAtOnce
  split
  · obtain h | h := h <;> simp [h]
  · rfl

/-- The tick that the wake router gets at an entry (R106). -/
def entryTick (s : State) : Option (BitVec 48) :=
  if s.pwr.entryNoTick then none else (nextTick s.crs).map fun n => BitVec.ofNat 48 n

/-- An out half of S, Q or U holds a message that nobody has read (R115). -/
def outHalfFull (p : Ports) : Bool := p.s.posted || p.s.svc || p.q.posted || p.q.svc || p.u.posted || p.u.svc

theorem outHalfFull_or (b : Bool) (p : Ports) :
    (b || outHalfFull p) = (b || (p.s.posted || p.s.svc) || (p.q.posted || p.q.svc) || (p.u.posted || p.u.svc)) := by
  simp only [outHalfFull, Bool.or_assoc]

/-- The leaves of an entry go back by messages, and nothing else of the state changes. -/
theorem leavesReturned (s : State) :
    ∃ tch tie, vaultDropLeave (touchWindowClose s) = { s with vlt.leave := .none, tch := tch, tie := tie } := by
  rw [vaultDropLeave_eq, touchWindowClose_eq]
  exact ⟨_, _, rfl⟩

/-- What the gate of SHUTTERED and BARRED leaves: VOUT3, the scanner and the lane apart, each field at its value. -/
theorem gate_eq (z : Sleep) (s : State) :
    ∃ (en : Energy) (tch : Touch) (tie : Tie), gate z s =
      { s with pwr := { s.pwr with phase := .asleep z, last := z.code, sleptAt := s.crs.tick, drainTicks := 0, drainOver := false
                                   wakeTick := entryTick s, mboxLost := s.pwr.mboxLost || outHalfFull s.prt }
               coreA := { s.coreA.landAll with st := .off }, coreB := s.coreB.landAll.freeze, crs := pendSlept s.crs
               img := { s.img with svc := [], replies := [], sess := none }, prt := s.prt.emptied, pc := s.pc.emptied, vlt.leave := .none
               tch := { tch with pending := false }, en := en, tie := tie } := by
  obtain ⟨tch, tie, h⟩ := leavesReturned s
  simp only [gate, h, outHalfFull_or, closePorts, auDelivered, loadWakeTick, reachSleep, vout3Sleep, vout3Apply]
  exact ⟨_, tch, tie, rfl⟩

/-- What the freeze of LATCHED leaves: the power state, the cores, VOUT3, the scanner and the lane apart, all as it was. -/
theorem freezeAll_eq (s : State) :
    ∃ (en : Energy) (tch : Touch) (tie : Tie), freezeAll s =
      { s with pwr := { s.pwr with phase := .asleep .latched, last := 2, sleptAt := s.crs.tick, drainTicks := 0, drainOver := false
                                   wakeTick := entryTick s }
               coreA := s.coreA.landAll.freeze, coreB := s.coreB.landAll.freeze, en := en, tch := tch, tie := tie } := by
  rw [freezeAll, touchWindowClose_eq]
  simp only [auDelivered, loadWakeTick, reachSleep, vout3Sleep, vout3Apply]
  exact ⟨_, _, _, rfl⟩

/-! ### The commands (R108, R114, R117) -/

theorem exec_sleepEntryGate (s : State) : exec .sleepEntryGate s = execSleepEntryGate s := rfl
theorem exec_latchedFreeze (s : State) : exec .latchedFreeze s = execLatchedFreeze s := rfl
theorem exec_sealedEntry (s : State) : exec .sealedEntry s = execSealedEntry s := rfl

theorem not_awake_of_entering (hp : s.pwr.phase = .entering z) : s.awake = false := by simp [State.awake, hp]

theorem exec_sleepEntryGate_ended (hp : s.pwr.phase = .entering z) (hz : z = .shuttered ∨ z = .barred) (hd : drainDone s = true)
    (ho : opsIdle s = true) (hq : s.crs.pend = [] ∨ s.pwr.entryNoTick = true) : exec .sleepEntryGate s = .next (gate z s) := by
  simp [exec_sleepEntryGate, execSleepEntryGate, hp, hz, hd, ho, tickAtOnce_quiet hq, not_awake_of_entering hp]

theorem exec_sleepEntryGate_before (h : drainDone s = false ∨ opsIdle s = false) : exec .sleepEntryGate s = .next s := by
  rw [exec_sleepEntryGate, execSleepEntryGate]
  split
  · obtain h | h := h <;> simp [h]
  · rfl

theorem exec_latchedFreeze_ended (hp : s.pwr.phase = .entering .latched) (ho : opsIdle s = true)
    (hq : s.crs.pend = [] ∨ s.pwr.entryNoTick = true) : exec .latchedFreeze s = .next (freezeAll s) := by
  simp [exec_latchedFreeze, execLatchedFreeze, hp, ho, tickAtOnce_quiet hq, not_awake_of_entering hp]

theorem exec_latchedFreeze_before (ho : opsIdle s = false) : exec .latchedFreeze s = .next s := by
  simp [exec_latchedFreeze, execLatchedFreeze, ho]

theorem exec_sealedEntry_ended (hp : s.pwr.phase = .entering .sealed) (hd : drainDone s = true) (ho : opsIdle s = true) :
    exec .sealedEntry s = .next (sealNow 1 0 (closePorts s)) := by
  simp [exec_sealedEntry, execSealedEntry, hp, hd, ho]

/-! ### The clauses together -/

/-- Settles O41: each entry is its command's equation, and `gate_eq` and `freezeAll_eq` give the fields it leaves. That a
pending service message and its reply are dropped is log entry 15. -/
theorem sleepIsEnteredWhenAllHasEnded : Obligations.SleepIsEnteredWhenAllHasEnded := by
  intro s z closed hp
  refine ⟨fun hz hd ho hq => ⟨_, exec_sleepEntryGate_ended hp hz hd ho hq, ?_⟩, exec_sleepEntryGate_before, exec_latchedFreeze_before,
    ?_, ?_⟩
  · obtain ⟨en, tch, tie, h⟩ := gate_eq z s
    rw [h]
    dsimp only
    exact ⟨rfl, rfl, rfl, rfl, freeze_st _, rfl, rfl, rfl, rfl, rfl, rfl, rfl, rfl, rfl, Bool.or_eq_true_iff, rfl, rfl, rfl, rfl,
      rfl, rfl, rfl, rfl, landAll_k _, freeze_landAll_k _, rfl, rfl, fun hn => if_pos hn⟩
  · rintro rfl ho hq
    refine ⟨_, exec_latchedFreeze_ended hp ho hq, ?_⟩
    obtain ⟨en, tch, tie, h⟩ := freezeAll_eq s
    rw [h]
    dsimp only
    exact ⟨rfl, rfl, rfl, freeze_st _, freeze_st _, rfl, rfl, rfl, rfl, rfl, rfl, rfl, rfl, rfl, rfl, rfl, rfl, rfl, rfl,
      freeze_landAll_k _, freeze_landAll_k _⟩
  · rintro rfl hd ho
    exact ⟨_, exec_sealedEntry_ended hp hd ho, rfl, rfl, rfl, rfl, rfl, rfl, rfl, rfl⟩

end Laws
end Sys2Proof
end

section
/-!
O42: what a wake source does in each power state, and what the answer for a wake does.
-/
namespace Sys2Proof
namespace Laws
open Machine

variable {s : State} {z : Sleep} {n : Nat} {p : PortId} {k : BitVec 3} {a : Answer} {l : List (BitVec 3 × Requester × Answer)}

/-! ### Which sources are armed (R102) -/

theorem sourceArmed_live (hz : z ≠ .sealed) : sourceArmed z n s = (n == 0 || (n != 10 && s.pwr.wakeEn.getLsbD n)) := by
  cases z with
  | sealed => exact absurd rfl hz
  | latched | shuttered | barred => rfl

theorem sourceArmed_live_of (hz : z ≠ .sealed) (h : n = 0 ∨ (n ≠ 10 ∧ s.pwr.wakeEn.getLsbD n = true)) : sourceArmed z n s = true := by
  simpa [sourceArmed_live hz] using h

theorem not_sourceArmed_live (hz : z ≠ .sealed) (h0 : n ≠ 0) (h : s.pwr.wakeEn.getLsbD n = false) : sourceArmed z n s = false := by
  simp [sourceArmed_live hz, h0, h]

/-- In SEALED the island's copy of WAKE_EN arms the sources, and SRC is always armed. -/
theorem sourceArmed_island
    (h : n = 10 ∨ ((n = 1 ∨ n = 2 ∨ n = 4 ∨ n = 5 ∨ n = 6 ∨ n = 8) ∧ s.isl.en.getLsbD n = true)) : sourceArmed .sealed n s = true := by
  simpa [sourceArmed] using h

/-! ### A source fires (R104, R116, R120, R121, R124) -/

theorem fire_awake (hp : s.pwr.phase = .awake) :
    fire n s = if n = 1 ∨ n = 2 then { s with pwr.wakeSrc := setBit s.pwr.wakeSrc n true } else s := by
  simp [fire, hp]

theorem fire_entering (hp : s.pwr.phase = .entering z) (ha : sourceArmed z n s = true) : fire n s = abandonEntry (setBit 0 n true) s := by
  simp [fire, hp, ha]

theorem fire_sealed (hp : s.pwr.phase = .asleep .sealed) (ha : sourceArmed .sealed n s = true) :
    fire n s = { s with isl.fired := setBit s.isl.fired n true } := by
  simp [fire, hp, ha]

theorem fire_asleep (hp : s.pwr.phase = .asleep z) (hz : z ≠ .sealed) :
    fire n s = if sourceArmed z n s then wakeFrom z n s else s := by
  cases z with
  | sealed => exact absurd rfl hz
  | latched | shuttered | barred => simp only [fire, hp]

/-- The request of a wake: P7 for the last gasp, which asks again, and P0 for every other source. -/
theorem wakeAsk_eq (n : Nat) (s : State) :
    wakeAsk n s = s.send (.ask (if n = 0 then 7 else 0) (if n = 0 then .gaspWake else .wakeRouter) (s.classCost 0)) := by
  unfold wakeAsk
  split <;> rfl

/-- A wake begins: its source is latched, the sleep's ticks are taken, and leave is asked for unless the part is in LATCHED. -/
theorem wakeFrom_eq (z : Sleep) (n : Nat) (s : State) :
    wakeFrom z n s =
      { s with pwr := { s.pwr with phase := .waking z (decide (z = .latched)), latched := setBit s.pwr.latched n true
                                   slpTicks := (s.crs.tick - s.pwr.sleptAt).setWidth 32 }
               tie.lane := if z = .latched then s.tie.lane else
                 s.tie.lane ++ [.ask (if n = 0 then 7 else 0) (if n = 0 then .gaspWake else .wakeRouter) (s.classCost 0)] } := by
  simp only [wakeFrom, wakeAsk_eq]
  cases z <;> rfl

/-- The abandonment names the one source that fired. -/
theorem abandonEntry_wakeSrc (hn : n < 12) : (abandonEntry (setBit 0 n true) s).pwr.wakeSrc = bitAt 12 n true := by
  have hbit : (setBit (0 : BitVec 12) n true).getLsbD n = true := by simp [getLsbD_setBit_true, hn]
  have hne : setBit (0 : BitVec 12) n true ≠ 0 := fun h => by rw [h] at hbit; simp at hbit
  rw [abandonEntry, if_neg hne]
  exact BitVec.zero_or

/-! ### Lands, activity detectors and HCK (R104, R400, R533) -/

theorem exec_wakeLandEdge (land : Bool) (s : State) : exec (.wakeLandEdge land) s = .next (fire (if land then 2 else 1) s) := rfl
theorem exec_portActivityDetect (p : PortId) (s : State) : exec (.portActivityDetect p) s = execPortActivityDetect p s := rfl
theorem exec_hingeClockActivity (s : State) : exec .hingeClockActivity s = execHingeClockActivity s := rfl

/-- A port's detector in SEALED fires the port's source where the island has it enabled. -/
theorem exec_portActivity_sealed (hp : s.pwr.phase = .asleep .sealed) (he : s.isl.en.getLsbD (portSource p) = true) :
    exec (.portActivityDetect p) s = .next { s with isl.fired := setBit s.isl.fired (portSource p) true } := by
  have ha : sourceArmed .sealed (portSource p) s = true := sourceArmed_island (.inr ⟨by cases p <;> decide, he⟩)
  rw [exec_portActivityDetect, execPortActivityDetect, if_pos hp, fire_sealed hp ha]

theorem exec_portActivity_elsewhere (p : PortId) (hp : s.pwr.phase ≠ .asleep .sealed) : exec (.portActivityDetect p) s = .next s := by
  rw [exec_portActivityDetect, execPortActivityDetect, if_neg hp]

/-- HCK moves while the main domain sleeps: its source fires, and the Hinge answers no session. -/
theorem exec_hingeClock_asleep (hp : s.pwr.phase = .asleep z) (hv : s.pin.vioOk.getLsbD 0 = true) :
    exec .hingeClockActivity s = .next ((fire 11 s).reply (.hinge 0xF none)) := by
  have hm : s.mainOn = false := by simp [State.mainOn, hp]
  simp [exec_hingeClockActivity, execHingeClockActivity, hingeActivity, hv, hm]

theorem exec_hingeClock_awake (hp : s.pwr.phase = .awake) : exec .hingeClockActivity s = .next s := by
  have hm : s.mainOn = true := by simp [State.mainOn, hp]
  have hf : hingeActivity s = s := by simp [hingeActivity, fire_awake hp]
  simp only [exec_hingeClockActivity, execHingeClockActivity, hm, hf, if_true]

/-! ### The answer for a wake (R121, R123) -/

theorem exec_wakeLeaveAnswer (s : State) : exec .wakeLeaveAnswer s = execWakeLeaveAnswer s := rfl

/-- The wake router's answer that lies in front is the one taken. -/
theorem takeFirst_wakeRouter : takeFirst wakeAnswer ((k, .wakeRouter, a) :: l) = some ((k, .wakeRouter, a), l) := rfl

theorem exec_wakeLeaveAnswer_grant (hp : s.pwr.phase = .waking z false) (hq : s.por.answers = (k, .wakeRouter, .grant) :: l) :
    exec .wakeLeaveAnswer s = .next { s with por.answers := l, pwr.phase := .waking z true } := by
  simp only [exec_wakeLeaveAnswer, execWakeLeaveAnswer, hq, takeFirst_wakeRouter, hp]

/-- A denied wake, with no last gasp that asks on its own, falls back to its sleep state and is recorded. -/
theorem exec_wakeLeaveAnswer_deny {why : BitVec 3} (hp : s.pwr.phase = .waking z false)
    (hq : s.por.answers = (k, .wakeRouter, .deny why) :: l) (hlg : s.pwr.latched.getLsbD 0 = false) :
    exec .wakeLeaveAnswer s =
      .next { s with por.answers := l
                     pwr := { s.pwr with phase := .asleep z, wakeLost := s.pwr.wakeLost ||| s.pwr.latched, latched := 0 } } := by
  simp only [exec_wakeLeaveAnswer, execWakeLeaveAnswer, hq, takeFirst_wakeRouter, hp, wakeDenied, hlg, Bool.and_false,
    Bool.false_eq_true, if_false]

theorem exec_wakeLeaveAnswer_none (hq : s.por.answers = []) : exec .wakeLeaveAnswer s = .next s := by
  simp [exec_wakeLeaveAnswer, execWakeLeaveAnswer, hq, takeFirst]

/-! ### The clauses together -/

/-- Settles O42: `fire` is told phase by phase, and each sender fires its own source. -/
theorem wakeSourcesFireAndAreAnswered : Obligations.WakeSourcesFireAndAreAnswered := by
  intro s n
  refine ⟨fun z hp hz hen _ => ?_, fun z hp hz h0 hen => ?_, fun z hp hz h10 hen hn => ⟨_, rfl, ?_⟩, fun hp h => ?_, rfl, rfl, fun hp => ?_,
    exec_portActivity_sealed (p := .s), exec_portActivity_sealed (p := .q), exec_portActivity_sealed (p := .u),
    exec_portActivity_elsewhere, fun z hp _ hv => exec_hingeClock_asleep hp hv, exec_hingeClock_awake, fun z k a l hp hq => ⟨?_, ?_⟩,
    exec_wakeLeaveAnswer_none⟩
  · rw [fire_asleep hp hz, if_pos (sourceArmed_live_of hz hen), wakeFrom_eq]
  · rw [fire_asleep hp hz, not_sourceArmed_live hz h0 hen]
    rfl
  · rw [fire_entering hp (sourceArmed_live_of hz (.inr ⟨h10, hen⟩))]
    exact ⟨rfl, abandonEntry_wakeSrc hn, rfl, rfl⟩
  · exact fire_sealed hp (sourceArmed_island h)
  · rw [exec_wakeLandEdge, fire_awake hp]
    rfl
  · rintro rfl
    exact exec_wakeLeaveAnswer_grant hp hq
  · rintro why rfl hlg
    exact exec_wakeLeaveAnswer_deny hp hq hlg

end Laws
end Sys2Proof
end

section
/-!
O23: POLL, WAITEV and the end of a wait.
-/
namespace Sys2Proof
namespace Laws
open Machine

variable {c : CoreId} {words extra : Nat} {ill : Core → Option (BitVec 4)} {body : State → Effect} {s u : State} {k : Core}
variable {i : Instr} {m : BitVec 13} {d : Reg} {b : Bool}

/-! ### An instruction outside a two-word slot -/

/-- Where no return address grows, moving on sets the program counter, the transfer and the fetch counter. -/
theorem advancePc_of (h : k.call = false ∨ k.xfer = none ∨ words = 1) :
    k.advancePc words = { k with pc := k.following words, xfer := none, call := false
                                 fcnt := k.fcnt + BitVec.ofNat 32 (words + k.discards) } := by
  rw [advancePc_eq, growReturn_rs h]

/-- A ready core's instruction whose body leaves `k` moved on: the core is `k` issued, and the rest is what the body left. -/
theorem exec_moves (he : exec i s = .next (issue c words ill body s)) (hr : Ready c words s) (hw : words = 1 ∨ words = 2)
    (hi : ill (s.core c).landDue = none) (hb : body (s.moved c words) = .done u extra) (hk : u.core c = k.advancePc words) :
    ∃ t, exec i s = .next t ∧ t = u.setCore c (t.core c) ∧ Issued k (t.core c) words (words + extra) ∧ (t.core c).k = k.k ∧
      (t.core c).z = k.z ∧ (t.core c).n = k.n ∧ (t.core c).c = k.c ∧ (t.core c).v = k.v := by
  refine ⟨_, he, ?_⟩
  rw [issue_done (ready_issuing hr) (ready_check hr hw hi) hb, hk, State.core_setCore]
  exact ⟨rfl, issued_advancePc, by simp⟩

/-! ### Snapshots (R224) -/

/-- EV of a snapshot: the latches, time-up, the overflow latch, and 0 in bit 15. -/
theorem evWord_shows (k : Core) (b : Bool) : (k.evWord b).setWidth 13 = k.lat ∧ (k.evWord b).getLsbD 13 = b ∧
    (k.evWord b).getLsbD 14 = k.ovf ∧ (k.evWord b).getLsbD 15 = false := by
  unfold Core.evWord fieldAt bitAt
  refine ⟨?_, ?_, ?_, ?_⟩
  · ext i hi
    cases b <;> cases k.ovf <;> simp
  all_goals cases b <;> cases k.ovf <;> simp

/-- A WAITEV ends with a snapshot; at time-up it is counted and flagged (R160, R225). -/
theorem endWait_snapshot (h : (s.core c).st = .waiting m) :
    endWait c s = { s.setCore c { (s.core c).snapshot s.crs.timeUp with st := .running } with
      crs.tuCnt := if s.crs.timeUp then satInc s.crs.tuCnt else s.crs.tuCnt
      crs.flags := if s.crs.timeUp then setBit s.crs.flags 3 true else s.crs.flags } := by
  by_cases ht : s.crs.timeUp = true
  · simp only [endWait, h, State.setCore_crs, if_pos ht]
  · simp only [endWait, h, State.setCore_crs, if_neg ht]
    cases c <;> rfl

/-- A snapshot has no part in moving on. -/
theorem snapshot_advancePc (h : k.call = false ∨ k.xfer = none ∨ words = 1) :
    (k.advancePc words).snapshot b = (k.snapshot b).advancePc words := by
  rw [advancePc_of h, advancePc_of (k := k.snapshot b) h]
  rfl

/-! ### POLL (R250) -/

/-- POLL's snapshot, EV put in a register, on the core as it found it. -/
def polled (d : Reg) (b : Bool) (k : Core) : Core := (k.snapshot b).put d (k.evWord b)

/-- POLL has one word, so that it takes effect in a delay slot as well. -/
theorem polled_advancePc : polled d b (k.advancePc 1) = (polled d b k).advancePc 1 := by
  rw [advancePc_of (.inr (.inr rfl)), advancePc_of (k := polled d b k) (.inr (.inr rfl))]
  rfl

theorem exec_cPoll (hr : Ready c 1 s) :
    ∃ t, exec (.cPoll c d) s = .next t ∧ OnlyCore c s t ∧ Puts (s.core c) (t.core c) d ((s.seen c).evWord s.crs.timeUp) ∧
      KeepsFlags c s t ∧
      Issued { s.seen c with ev := (s.seen c).evWord s.crs.timeUp, lat := 0, ovf := false, hit := 0 } (t.core c) 1 1 := by
  have hm : (s.moved c 1).crs = s.crs := State.setCore_crs
  obtain ⟨t, he, ht, hi, hk, hflags⟩ := exec_moves (k := polled d s.crs.timeUp (s.seen c)) (rfl : exec (.cPoll c d) s = _) hr
    (.inl rfl) rfl rfl (by rw [State.core_setCore, ← polled_advancePc, hm, moved_core]; rfl)
  refine ⟨t, he, ?_, puts_of_set (hk.trans ?_), hflags, hi⟩
  · rw [State.setCore_setCore, setCore_moved] at ht
    exact ht
  · rw [polled, Core.put, Core.snapshot, State.seen, landDue_k]

/-! ### WAITEV (R251) -/

/-- A WAITEV at its core, the counters moved on, in a state in which time is not up: the core waits. -/
theorem waitOp_waits (ht : s.crs.timeUp = false) :
    waitOp c m s = .done (s.setCore c { s.core c with st := .waiting m, hit := 0 }) 0 := by
  simp [waitOp, ht]

/-- At time-up it ends at once, counted and flagged (R160). -/
theorem waitOp_timeUp (ht : s.crs.timeUp = true) :
    waitOp c m s = .done { s.setCore c { (s.core c).snapshot true with st := .running } with
      crs.tuCnt := satInc s.crs.tuCnt, crs.flags := setBit s.crs.flags 3 true } 0 := by
  simp only [waitOp, State.setCore_crs, ht, if_true]
  rw [endWait_snapshot (m := m) (by rw [State.core_setCore])]
  simp only [State.setCore_crs, ht, if_true, State.core_setCore, State.setCore_setCore]
  rfl

/-- The mask waited for has no part in moving on. -/
theorem waiting_advancePc (h : k.xfer = none) :
    { k.advancePc words with st := .waiting m, hit := 0 } = ({ k with st := .waiting m, hit := 0 } : Core).advancePc words := by
  rw [advancePc_of (.inr (.inl h)), advancePc_of (k := { k with st := .waiting m, hit := 0 }) (.inr (.inl h))]
  rfl

/-- A core that runs is as it was when it runs again. -/
theorem with_running (h : k.st = .running) : { k with st := .running } = k := by rw [← h]

section
variable (he : exec i s = .next (issue c words noSlot body s)) (hr : Ready c words s) (hw : words = 1 ∨ words = 2)
  (hx : (s.core c).xfer = none) (hb : body (s.moved c words) = waitOp c m (s.moved c words))
include he hr hw hx hb

/-- Outside a slot, and before time-up, a WAITEV suspends its core on its mask. -/
theorem wait_suspends (ht : s.crs.timeUp = false) :
    ∃ t, exec i s = .next t ∧ OnlyCore c s t ∧ (t.core c).k = (s.seen c).k ∧ KeepsFlags c s t ∧
      Issued { s.seen c with st := .waiting m, hit := 0 } (t.core c) words words := by
  have hn : (s.seen c).xfer = none := landDue_xfer.trans hx
  obtain ⟨t, he, h, hi, hk, hflags⟩ := exec_moves (k := { s.seen c with st := .waiting m, hit := 0 }) he hr hw (noSlot_landDue hx)
    (hb.trans (waitOp_waits (by rw [State.moved, State.setCore_crs, ht])))
    (by rw [State.core_setCore, moved_core, waiting_advancePc hn])
  rw [State.setCore_setCore, setCore_moved] at h
  exact ⟨t, he, h, hk, hflags, hi⟩

/-- At time-up a WAITEV ends at once with a snapshot (R160). -/
theorem wait_ends (ht : s.crs.timeUp = true) :
    ∃ t, exec i s = .next t ∧ (t.core c).k = (s.seen c).k ∧ KeepsFlags c s t ∧
      Issued { s.seen c with ev := (s.seen c).evWord true, lat := 0, ovf := false, hit := 0 } (t.core c) words words ∧
      t = { s.setCore c (t.core c) with crs.tuCnt := satInc s.crs.tuCnt, crs.flags := setBit s.crs.flags 3 true } := by
  have hn : (s.seen c).xfer = none := landDue_xfer.trans hx
  have hrun : (((s.seen c).advancePc words).snapshot true).st = .running := by
    rw [advancePc_eq]; exact landDue_st.trans hr.2.1
  have hcrs : (s.moved c words).crs = s.crs := State.setCore_crs
  obtain ⟨t, he, h, hi, hk, hflags⟩ := exec_moves (k := (s.seen c).snapshot true) he hr hw (noSlot_landDue hx)
    (hb.trans (waitOp_timeUp (by rw [hcrs, ht])))
    (by
      rw [moved_core, with_running hrun, snapshot_advancePc (.inr (.inl hn))]
      cases c <;> rfl)
  refine ⟨t, he, hk, hflags, hi, ?_⟩
  rw [hcrs] at h
  refine h.trans ?_
  cases c <;> rfl

end

/-- Moving on leaves the registers that a WAITEV reads. -/
theorem waitev_body (c : CoreId) (x : Reg) (s : State) :
    waitOp c ((((s.moved c 1).core c).reg x).setWidth 13) (s.moved c 1) = waitOp c (((s.core c).reg x).setWidth 13) (s.moved c 1) := by
  rw [moved_core, Core.reg, advancePc_k, State.seen, landDue_k, ← Core.reg]

/-! ### WAITEV_END (R160, R225) -/

theorem exec_waitevEnd_none (hw : (s.core c).st = .waiting m) (hh : (s.core c).hit &&& m = 0) (ht : s.crs.timeUp = false) :
    exec (.waitevEnd c) s = .next s := by
  change execWaitevEnd c s = _
  simp [execWaitevEnd, hw, hh, ht]

theorem exec_waitevEnd_due (hw : (s.core c).st = .waiting m) (h : (s.core c).hit &&& m ≠ 0 ∨ s.crs.timeUp = true) :
    exec (.waitevEnd c) s = .next (endWait c s) := by
  have hg : ((s.core c).hit &&& m != 0 || s.crs.timeUp) = true := by simpa using h
  change execWaitevEnd c s = _
  simp only [execWaitevEnd, hw, hg, if_true]

/-! ### The clauses together -/

/-- Settles O23: each command takes a snapshot through `Core.snapshot`, and `evWord_shows` says what it holds. -/
theorem eventSnapshotsAndWaits : Obligations.EventSnapshotsAndWaits := by
  intro c d x s k shows waits
  have hwaits : ∀ n i m body, (n = 1 ∨ n = 2) → exec i s = .next (issue c n noSlot body s) →
      body (s.moved c n) = waitOp c m (s.moved c n) → waits n i m := by
    intro n i m body hw he hb hr hx
    refine ⟨wait_suspends he hr hw hx hb, fun ht => ?_⟩
    obtain ⟨t, he, hp⟩ := wait_ends he hr hw hx hb ht
    exact ⟨t, _, he, ht ▸ evWord_shows _ _, hp⟩
  refine ⟨fun hr => ?_, hwaits 1 _ _ _ (.inl rfl) rfl (waitev_body c x s), fun m => hwaits 2 _ m _ (.inr rfl) rfl rfl,
    fun m hm => ⟨exec_waitevEnd_none hm, fun h => ?_⟩⟩
  · obtain ⟨t, he, ho, hp⟩ := exec_cPoll (d := d) hr
    exact ⟨t, _, he, ho, evWord_shows _ _, hp⟩
  · refine ⟨_, (s.core c).evWord s.crs.timeUp, exec_waitevEnd_due hm h, evWord_shows _ _, ?_⟩
    rw [endWait_snapshot hm]
    cases c <;> exact ⟨rfl, rfl⟩

end Laws
end Sys2Proof
end

section
/-!
O25: ENDT, which starts the next task, idles its core, or ends the course.
-/
namespace Sys2Proof
namespace Laws
open Machine

variable {c : CoreId} {n : Nat} {s u : State} {k k' : Core} {e : Word} {l : List Word} {sub : BitVec 10}

/-! ### A core whose latches the fabric has set, its slots spent -/

/-- k' is k but for its latches, n slots passed, and a step under the Hinge that may have ended. -/
def Passed (n : Nat) (k k' : Core) : Prop :=
  k' = { k with lat := k'.lat, ovf := k'.ovf, hit := k'.hit, st := k'.st, stepping := k'.stepping, haltReq := k'.haltReq
                au := { k.au with flight := flown n k.au.flight } } ∧
  (k.stepping = false → k'.st = k.st ∧ k'.haltReq = k.haltReq)

theorem passed_of_latched (h : Latched k k') : Passed n k (k'.spend n).stepEnd := by
  refine ⟨?_, fun hs => ?_⟩
  · rw [stepEnd_eq, h]
    rfl
  · have hk : (k'.spend n).stepping = false := by rw [h]; exact hs
    rw [stepEnd_same hk, h]
    exact ⟨rfl, rfl⟩

/-! ### The end of a task (R148, R149) -/

/-- A core's list as the course engine keeps it. -/
theorem tasks_eq (r : CourseEngine) (c : CoreId) : r.tasks c = if c.isB then r.tasksB else r.tasksA := by cases c <;> rfl

/-- The course engine with a core's list replaced, and with its list ended. -/
def withTasks (c : CoreId) (l : List Word) (r : CourseEngine) : CourseEngine :=
  if c.isB then { r with tasksB := l } else { r with tasksA := l }

def withEnded (c : CoreId) (r : CourseEngine) : CourseEngine :=
  if c.isB then { r with endedB := true } else { r with endedA := true }

/-- The next task of the list starts. -/
theorem taskEnd_next (h : s.crs.tasks c = e :: l) :
    taskEnd c s = ({ s with crs := withTasks c l s.crs } : State).setCore c ((s.core c).startTask e) := by
  unfold taskEnd
  rw [h]
  cases c <;> rfl

/-- The state in which a core has ended its list, before the end of the course is judged. -/
def listEnded (c : CoreId) (s : State) : State := ({ s with crs := withEnded c s.crs } : State).setCore c (s.core c).idle

theorem taskEnd_last (h : s.crs.tasks c = []) : taskEnd c s = courseEndCheck (listEnded c s) := by
  unfold taskEnd
  rw [h]
  cases c <;> rfl

/-- Whether the other core has ended its list. -/
def otherEnded (c : CoreId) (r : CourseEngine) : Bool := if c.isB then r.endedA else r.endedB

theorem courseEndCheck_other (h : otherEnded c s.crs = false) : courseEndCheck (listEnded c s) = listEnded c s := by
  rw [courseEndCheck, if_neg]
  cases c <;> simp_all [listEnded, withEnded, otherEnded, CoreId.isB]

theorem courseEndCheck_both (h : otherEnded c s.crs = true) (hr : s.crs.running = true) :
    courseEndCheck (listEnded c s) = courseEnd (listEnded c s) := by
  rw [courseEndCheck, if_pos]
  cases c <;> simp_all [listEnded, withEnded, otherEnded, CoreId.isB]

/-! ### The end of a course (R100, R150, R155, R584) -/

theorem closeWindows_eq (s : State) : closeWindows s =
    { s with vlt := (closeWindows s).vlt, tch := (closeWindows s).tch, pane := (closeWindows s).pane, tie := (closeWindows s).tie
             crs := { s.crs with winVault := false, winTouch := false, winPane := false } } := by
  unfold closeWindows
  rw [paneWindowClose_eq, touchWindowClose_eq]
  split
  · rfl
  · rw [vaultWindowClose_eq]

/-- The running course stops: its duration is kept, its windows and both lists are closed, the scrub ends. -/
theorem courseStop_eq (s : State) : courseStop s =
    { s with vlt := (courseStop s).vlt, tch := (courseStop s).tch, pane := (courseStop s).pane, tie := (courseStop s).tie
             por := (courseStop s).por, ash.scrubLeft := 0
             crs := { s.crs with winVault := false, winTouch := false, winPane := false, running := false, timeUp := false
                                 lastDur := satOf 16 (courseElapsed s), tasksA := [], tasksB := [], endedA := true, endedB := true } } := by
  unfold courseStop porterCourseEnd
  rw [closeWindows_eq]

theorem checkBound_eq (dur bound : Nat) (r : CourseEngine) : checkBound dur bound r =
    { r with ovrCnt := (checkBound dur bound r).ovrCnt, stat := (checkBound dur bound r).stat, recs := (checkBound dur bound r).recs } := by
  unfold checkBound
  split
  · rw [addRecord_eq]
  · rfl

/-- t is s but for what a sleep action may change: the power state, the forced course, and the Vault's chain with its engine. -/
def SleepActed (s t : State) : Prop :=
  t = { s with pwr := t.pwr, crs := { s.crs with forced := t.crs.forced }, vlt := t.vlt, sec := t.sec, free := t.free }

theorem sleepActed_trans {t : State} (h : SleepActed s t) (g : SleepActed t u) : SleepActed s u := by
  unfold SleepActed at *
  rw [h] at g
  exact g

/-- The power state is the sleep action's own. -/
theorem sleepActed_pwr (p : Power) (s : State) : SleepActed s { s with pwr := p } := rfl

/-- TICK that fires at once abandons the entry, and the wake map may force a course (R116, R164). -/
theorem sleepActed_tickAtOnce (s : State) : SleepActed s (tickAtOnce s) := by
  unfold tickAtOnce
  split
  · split
    · rw [fire, ‹s.pwr.phase = _›]
      dsimp only
      split <;> rfl
    · rfl
  · rfl

/-- A CHAIN record is the Vault's and the engines' affair (R376). -/
theorem sleepActed_offerChain (s : State) : SleepActed s (offerChain s) := by
  unfold offerChain
  split
  · dsimp only
    cases s.vlt.seg <;> rfl
  · rfl

theorem sleepActed_beginEntry (z : Sleep) (b : Bool) (s : State) : SleepActed s (beginEntry z b s) := by
  unfold beginEntry
  refine sleepActed_trans ?_ (sleepActed_tickAtOnce _)
  split
  · exact sleepActed_trans (sleepActed_pwr _ s) (sleepActed_offerChain _)
  · exact sleepActed_pwr _ s

/-- The sleep action begins an entry or records a refusal. -/
theorem sleepActed_sleepAction (d : CourseDef) (s : State) : SleepActed s (sleepAction d s) := by
  unfold sleepAction
  extract_lets target noTick p t
  have ht : SleepActed s t := sleepActed_pwr _ s
  split
  · exact ht
  · split
    · exact sleepActed_trans ht (sleepActed_pwr _ t)
    · split
      · exact sleepActed_trans ht (sleepActed_beginEntry _ _ _)
      · exact ht

/-- What the end of a course leaves of t, from the state s in which it ended. -/
def Ended (s t : State) : Prop :=
  (t.crs.running = false ∧ t.crs.timeUp = false ∧ t.crs.winVault = false ∧ t.crs.winTouch = false ∧ t.crs.winPane = false ∧
    t.crs.lastDur = satOf 16 (courseElapsed s)) ∧ t.ash.scrubLeft = 0 ∧ t.mem = s.mem ∧ t.img = s.img ∧ t.isl = s.isl

theorem courseStop_ended (s : State) : Ended s (courseStop s) := by
  rw [courseStop_eq]
  exact ⟨⟨rfl, rfl, rfl, rfl, rfl, rfl⟩, rfl, rfl, rfl, rfl⟩

theorem courseEnd_ended (s : State) : Ended s (courseEnd s) := by
  unfold courseEnd
  split
  · dsimp only
    rw [sleepActed_sleepAction, checkBound_eq]
    exact courseStop_ended s
  · exact courseStop_ended s

/-- Neither the fabric nor the core that issues ENDT undoes the end of a course. -/
theorem ended_beyond {t : State} (h : Ended s u) (hb : Beyond c u t) : Ended s t := by
  obtain ⟨k, w, ⟨hw, -, -, hcrs, -⟩, ht⟩ := hb
  have hu : Ended s (u.setCore c k) := by cases c <;> exact h
  have hE : Ended s w := by
    rw [hw, hcrs]
    exact hu
  rw [ht]
  cases c <;> exact hE

/-! ### ENDT (R256) -/

/-- The state as ENDT's effect finds it: results landed, the counters moved on, the time told. -/
def atEndt (c : CoreId) (sub : BitVec 10) (s : State) : State := (s.moved c 1).atSub sub

@[simp] theorem atEndt_crs : (atEndt c sub s).crs = { s.crs with subtick := sub } := by cases c <;> rfl

@[simp] theorem atEndt_tasks : (atEndt c sub s).crs.tasks c = s.crs.tasks c := by cases c <;> rfl
@[simp] theorem atEndt_otherEnded : otherEnded c (atEndt c sub s).crs = otherEnded c s.crs := by cases c <;> rfl

/-- Moving on concerns the core that issues. -/
theorem atEndt_setCore {r : CourseEngine} :
    ({ atEndt c sub s with crs := r } : State).setCore c k = ({ s with crs := r } : State).setCore c k := by cases c <;> rfl

/-- The core that ENDT finds outside a slot. -/
theorem atEndt_core (hx : (s.core c).xfer = none) : (atEndt c sub s).core c =
    { s.seen c with pc := (s.seen c).following 1, xfer := none, call := false, fcnt := (s.seen c).fcnt + 1 } := by
  have hn : (s.seen c).xfer = none := landDue_xfer.trans hx
  have hd : (s.seen c).discards = 0 := by rw [Core.discards, hn]
  have ha : (atEndt c sub s).core c = (s.moved c 1).core c := core_of rfl rfl
  rw [ha, moved_core, advancePc_of (.inr (.inl hn)), hd]
  rfl

section
variable (hr : Ready c 1 s) (hx : (s.core c).xfer = none)
include hr hx

/-- Outside a slot ENDT ends its core's task, the fabric settles, and the slot after it is empty (R260). -/
theorem exec_cEndt (hu : taskEnd c (atEndt c sub s) = u.setCore c k) :
    ∃ t, exec (.cEndt c sub) s = .next t ∧ Beyond c u t ∧ Passed 2 k (t.core c) := by
  have hb : Effect.done (emit [] (taskEnd c (atEndt c sub s))) 1 = .done (emit [] (u.setCore c k)) 1 := by rw [hu]
  have hlat : Latched k ((emit [] (u.setCore c k)).core c) := by simpa using emit_latched [] (u.setCore c k) c
  refine ⟨_, rfl, ?_⟩
  rw [issue_done (ready_issuing hr) (ready_check hr (.inl rfl) (noSlot_landDue hx)) hb, State.core_setCore]
  exact ⟨⟨k, _, emit_settled [] _, by rw [State.core_setCore]⟩, passed_of_latched hlat⟩

/-- With a task left, the core goes on at its entry, its return stack empty (R148, R212, R221). -/
theorem endt_next (h : s.crs.tasks c = e :: l) :
    ∃ t, exec (.cEndt c sub) s = .next t ∧ Beyond c { s with crs := withTasks c l { s.crs with subtick := sub } } t ∧
      t.core c = { s.seen c with
        pc := e, xfer := none, call := false, rs := Vector.replicate 8 0, rsP := 0, rsD := 0, fcnt := (s.seen c).fcnt + 1
        lat := (t.core c).lat, ovf := (t.core c).ovf, hit := (t.core c).hit, st := (t.core c).st, stepping := (t.core c).stepping
        haltReq := (t.core c).haltReq, au := { (s.seen c).au with flight := flown 2 (s.seen c).au.flight } } ∧
      ((s.seen c).stepping = false → (t.core c).st = .running ∧ (t.core c).haltReq = (s.seen c).haltReq) := by
  have hst : (s.seen c).st = .running := landDue_st.trans hr.2.1
  obtain ⟨t, he, hb, hp, hkeep⟩ := exec_cEndt hr hx ((taskEnd_next (atEndt_tasks.trans h)).trans atEndt_setCore)
  rw [atEndt_crs] at hb
  rw [atEndt_core hx] at hp hkeep
  refine ⟨t, he, hb, hp, fun hs => ?_⟩
  obtain ⟨h1, h2⟩ := hkeep hs
  exact ⟨by rw [h1]; simp [Core.startTask, hst], by rw [h2]; simp [Core.startTask, hst]⟩

/-- With its list ended and the other core at work, the core goes idle, every register kept. -/
theorem endt_idles (h : s.crs.tasks c = []) (ho : otherEnded c s.crs = false) :
    ∃ t, exec (.cEndt c sub) s = .next t ∧ Beyond c { s with crs := withEnded c { s.crs with subtick := sub } } t ∧
      (t.core c).k = (s.seen c).k ∧ ((s.seen c).stepping = false → (t.core c).st = .idle) := by
  have hst : (s.seen c).st = .running := landDue_st.trans hr.2.1
  obtain ⟨t, he, hb, hp, hkeep⟩ :=
    exec_cEndt hr hx (((taskEnd_last (atEndt_tasks.trans h)).trans (courseEndCheck_other (atEndt_otherEnded.trans ho))).trans
      atEndt_setCore)
  rw [atEndt_crs] at hb
  rw [atEndt_core hx] at hp hkeep
  exact ⟨t, he, hb, by rw [hp]; rfl, fun hs => by rw [(hkeep hs).1]; simp [Core.idle, hst]⟩

/-- When both have ended their lists the running course ends (R149, R150). -/
theorem endt_endsCourse (h : s.crs.tasks c = []) (ho : otherEnded c s.crs = true) (hrun : s.crs.running = true) :
    ∃ t, exec (.cEndt c sub) s = .next t ∧ Ended { s with crs := { s.crs with subtick := sub } } t := by
  have hc : courseEndCheck (listEnded c (atEndt c sub s)) = courseEnd (listEnded c (atEndt c sub s)) :=
    courseEndCheck_both (atEndt_otherEnded.trans ho) (by rw [atEndt_crs]; exact hrun)
  have hE : Ended { s with crs := { s.crs with subtick := sub } } (courseEnd (listEnded c (atEndt c sub s))) := by
    cases c <;> exact courseEnd_ended _
  obtain ⟨t, he, hb, -⟩ := exec_cEndt hr hx ((taskEnd_last (atEndt_tasks.trans h)).trans (hc.trans State.setCore_core.symm))
  exact ⟨t, he, ended_beyond hE hb⟩

end

/-! ### The clauses together -/

/-- Settles O25: `taskEnd` and `courseEndCheck` are told case by case, and `exec_cEndt` says what the core and the world then hold. -/
theorem tasksEndInListOrder : Obligations.TasksEndInListOrder := by
  intro c sub s hr hx k mine otherEnded' crs'
  have hmine : s.crs.tasks c = mine := tasks_eq _ _
  refine ⟨fun e l h => endt_next hr hx (hmine.trans h), fun h ho => endt_idles hr hx (hmine.trans h) ho, fun h ho hrun => ?_⟩
  obtain ⟨t, he, ⟨hstop, htime, hvault, htouch, hpane, hdur⟩, hscrub, hkept⟩ :=
    endt_endsCourse (sub := sub) hr hx (hmine.trans h) ho hrun
  exact ⟨t, he, hstop, htime, hvault, htouch, hpane, hscrub, hdur, hkept⟩

end Laws
end Sys2Proof
end

section
/-!
SUPPORT. Pending occurrences: which operations add them, and that nothing in the fabric or the tick takes one away (R144, R145).
-/
namespace Sys2Proof
namespace Laws
open Machine

variable {n m : BitVec 6} {us : BitVec 10} {g : Bool} {s t u : State} {r : CourseEngine}

/-- An occurrence of course n is pending. -/
def Due (n : BitVec 6) (r : CourseEngine) : Prop := ∃ o ∈ r.pend, o.course = n

/-! ### An occurrence falls due (R144, R156) -/

theorem addDue_pend : (addDue m us g r).pend = r.pend.filter (fun o => o.course != m) ++ [{ course := m, tick := r.tick, us := us }] := by
  have hskip : ∀ o : Occurrence, (skipOccurrence o r).pend = r.pend ∧ (skipOccurrence o r).tick = r.tick := by
    intro o
    rw [skipOccurrence, addRecord_eq]
    exact ⟨rfl, rfl⟩
  unfold addDue
  split
  · cases g
    · simp [hskip]
    · rfl
  · rfl

theorem due_addDue_self : Due m (addDue m us g r) :=
  ⟨_, by rw [addDue_pend]; exact List.mem_append_right _ (List.mem_singleton.mpr rfl), rfl⟩

/-- An occurrence of another course stays, and one of the same course is replaced. -/
theorem due_addDue (h : Due n r) : Due n (addDue m us g r) := by
  by_cases hnm : n = m
  · exact hnm ▸ due_addDue_self
  · obtain ⟨o, ho, hn⟩ := h
    refine ⟨o, ?_, hn⟩
    rw [addDue_pend]
    exact List.mem_append_left _ (List.mem_filter.mpr ⟨ho, by simpa [hn] using hnm⟩)

theorem due_dueAsleep (h : Due n s.crs) : Due n (dueAsleep m us s).crs := by
  unfold dueAsleep
  split
  · exact due_addDue h
  · exact h

theorem due_fallDue (h : Due n s.crs) : Due n (fallDue m us s).crs := by
  unfold fallDue
  split
  · exact due_addDue h
  · exact due_addDue h
  · exact h
  · exact due_dueAsleep h
  · exact due_dueAsleep h
  · exact h

theorem fallDue_awake (hp : s.pwr.phase = .awake) : fallDue m us s = { s with crs := addDue m us s.por.lgActive s.crs } := by
  simp [fallDue, hp]

theorem due_fallDues (l : List (BitVec 6)) (h : Due n s.crs) : Due n (l.foldl (fun t m => fallDue m us t) s).crs :=
  List.foldlRecOn (motive := fun t : State => Due n t.crs) l _ h fun _ ht _ _ => due_fallDue ht

/-- Of the courses that fall due one after the other, each is pending at the end. -/
theorem due_of_mem {l : List (BitVec 6)} (hp : s.pwr.phase = .awake) (hn : n ∈ l) :
    Due n (l.foldl (fun t m => fallDue m us t) s).crs := by
  induction l generalizing s with
  | nil => cases hn
  | cons m l ih =>
    rw [List.foldl_cons, fallDue_awake hp]
    obtain rfl | hn := List.mem_cons.mp hn
    · exact due_fallDues l due_addDue_self
    · exact ih hp hn

/-! ### Offers to the Vault leave the course engine alone (R363 to R373) -/

/-- t is s but for the Vault. -/
def OnlyVault (s t : State) : Prop := t = { s with vlt := t.vlt }

theorem onlyVault_trans (h : OnlyVault s t) (g : OnlyVault t u) : OnlyVault s u := by
  unfold OnlyVault at *
  rw [h] at g
  exact g

theorem onlyVault_vlt (v : Vault) (s : State) : OnlyVault s { s with vlt := v } := rfl

theorem onlyVault_addGap (why : GapCause) (k : BitVec 4) (s : State) : OnlyVault s (addGap why k s) := by
  unfold addGap
  dsimp only
  split <;> rfl

theorem onlyVault_shedOffer (why : GapCause) (k : BitVec 4) (s : State) : OnlyVault s (shedOffer why k s) :=
  onlyVault_trans (onlyVault_vlt _ s) (onlyVault_addGap _ _ _)

theorem onlyVault_writeGap (s : State) : OnlyVault s (writeGap s) := by
  unfold writeGap
  split
  · extract_lets due s1
    split <;> rfl
  · rfl

theorem onlyVault_overload (type : Byte) (k : BitVec 4) (flags : Byte) (room : Nat) (body : List Byte) (c : Bool) (s : State) :
    OnlyVault s (overload type k flags room body c s).2 := by
  unfold overload
  extract_lets v thinnable n c s1
  have h1 : OnlyVault s s1 := by
    simp only [s1]
    split <;> rfl
  split
  · exact onlyVault_trans h1 (onlyVault_vlt _ s1)
  · split
    · exact onlyVault_trans h1 rfl
    · exact onlyVault_trans h1 (onlyVault_shedOffer _ _ s1)

theorem onlyVault_offer (core : Bool) (type : Byte) (k : BitVec 4) (flags : Byte) (bad : BitVec 4) (room : Nat) (body : List Byte)
    (c : Bool) (s : State) : OnlyVault s (offer core type k flags bad room body c s).2 := by
  unfold offer
  split
  · exact onlyVault_shedOffer _ _ s
  · dsimp only
    split
    · exact onlyVault_trans (onlyVault_writeGap s) (onlyVault_overload _ _ _ _ _ _ _)
    · split
      · exact onlyVault_addGap _ _ s
      · split
        · exact onlyVault_shedOffer _ _ s
        · exact rfl

theorem due_offerTrig {i : Nat} (h : Due n s.crs) : Due n (offerTrig i s).crs := by
  have ho : OnlyVault s (offerTrig i s) := onlyVault_offer _ _ _ _ _ _ _ _ s
  rw [ho]
  exact h

/-! ### The fabric settles (R307 to R317, R324) -/

theorem due_lineEdge {i : Nat} {b : Bool} (h : Due n s.crs) : Due n (lineEdge i b s).crs := due_fallDues _ h

theorem due_sinkStep {rise fall line : BitVec 64} (h : Due n s.crs) : Due n (sinkStep rise fall line s).crs := by
  unfold sinkStep
  extract_lets s1 s2 s3 s4
  have h2 : Due n s2.crs := by
    refine List.foldlRecOn (motive := fun t : State => Due n t.crs) _ _ h fun t ht i _ => ?_
    split
    · exact due_lineEdge ht
    · split
      · exact due_lineEdge ht
      · exact ht
  have h3 : Due n s3.crs := by
    simp only [s3]
    split
    · exact due_offerTrig h2
    · exact h2
  simp only [s4]
  split
  · exact due_offerTrig h3
  · exact h3

theorem due_settle (i : Nat) (h : Due n s.crs) : Due n (settle i s).crs := by
  induction i generalizing s with
  | zero => exact h
  | succ i ih =>
    have hr : Due n (settleRound s).1.crs := due_sinkStep (line := outerDrive s ||| cellDrive s.mrt) h
    unfold settle
    dsimp only
    split
    · exact hr
    · exact ih hr

theorem due_wrCheck (h : Due n s.crs) : Due n (wrCheck s).crs := by
  unfold wrCheck
  split
  · dsimp only
    split
    · exact h
    · exact h
  · exact h

/-- What is pending stays pending while the fabric settles. -/
theorem due_emit {ps : List (BitVec 8)} (h : Due n s.crs) : Due n (emit ps s).crs := by
  unfold emit
  split
  · exact due_wrCheck (due_settle _ h)
  · exact h

end Laws
end Sys2Proof
end

section
/-!
O28: the tick, the courses it makes due, and its two sources.
-/
namespace Sys2Proof
namespace Laws
open Machine

variable {n : BitVec 6} {d : CourseDef} {s t u : State} {cal : Option (BitVec 12)} {bad : Bool}

/-! ### The courses of a tick (R142) -/

/-- A tick course whose phase and period meet the tick is one of that tick. -/
theorem mem_tickCourses {r : CourseEngine} (hd : r.table[n.toNat]? = some d) (he : d.event = false) (hp : d.period ≠ 0)
    (hle : r.epoch.toNat + d.phase.toNat ≤ r.tick.toNat) (hdvd : d.period.toNat ∣ (r.tick.toNat - (r.epoch.toNat + d.phase.toNat))) :
    n ∈ tickCourses r := by
  have hlt : n.toNat < r.table.length := (List.getElem?_eq_some_iff.mp hd).1
  have hz : ((List.range r.table.length).zip r.table)[n.toNat]? = some (n.toNat, d) :=
    List.getElem?_zip_eq_some.mpr ⟨List.getElem?_range hlt, hd⟩
  have hdue : tickDue r.epoch r.tick.toNat d = true := by
    simp only [tickDue, he, bne_iff_ne.mpr hp, decide_eq_true hle, Nat.sub_sub, Nat.mod_eq_zero_of_dvd hdvd]
    rfl
  refine List.mem_filterMap.mpr ⟨_, List.mem_of_getElem? hz, ?_⟩
  simp [hdue]

/-! ### What a tick may change -/

/-- t is s but for the power state, messages, kept sources, and what falling due changes in the course engine. -/
def FellDue (s t : State) : Prop :=
  t = { s with pwr := t.pwr, tie := t.tie, isl := t.isl
               crs := { s.crs with pend := t.crs.pend, recs := t.crs.recs, stat := t.crs.stat, skipCnt := t.crs.skipCnt
                                   sleptCnt := t.crs.sleptCnt, forced := t.crs.forced } }

theorem fellDue_trans (h : FellDue s t) (g : FellDue t u) : FellDue s u := by
  unfold FellDue at *
  rw [h] at g
  exact g

theorem fellDue_pwr (p : Power) (s : State) : FellDue s { s with pwr := p } := rfl

theorem fellDue_addDue (n : BitVec 6) (us : BitVec 10) (g : Bool) (s : State) : FellDue s { s with crs := addDue n us g s.crs } := by
  rw [addDue_eq]
  rfl

theorem fellDue_fallDue (n : BitVec 6) (us : BitVec 10) (s : State) : FellDue s (fallDue n us s) := by
  have hasleep : FellDue s (dueAsleep n us s) := by
    unfold dueAsleep
    split
    · exact fellDue_addDue _ _ _ s
    · rfl
  unfold fallDue
  split
  · exact fellDue_addDue _ _ _ s
  · exact fellDue_addDue _ _ _ s
  · rfl
  · exact hasleep
  · exact hasleep
  · rfl

theorem fellDue_fireStarting (n : Nat) (s : State) : FellDue s (fireStarting n s) := by
  unfold fireStarting
  split <;> rfl

/-- A wake source that fires moves the power state, and in an entry it may force a course. -/
theorem fellDue_fire (n : Nat) (s : State) : FellDue s (fire n s) := by
  have hask : ∀ k t, FellDue t (wakeAsk k t) := fun k t => by rw [wakeAsk_eq]; rfl
  unfold fire
  split
  · split <;> rfl
  · split <;> rfl
  · split <;> rfl
  · split
    · rw [wakeFrom_eq]; rfl
    · rfl
  · split
    · dsimp only
      split
      · exact fellDue_trans (fellDue_pwr _ s) (hask 0 _)
      · rfl
    · rfl
  · exact fellDue_fireStarting n s
  · exact fellDue_fireStarting n s
  · rfl

/-! ### The tick (R136, R137, R142) -/

/-- The course engine with the next tick counted, before anything falls due. -/
def ticked (r : CourseEngine) : CourseEngine :=
  { r with tick := satInc r.tick, subtick := 0, onRc := r.onRc && !r.xtalReady, xtalReady := false, trimAge := r.trimAge + 1 }

theorem courseTick_fellDue (s : State) : FellDue { s with crs := ticked s.crs } (courseTick s) := by
  unfold courseTick
  extract_lets r rc r' t t'
  have ht : FellDue { s with crs := ticked s.crs } t' := by
    simp only [t']
    split
    · exact fellDue_fire 9 t
    · rfl
  exact List.foldlRecOn (motive := FellDue { s with crs := ticked s.crs }) _ _ ht fun _ hu m _ => fellDue_trans hu (fellDue_fallDue m 0 _)

/-- In OPEN and AJAR every course of the tick is pending after it. -/
theorem courseTick_due (hp : s.pwr.phase = .awake) (hn : n ∈ tickCourses (ticked s.crs)) : Due n (courseTick s).crs := by
  unfold courseTick
  extract_lets r rc r' t t'
  have ht : t' = t := by
    simp only [t']
    split
    · exact (fire_awake (n := 9) (s := t) hp).trans (if_neg (by decide))
    · rfl
  rw [ht]
  exact due_of_mem hp hn

/-- t is s a tick later, the fabric not yet settled: what it may change, and what the course engine counts. -/
def TickOf (s t : State) : Prop :=
  t = { s with pwr := t.pwr, tie := t.tie, isl := t.isl, por := t.por, vlt := t.vlt, mrt := t.mrt, sill := t.sill, crs := t.crs } ∧
  t.crs = (courseTick s).crs ∧ t.por.ledger = s.por.ledger

/-- The Porter's flags, the Mortar, the Sill and the power state are the tick's to change. -/
theorem tickOf_with (h : TickOf s t) (p : Power) (q : Porter) (x : Mortar) (y : Sill) (hq : q.ledger = t.por.ledger) :
    TickOf s { t with pwr := p, por := q, mrt := x, sill := y } := by
  obtain ⟨heq, hcrs, hled⟩ := h
  exact ⟨by rw [heq], hcrs, hq.trans hled⟩

/-- The state a tick leaves before the fabric settles: course engine, Porter, Vault, and where the main domain works Mortar and Sill. -/
def afterTick (cal : Option (BitVec 12)) (s : State) : State :=
  let t := courseTick s
  let t := { t with por := t.por.tick, vlt := t.vlt.tick
                    pwr.drainTicks := if drains t then t.pwr.drainTicks + 1 else t.pwr.drainTicks }
  if t.mainOn then { t with mrt := mortarTick cal t.mrt, sill.tempDue := true } else t

/-- An offset fault is flagged, and counting stops (R72, R506). -/
def offsetChecked (bad : Bool) (s : State) : State := if bad then counterFault { s with sill.fault := true } else s

theorem exec_tick_on (h : s.derzorOn = true) :
    exec (.tick cal bad) s = .next (emit [] (offsetChecked bad (afterTick cal s))) := by
  change execTick cal bad s = _
  rw [execTick, if_pos h]
  rfl

theorem exec_tick_off (h : s.derzorOn = false) : exec (.tick cal bad) s = .next s := by
  change execTick cal bad s = _
  rw [execTick, if_neg (by rw [h]; decide)]

theorem porterTick_ledger (p : Porter) : p.tick.ledger = p.ledger := by rw [Porter.tick, reclaimed_redecide]

theorem tickOf_afterTick (cal : Option (BitVec 12)) (s : State) : TickOf s (afterTick cal s) := by
  have hpor : (courseTick s).por = s.por := by rw [courseTick_fellDue]
  have hled : (courseTick s).por.tick.ledger = s.por.ledger := by rw [porterTick_ledger, hpor]
  unfold afterTick
  extract_lets t p t'
  have ht : TickOf s t' := ⟨by simp only [t', t]; rw [courseTick_fellDue], rfl, hled⟩
  split
  · exact tickOf_with ht _ _ _ _ rfl
  · exact ht

theorem tickOf_offsetChecked (h : TickOf s t) : TickOf s (offsetChecked bad t) := by
  unfold offsetChecked
  split
  · exact tickOf_with h _ _ _ _ rfl
  · exact h

/-- The count, its source and the running course stand as `ticked` gives them once the fabric has settled. -/
theorem tickOf_counts (h : TickOf s t) : (emit [] t).crs.tick = satInc s.crs.tick ∧ (emit [] t).crs.subtick = 0 ∧
    (emit [] t).crs.onRc = (s.crs.onRc && !s.crs.xtalReady) ∧ (emit [] t).crs.running = s.crs.running ∧
    (emit [] t).crs.table = s.crs.table := by
  rw [(emit_settled [] t).2.2.2.1, h.2.1, courseTick_fellDue]
  exact ⟨rfl, rfl, rfl, rfl, rfl⟩

/-- Registers, program counters, memory and the ledger stand as before the tick. -/
theorem tickOf_keeps (h : TickOf s t) : (emit [] t).por.ledger = s.por.ledger ∧
    (∀ c, ((emit [] t).core c).k = (s.core c).k ∧ ((emit [] t).core c).pc = (s.core c).pc) ∧ (emit [] t).mem = s.mem ∧
    (emit [] t).img = s.img ∧ (emit [] t).pin = s.pin ∧ (emit [] t).rtc = s.rtc ∧ (emit [] t).sec = s.sec := by
  obtain ⟨heq, -, hled⟩ := h
  have hcore : ∀ c, t.core c = s.core c := fun c => by rw [heq]; exact core_of rfl rfl
  refine ⟨by rw [emit_por, hled], fun c => ⟨by rw [emit_core_k, hcore], by rw [emit_core_pc, hcore]⟩, ?_⟩
  rw [emit_mem, emit_img, emit_pin, emit_rtc, emit_sec, heq]
  exact ⟨rfl, rfl, rfl, rfl, rfl⟩

theorem offsetChecked_fault (h : bad = true) : (offsetChecked bad t).por.cntFault = true ∧
    (offsetChecked bad t).por.counterDead = true ∧ (offsetChecked bad t).sill.fault = true := by
  rw [offsetChecked, if_pos h]
  exact ⟨rfl, rfl, rfl⟩

/-! ### The RC's trim (R139) -/

theorem exec_rcTrim_crystal (h : s.crs.onRc = false) : exec .rcTrim s = .next { s with crs.trimAge := 0 } :=
  congrArg Host.Outcome.next (if_neg (by rw [h]; decide))

theorem exec_rcTrim_rc (h : s.crs.onRc = true) : exec .rcTrim s = .next s := congrArg Host.Outcome.next (if_pos h)

/-! ### The clauses together -/

/-- Settles O28: the tick is `afterTick` with the offset fault flagged and the fabric settled. What it counts is `tickOf_counts`,
what it keeps `tickOf_keeps`; a course of the tick is pending by `courseTick_due`, and stays so by `due_emit`. -/
theorem tickAdvancesTimeAndMakesCoursesDue : Obligations.TickAdvancesTimeAndMakesCoursesDue := by
  intro s cal bad
  refine ⟨fun h => ⟨_, exec_tick_on h, ?_⟩, exec_tick_off, rfl, rfl, exec_rcTrim_crystal, exec_rcTrim_rc⟩
  have hfault := offsetChecked_fault (bad := bad) (t := afterTick cal s)
  have hv := tickOf_offsetChecked (bad := bad) (tickOf_afterTick cal s)
  generalize offsetChecked bad (afterTick cal s) = v at *
  have hdue : ∀ n, Due n (courseTick s).crs → Due n (emit [] v).crs := fun n hn => due_emit (hv.2.1 ▸ hn)
  obtain ⟨htick, hsub, hrc, hrun, htable⟩ := tickOf_counts hv
  obtain ⟨hled, hcore, hmem, himg, hpin, hrtc, hsec⟩ := tickOf_keeps hv
  refine ⟨htick, hsub, hrc, hrun, htable, hled, (hcore .a).1, (hcore .b).1, (hcore .a).2, (hcore .b).2, hmem, himg, hpin, hrtc, hsec,
    fun hb => ?_, fun hp n d hd he hper hle hdvd _ => hdue n (courseTick_due hp ?_)⟩
  · rw [emit_por, emit_sill]
    exact hfault hb
  · rw [htick] at hle hdvd
    exact mem_tickCourses (r := ticked s.crs) hd he hper hle hdvd

end Laws
end Sys2Proof
end

section
/-!
O45: the store service, message by message.
-/
namespace Sys2Proof
namespace Laws
open Machine

variable {i : Instr} {op why : Byte} {b : List Byte} {f : SvcMsg → State → State} {s : State} {m : SvcMsg} {rest : List SvcMsg}
  {n : Bool} {k : Slot} {e : Session} {x : Store}

/-! ### The slots of a store -/

@[simp] theorem slot_putSlot : (x.putSlot n k).slot n = k := by cases n <;> rfl
@[simp] theorem slot_not_putSlot : (x.putSlot n k).slot (!n) = x.slot (!n) := by cases n <;> rfl
@[simp] theorem putSlot_svc : (x.putSlot n k).svc = x.svc := by cases n <;> rfl
@[simp] theorem putSlot_replies : (x.putSlot n k).replies = x.replies := by cases n <;> rfl

/-! ### One message, one reply (R189, R395) -/

/-- Message m stands at the front of the service's queue, `rest` behind it, and the service works. -/
def Fronts (m : SvcMsg) (rest : List SvcMsg) (s : State) : Prop :=
  s.img.svc = m :: rest ∧ (s.mainOn = true ∨ s.pwr.phase = .noImage)

/-- The part with store x once m is answered with b: m has left the queue, and its reply waits behind the earlier ones. -/
def answered (m : SvcMsg) (rest : List SvcMsg) (s : State) (b : List Byte) (x : Store) : State :=
  { s with img := { x with svc := rest, replies := s.img.replies ++ [{ m with payload := b }] } }

theorem svcReply_put (hsvc : x.svc = m :: rest) (hrep : x.replies = s.img.replies) :
    svcReply m b { s with img := x } = answered m rest s b x := by
  simp [svcReply, answered, hsvc, hrep]

theorem svcReply_front (h : Fronts m rest s) : svcReply m b s = answered m rest s b s.img :=
  svcReply_put (s := s) h.1 rfl

/-- The service takes the front message of its opcode. -/
theorem served (h : Fronts m rest s) (ho : m.opcode = op) : (m.opcode = op && (s.mainOn || s.pwr.phase == .noImage)) = true := by
  simpa [ho] using h.2

/-- A message refused before its slot is looked at. -/
theorem serve_refused (hi : exec i s = serve op f s) (h : Fronts m rest s) (ho : m.opcode = op) (hr : svcRefusal m s = some why) :
    exec i s = .next (answered m rest s [why] s.img) := by
  rw [hi, serve, h.1]
  simp only [if_pos (served h ho), hr, svcReply_front h]

/-- A message that the service carries out. -/
theorem serve_gives {t : State} (hi : exec i s = serve op f s) (h : Fronts m rest s) (ho : m.opcode = op) (hr : svcRefusal m s = none)
    (hf : f m s = t) : exec i s = .next t := by
  rw [hi, serve, h.1]
  simp only [if_pos (served h ho), hr, hf]

/-- A message that its operation refuses, or answers without a change. -/
theorem serve_says (hi : exec i s = serve op f s) (h : Fronts m rest s) (ho : m.opcode = op) (hr : svcRefusal m s = none)
    (hf : f m s = svcReply m b s) : exec i s = .next (answered m rest s b s.img) :=
  serve_gives hi h ho hr (hf.trans (svcReply_front h))

theorem exec_slotQuery : exec .slotQuery s = serve 0xF1 (fun m s => svcReply m (queryReply s) s) s := rfl
theorem exec_slotOpen : exec .slotOpen s = serve 0xF2 openOp s := rfl
theorem exec_slotWrite : exec .slotWrite s = serve 0xF3 writeOp s := rfl
theorem exec_slotClose : exec .slotClose s = serve 0xF4 closeOp s := rfl
theorem exec_slotCommit : exec .slotCommit s = serve 0xF5 commitOp s := rfl
theorem exec_slotAbort : exec .slotAbort s = serve 0xF6 abortOp s := rfl
theorem exec_slotUnstage : exec .slotUnstage s = serve 0xF7 unstageOp s := rfl

/-! ### Refusals in their order (R188, R189, log entry 23) -/

/-- The message's port has the right to update, or no image runs. -/
def MayUpdate (m : SvcMsg) (s : State) : Prop := s.img.active = none ∨ s.img.updPorts.getLsbD (portIdx m.port) = true

/-- The part takes such a message: the port has the right, the lifecycle lets it, and no last gasp runs. -/
def Taken (m : SvcMsg) (s : State) : Prop :=
  MayUpdate m s ∧ (s.sec.lc ≠ .retired ∨ m.opcode = 0xF1) ∧ s.por.lgActive = false

/-- Another port's session is open. -/
def OthersSession (m : SvcMsg) (s : State) : Prop := ∃ e, s.img.sess = some e ∧ e.port ≠ m.port

theorem svcRefusal_noRight (ha : s.img.active ≠ none) (hp : s.img.updPorts.getLsbD (portIdx m.port) = false) :
    svcRefusal m s = some 2 := by
  have hs : s.img.active.isSome = true := Option.isSome_iff_ne_none.mpr ha
  rw [svcRefusal, if_pos (by rw [hs, hp]; rfl)]
  rfl

theorem not_noRight (h : MayUpdate m s) : (s.img.active.isSome && !s.img.updPorts.getLsbD (portIdx m.port)) = false := by
  obtain h | h := h <;> simp [h]

theorem svcRefusal_retired (h : MayUpdate m s) (hl : s.sec.lc = .retired) (ho : m.opcode ≠ 0xF1) : svcRefusal m s = some 2 := by
  simp only [svcRefusal, not_noRight h, Bool.false_eq_true, if_false]
  exact if_pos (by simpa [hl] using ho)

theorem not_retired (hl : s.sec.lc ≠ .retired ∨ m.opcode = 0xF1) : (decide (s.sec.lc = .retired) && m.opcode != 0xF1) = false := by
  obtain hl | hl := hl <;> simp [hl]

theorem svcRefusal_lastGasp (h : MayUpdate m s) (hl : s.sec.lc ≠ .retired ∨ m.opcode = 0xF1) (hg : s.por.lgActive = true) :
    svcRefusal m s = some 7 := by
  rw [svcRefusal, not_noRight h, not_retired hl, hg]
  rfl

/-- What is left of the refusals for a message that the part takes. -/
theorem svcRefusal_taken (h : Taken m s) : svcRefusal m s =
    if s.img.sess.any (fun e => e.port != m.port) && sessionOp m.opcode then some 1
    else if s.img.sess.isNone && insideOp m.opcode then some 3
    else if !svcLengthOk m.opcode m.payload.length then some 4
    else if !svcSlotOk m then some 3
    else none := by
  obtain ⟨hr, hl, hg⟩ := h
  simp only [svcRefusal, not_noRight hr, not_retired hl, hg, Bool.false_eq_true, if_false]
  cases s.img.sess <;> rfl

theorem svcRefusal_busy (h : Taken m s) (hs : OthersSession m s) (ho : sessionOp m.opcode = true) : svcRefusal m s = some 1 := by
  obtain ⟨e, he, hp⟩ := hs
  simp [svcRefusal_taken h, he, hp, ho]

theorem svcRefusal_noSession (h : Taken m s) (hs : s.img.sess = none) (ho : insideOp m.opcode = true) : svcRefusal m s = some 3 := by
  simp [svcRefusal_taken h, hs, ho]

/-- A message in its own session, or of those that need none, of the right length and with a slot number, is carried out. -/
theorem svcRefusal_none (h : Taken m s) (hb : sessionOp m.opcode = true → ¬ OthersSession m s)
    (hi : insideOp m.opcode = true → s.img.sess ≠ none) (hl : svcLengthOk m.opcode m.payload.length = true) (hn : svcSlotOk m = true) :
    svcRefusal m s = none := by
  rw [svcRefusal_taken h, if_neg, if_neg, hl, hn]
  · rfl
  · simpa using fun hs ho => hi ho hs
  · simp only [Bool.and_eq_true, Option.any_eq_true, bne_iff_ne, not_and]
    exact fun hs ho => hb ho hs

theorem not_othersSession (hs : s.img.sess = some e) (hp : e.port = m.port) : ¬ OthersSession m s := by
  rintro ⟨e', he, hne⟩
  obtain rfl := Option.some.inj (hs.symm.trans he)
  exact hne hp

theorem not_othersSession_of_none (hs : s.img.sess = none) : ¬ OthersSession m s := by
  rintro ⟨e, he, -⟩
  simp [hs] at he

/-- A message of its own session, of the right length. -/
theorem svcRefusal_own (h : Taken m s) (hs : s.img.sess = some e) (hp : e.port = m.port)
    (hl : svcLengthOk m.opcode m.payload.length = true) (hn : svcSlotOk m = true) : svcRefusal m s = none :=
  svcRefusal_none h (fun _ => not_othersSession hs hp) (fun _ => by simp [hs]) hl hn

/-! ### QUERY (R583) -/

@[simp] theorem leBytes_length (w v : Nat) : (leBytes w v).length = w := by
  induction w generalizing v with
  | zero => rfl
  | succ w ih => rw [leBytes, List.length_cons, ih]

@[simp] theorem beBytes_length (w v : Nat) : (beBytes w v).length = w := by rw [beBytes, List.length_reverse, leBytes_length]

theorem slotBlock_length (k : Slot) : (slotBlock k).length = 24 := by simp [slotBlock]

theorem queryReply_length (s : State) : (queryReply s).length = 52 := by simp [queryReply, slotBlock_length]

/-! ### The slot number -/

/-- The payload begins with slot n's number. -/
def Names (m : SvcMsg) (n : Bool) : Prop := m.payload.head? = some (if n then 1 else 0)

theorem svcSlot_eq (h : Names m n) : svcSlot m = n := by
  obtain ⟨l, hl⟩ := List.head?_eq_some_iff.mp h
  cases n <;> simp [svcSlot, hl]

theorem svcSlotOk_of (h : Names m n) : svcSlotOk m = true := by
  obtain ⟨l, hl⟩ := List.head?_eq_some_iff.mp h
  cases n <;> simp [svcSlotOk, hl]

/-! ### OPEN (R187, R190) -/

/-- A length that OPEN takes. -/
def LengthOk (len : Nat) : Prop := 8 ≤ len ∧ len ≤ 196576 ∧ len % 8 = 0

theorem openOp_inUse (hs : s.img.sess ≠ none ∨ s.img.active = some (svcSlot m)) : openOp m s = svcReply m [3] s :=
  if_pos (by simpa [Option.isSome_iff_ne_none] using hs)

section
variable {w : BitVec 16} (hn : svcSlot m = n) (hs : s.img.sess = none) (ha : s.img.active ≠ some n)
include hn hs ha

theorem openOp_badLength (hl : ¬ LengthOk (ofBe (m.payload.drop 1))) : openOp m s = svcReply m [4] s := by
  unfold openOp LengthOk at *
  generalize ofBe (m.payload.drop 1) = len at *
  have hbad : (len < 8 ∨ 196576 < len) ∨ len % 8 ≠ 0 := by omega
  simp only [hn, hs]
  rw [if_neg (by simpa using ha), if_pos (by simpa using hbad)]
  rfl

theorem openOp_slot (hl : LengthOk (ofBe (m.payload.drop 1))) : openOp m s = if slotWorn (s.img.slot n) then svcReply m [6] s else
    svcReply m [0] { s with img := { s.img.putSlot n (slotOpened (s.img.slot n)) with
      sess := some { port := m.port, slot := n, len := ofBe (m.payload.drop 1), next := 0 } } } := by
  unfold openOp LengthOk at *
  generalize ofBe (m.payload.drop 1) = len at *
  have hok : ¬ ((len < 8 ∨ 196576 < len) ∨ len % 8 ≠ 0) := by omega
  simp only [hn, hs]
  rw [if_neg (by simpa using ha), if_neg (by simpa using hok)]
  rfl

theorem openOp_worn (hl : LengthOk (ofBe (m.payload.drop 1))) (hw : (s.img.slot n).writes = some w) (hge : 10000 ≤ w.toNat) :
    openOp m s = svcReply m [6] s := by
  rw [openOp_slot hn hs ha hl, if_pos (by simp [slotWorn, hw, hge])]

theorem openOp_opens (h : Fronts m rest s) (hl : LengthOk (ofBe (m.payload.drop 1))) (hw : (s.img.slot n).writes = some w)
    (hlt : w.toNat < 10000) : openOp m s = answered m rest s [0]
      { s.img.putSlot n { s.img.slot n with code := [], str := [], st := .writing, writes := some (w + 1) } with
        sess := some { port := m.port, slot := n, len := ofBe (m.payload.drop 1), next := 0 } } := by
  have hinc : satInc w = w + 1 := if_neg fun hmax => by
    rw [hmax] at hlt
    exact absurd hlt (by decide)
  have hopened : slotOpened (s.img.slot n) = { s.img.slot n with code := [], str := [], st := .writing, writes := some (w + 1) } := by
    simp [slotOpened, hw, hinc]
  rw [openOp_slot hn hs ha hl, if_neg (by simp [slotWorn, hw, hlt]), hopened]
  exact svcReply_put (putSlot_svc.trans h.1) putSlot_replies

end

/-! ### WRITE (R176, R179, R188) -/

/-- Bytes that no CODE section claims go to the structure region in a row. -/
theorem placeBytes_noCode (key nonce : List Byte) (o : Nat) (l : List Byte) (k : Slot) :
    placeBytes none key nonce o l k = { k with str := Bytes.writeL 0xFF k.str o l } := by
  induction l generalizing o k with
  | nil => rfl
  | cons b l ih => exact ih (o + 1) { k with str := Bytes.write 0xFF k.str o b }

section
variable (hs : s.img.sess = some e)
include hs

theorem writeOp_outOfOrder (ho : ofBe (m.payload.take 4) ≠ e.next) : writeOp m s = svcReply m [5] s := by
  simp [writeOp, hs, ho, svcOrder]

theorem writeOp_tooLong (ho : ofBe (m.payload.take 4) = e.next) (hl : e.len < ofBe (m.payload.take 4) + (m.payload.drop 4).length) :
    writeOp m s = svcReply m [4] s := by
  simp only [writeOp, hs]
  rw [if_neg (not_not.mpr ho), if_pos (by simp only [hl, decide_true, Bool.true_or])]
  rfl

theorem writeOp_places (h : Fronts m rest s) (ho : ofBe (m.payload.take 4) = e.next)
    (hl : ofBe (m.payload.take 4) + (m.payload.drop 4).length ≤ e.len)
    (hroom : ofBe (m.payload.take 4) + (m.payload.drop 4).length ≤ 65504)
    (hc : codeSect (tableAfter (s.img.slot e.slot) (ofBe (m.payload.take 4)) (m.payload.drop 4)) = none) :
    writeOp m s = answered m rest s [0]
      { s.img.putSlot e.slot { s.img.slot e.slot with
          str := Bytes.writeL 0xFF (s.img.slot e.slot).str (ofBe (m.payload.take 4)) (m.payload.drop 4) } with
        sess := some { e with next := ofBe (m.payload.take 4) + (m.payload.drop 4).length } } := by
  have hplace : ((List.range (m.payload.drop 4).length).all fun j => placeOk none (ofBe (m.payload.take 4) + j)) = true := by
    simp only [List.all_eq_true, List.mem_range, placeOk, decide_eq_true_eq]
    omega
  simp only [writeOp, hs, hc, placeBytes_noCode]
  rw [if_neg (not_not.mpr ho), if_neg (by simp [hplace, -List.length_drop, Nat.not_lt.mpr hl])]
  exact svcReply_put (putSlot_svc.trans h.1) putSlot_replies

end

/-! ### CLOSE (R186, R187, R527) -/

section
variable {x : Sec} {g : Option EngUser}

/-- Verification looks at keys, floor and lifecycle, not at who has the engines. -/
theorem plainBodies_engine (st : List Byte) (l : List Sect) : plainBodies { x with engine := g } st l = plainBodies x st l := by
  induction l with
  | nil => rfl
  | cons e l ih =>
    rw [plainBodies, plainBodies, ih]
    rfl

theorem verifySlot_engine {signed : Bool} : verifySlot { x with engine := g } signed k = verifySlot x signed k := by
  have hkey : keyOk { x with engine := g } k.stream = keyOk x k.stream := rfl
  have hroll : rollbackOk { x with engine := g } k.stream = rollbackOk x k.stream := rfl
  rw [verifySlot, verifySlot, verifyStream, verifyStream, hkey, hroll, plainBodies_engine]

theorem engAsk_idle (he : x.engine = none) : engAsk .service x = { x with engine := some .service } := by
  simp [engAsk, he, Sec.setSt]

/-- With nobody waiting, engines taken and released stand as before. -/
theorem engDone_taken (he : x.engine = none) (hw : x.waiters = []) : engDone { x with engine := some .service } = x := by
  have hnext : engNext x.waiters = none := by rw [hw]; rfl
  simp only [engDone, hnext]
  rw [← he]

end

/-- The part with the engines at the service's job. -/
def atJob (s : State) : State := { s with sec := { s.sec with engine := some .service } }

theorem closeNow_sec : (closeNow m e s).sec = s.sec := by
  unfold closeNow
  dsimp only
  split <;> rfl

theorem closeOp_idle (hs : s.img.sess = some e) (he : s.sec.engine = none) (hw : s.sec.waiters = []) :
    closeOp m s = { closeNow m e (atJob s) with sec := s.sec } := by
  have hidle : ¬ (decide (s.sec.engine = some .service) || s.sec.waiters.contains .service) = true := by simp [he, hw]
  have hdone : engDone (closeNow m e (atJob s)).sec = s.sec := by rw [closeNow_sec, atJob, engDone_taken he hw]
  rw [closeOp, hs]
  dsimp only
  rw [if_neg hidle, engAsk_idle he]
  change (if (atJob s).sec.engine = some .service then { closeNow m e (atJob s) with sec := engDone (closeNow m e (atJob s)).sec }
    else atJob s) = _
  rw [if_pos (c := (atJob s).sec.engine = some .service) rfl, hdone]

section
variable (h : Fronts m rest s)
include h

theorem closeNow_standby {ps : List (Nat × List Byte)} (hv : verifySlot s.sec true (s.img.slot e.slot) = .inr ps) :
    closeNow m e s = answered m rest s [0]
      { s.img.putSlot e.slot { s.img.slot e.slot with st := .standby } with sess := none } := by
  simp only [closeNow, hv]
  exact svcReply_put (putSlot_svc.trans h.1) putSlot_replies

theorem closeNow_failed {why : BitVec 3} (hv : verifySlot s.sec true (s.img.slot e.slot) = .inl why) :
    closeNow m e s = answered m rest s [0x10 + why.setWidth 8]
      { s.img.putSlot e.slot { s.img.slot e.slot with st := .failed, fails := satInc (s.img.slot e.slot).fails, reason := why } with
        sess := none } := by
  simp only [closeNow, hv]
  exact svcReply_put (putSlot_svc.trans h.1) putSlot_replies

variable (hs : s.img.sess = some e) (he : s.sec.engine = none) (hw : s.sec.waiters = [])
include hs he hw

theorem closeOp_standby {ps : List (Nat × List Byte)} (hv : verifySlot s.sec true (s.img.slot e.slot) = .inr ps) :
    closeOp m s = answered m rest s [0]
      { s.img.putSlot e.slot { s.img.slot e.slot with st := .standby } with sess := none } := by
  rw [closeOp_idle hs he hw, closeNow_standby (s := atJob s) h (verifySlot_engine.trans hv)]
  rfl

theorem closeOp_failed {why : BitVec 3} (hv : verifySlot s.sec true (s.img.slot e.slot) = .inl why) :
    closeOp m s = answered m rest s [0x10 + why.setWidth 8]
      { s.img.putSlot e.slot { s.img.slot e.slot with st := .failed, fails := satInc (s.img.slot e.slot).fails, reason := why } with
        sess := none } := by
  rw [closeOp_idle hs he hw, closeNow_failed (s := atJob s) h (verifySlot_engine.trans hv)]
  rfl

end

/-! ### ABORT and UNSTAGE (R186, R187) -/

theorem abortOp_empties (h : Fronts m rest s) (hs : s.img.sess = some e) : abortOp m s = answered m rest s [0]
    { s.img.putSlot e.slot { s.img.slot e.slot with st := .empty } with sess := none } := by
  simp only [abortOp, hs]
  exact svcReply_put (putSlot_svc.trans h.1) putSlot_replies

theorem unstaged_of_staged (h : k.st = .staged) : k.unstaged = { k with st := .standby } := if_pos h

theorem unstaged_of_not (h : k.st ≠ .staged) : k.unstaged = k := if_neg h

theorem unstaged_not_staged : k.unstaged.st ≠ .staged := by
  by_cases h : k.st = .staged
  · simp [unstaged_of_staged h]
  · rwa [unstaged_of_not h]

theorem unstageOp_staged (h : Fronts m rest s) (hs : s.img.slot0.st = .staged ∨ s.img.slot1.st = .staged) :
    unstageOp m s = answered m rest s [0]
      { s.img with slot0 := s.img.slot0.unstaged, slot1 := s.img.slot1.unstaged } := by
  rw [unstageOp, if_pos (by simpa using hs)]
  exact svcReply_put h.1 rfl

theorem unstageOp_none (h0 : s.img.slot0.st ≠ .staged) (h1 : s.img.slot1.st ≠ .staged) : unstageOp m s = svcReply m [3] s :=
  if_neg (by simp [h0, h1])

/-! ### COMMIT (R184, R186, R588) -/

theorem commitOp_refused (hn : svcSlot m = n) (hs : s.img.active = some n ∨ (s.img.slot n).st ≠ .standby) :
    commitOp m s = svcReply m [3] s := by
  rw [commitOp, hn]
  exact if_pos (by simpa using hs)

/-- The store with slot n staged, the other slot no longer so, and no digest held. -/
def stagedStore (n : Bool) (x : Store) : Store :=
  { (x.putSlot (!n) (x.slot (!n)).unstaged).putSlot n { x.slot n with st := .staged } with digest := none }

theorem commitOp_stages (h : Fronts m rest s) (hn : svcSlot m = n) (ha : s.img.active ≠ some n) (hst : (s.img.slot n).st = .standby) :
    commitOp m s = bootGoesOn n { answered m rest s [0] (stagedStore n s.img) with isl.digest := none } := by
  have hput : svcReply m [0] { s with img := stagedStore n s.img, isl.digest := none } =
      { answered m rest s [0] (stagedStore n s.img) with isl.digest := none } :=
    svcReply_put (s := { s with isl.digest := none }) (by simp [stagedStore, h.1]) (by simp [stagedStore])
  rw [commitOp, hn]
  dsimp only
  rw [if_neg (by simp [ha, hst]), ← hput]
  rfl

theorem bootGoesOn_noImage (hp : s.pwr.phase = .noImage) :
    bootGoesOn n s = { s with pwr.phase := .boot, img := { s.img with order := [n], tried := false, reload := false } } := if_pos hp

theorem bootGoesOn_elsewhere (hp : s.pwr.phase ≠ .noImage) : bootGoesOn n s = s := if_neg hp

/-- What a COMMIT that is carried out leaves: its slot staged alone, no digest held, and a boot without an image that goes on. -/
theorem commitOp_committed (h : Fronts m rest s) (hn : svcSlot m = n) (ha : s.img.active ≠ some n) (hst : (s.img.slot n).st = .standby) :
    ∃ x, commitOp m s = { s with img := x, isl.digest := none, pwr.phase := if s.pwr.phase = .noImage then .boot else s.pwr.phase } ∧
      x.slot n = { s.img.slot n with st := .staged } ∧ x.digest = none ∧ (x.slot (!n)).st ≠ .staged ∧
      x.replies = s.img.replies ++ [{ m with payload := [0] }] ∧ x.svc = rest ∧ (s.pwr.phase = .noImage → x.order = [n]) := by
  have hself : (stagedStore n s.img).slot n = { s.img.slot n with st := .staged } := slot_putSlot
  have hother : (stagedStore n s.img).slot (!n) = (s.img.slot (!n)).unstaged := slot_not_putSlot.trans slot_putSlot
  rw [commitOp_stages h hn ha hst]
  generalize hu : ({ answered m rest s [0] (stagedStore n s.img) with isl.digest := none } : State) = u
  have hphase : u.pwr.phase = s.pwr.phase := by
    rw [← hu]
    rfl
  by_cases hp : s.pwr.phase = .noImage
  · refine ⟨{ (answered m rest s [0] (stagedStore n s.img)).img with order := [n], tried := false, reload := false },
      (bootGoesOn_noImage (hphase.trans hp)).trans ?_, hself, rfl, ?_, rfl,
      rfl, fun _ => rfl⟩
    · rw [if_pos hp, ← hu]
      rfl
    · exact fun hc => unstaged_not_staged (hother ▸ hc)
  · refine ⟨(answered m rest s [0] (stagedStore n s.img)).img, (bootGoesOn_elsewhere (hphase ▸ hp)).trans ?_, hself, rfl, ?_,
      rfl, rfl, fun hc => absurd hc hp⟩
    · rw [if_neg hp, ← hu]
      rfl
    · exact fun hc => unstaged_not_staged (hother ▸ hc)

/-! ### Which messages are carried out (R188, R189) -/

section
variable (ht : Taken m s)
include ht

theorem query_accepted (ho : m.opcode = 0xF1) (hp : m.payload = []) : svcRefusal m s = none :=
  svcRefusal_none ht (by rw [ho]; nofun) (by rw [ho]; nofun) (by rw [ho, hp]; rfl) (by rw [svcSlotOk, ho]; rfl)

/-- An OPEN of slot n of the right length, with no session open. -/
theorem open_accepted (ho : m.opcode = 0xF2) (hs : s.img.sess = none) (hlen : m.payload.length = 5) (hn : Names m n) :
    svcRefusal m s = none :=
  svcRefusal_none ht (fun _ => not_othersSession_of_none hs) (by rw [ho]; nofun) (by rw [ho, hlen]; rfl) (svcSlotOk_of hn)

/-- COMMIT needs no session. -/
theorem commit_accepted (ho : m.opcode = 0xF5) (hp : m.payload = [if n then 1 else 0]) : svcRefusal m s = none :=
  svcRefusal_none ht (by rw [ho]; nofun) (by rw [ho]; nofun) (by rw [ho, hp]; rfl) (svcSlotOk_of (n := n) (by rw [Names, hp]; rfl))

/-- Nor does UNSTAGE. -/
theorem unstage_accepted (ho : m.opcode = 0xF7) (hp : m.payload = []) : svcRefusal m s = none :=
  svcRefusal_none ht (by rw [ho]; nofun) (by rw [ho]; nofun) (by rw [ho, hp]; rfl) (by rw [svcSlotOk, ho]; rfl)

/-- WRITE, CLOSE and ABORT in their own session, of the right length. -/
theorem session_accepted (hs : s.img.sess = some e) (hp : e.port = m.port) (hi : insideOp m.opcode = true)
    (hl : svcLengthOk m.opcode m.payload.length = true) : svcRefusal m s = none := by
  refine svcRefusal_own ht hs hp hl (if_neg ?_)
  rw [Bool.or_eq_true, decide_eq_true_eq, decide_eq_true_eq]
  rintro (ho | ho) <;> (rw [ho] at hi; cases hi)

/-- A second OPEN in the port's own session: its slot byte does not matter. -/
theorem open_inSession (h : Fronts m rest s) (ho : m.opcode = 0xF2) (hs : s.img.sess = some e) (hp : e.port = m.port)
    (hlen : m.payload.length = 5) : exec .slotOpen s = .next (answered m rest s [3] s.img) := by
  have hl : svcLengthOk m.opcode m.payload.length = true := by rw [ho, hlen]; rfl
  by_cases hn : svcSlotOk m = true
  · exact serve_says exec_slotOpen h ho (svcRefusal_own ht hs hp hl hn) (openOp_inUse (.inl (by simp [hs])))
  · refine serve_refused exec_slotOpen h ho ?_
    rw [svcRefusal_taken ht]
    simp [hs, hp, hl, hn]

end

/-! ### The clauses, message by message -/

/-- An OPEN with no session open: refused for the active slot, the length or wear, else carried out. -/
theorem open_clauses (h : Fronts m rest s) (ht : Taken m s) (ho : m.opcode = 0xF2) (hs : s.img.sess = none)
    (hlen : m.payload.length = 5) (hn : Names m n) :
    (s.img.active = some n → exec .slotOpen s = .next (answered m rest s [3] s.img)) ∧
    (s.img.active ≠ some n → ¬ LengthOk (ofBe (m.payload.drop 1)) → exec .slotOpen s = .next (answered m rest s [4] s.img)) ∧
    (s.img.active ≠ some n → LengthOk (ofBe (m.payload.drop 1)) → ∀ w, (s.img.slot n).writes = some w →
      (10000 ≤ w.toNat → exec .slotOpen s = .next (answered m rest s [6] s.img)) ∧
      (w.toNat < 10000 → exec .slotOpen s = .next (answered m rest s [0]
        { s.img.putSlot n { s.img.slot n with code := [], str := [], st := .writing, writes := some (w + 1) } with
          sess := some { port := m.port, slot := n, len := ofBe (m.payload.drop 1), next := 0 } }))) := by
  have hacc := open_accepted ht ho hs hlen hn
  have hslot := svcSlot_eq hn
  refine ⟨fun ha => ?_, fun ha hbad => ?_, fun ha hl w hw => ⟨fun hge => ?_, fun hlt => ?_⟩⟩
  · exact serve_says exec_slotOpen h ho hacc (openOp_inUse (.inr (hslot.symm ▸ ha)))
  · exact serve_says exec_slotOpen h ho hacc (openOp_badLength hslot hs ha hbad)
  · exact serve_says exec_slotOpen h ho hacc (openOp_worn hslot hs ha hl hw hge)
  · exact serve_gives exec_slotOpen h ho hacc (openOp_opens hslot hs ha h hl hw hlt)

theorem write_lengthOk {l : Nat} (hmin : 12 ≤ l) (hmax : l ≤ 500) (hmod : (l - 4) % 8 = 0) : svcLengthOk 0xF3 l = true := by
  simp [svcLengthOk, hmin, hmax, hmod]

/-- What a WRITE that is carried out leaves in its slot. -/
theorem write_placed {g : Option Session} {l : List Byte} {o : Nat} {t : State}
    (ht : t = answered m rest s b { s.img.putSlot n { s.img.slot n with str := Bytes.writeL 0xFF (s.img.slot n).str o l } with sess := g })
    (hwf : Bytes.wf 0xFF (s.img.slot n).str = true) :
    t = answered m rest s b { s.img.putSlot n (t.img.slot n) with sess := g } ∧ (t.img.slot n).st = (s.img.slot n).st ∧
    ∀ a, Bytes.read 0xFF (t.img.slot n).str a =
      if o ≤ a ∧ a < o + l.length then l.getD (a - o) 0 else Bytes.read 0xFF (s.img.slot n).str a := by
  have hslot : t.img.slot n = { s.img.slot n with str := Bytes.writeL 0xFF (s.img.slot n).str o l } := by
    rw [ht]
    exact slot_putSlot
  rw [hslot]
  refine ⟨ht, rfl, fun a => ?_⟩
  rw [read_writeL hwf]
  split
  · have hin : a - o < l.length := by omega
    rw [List.getD_eq_getElem _ _ hin, List.getD_eq_getElem _ _ hin]
  · rfl

/-! ### The clauses together -/

/-- Settles O45: a message is refused by `svcRefusal`, whose order log entry 23 fixes, or carried out by its operation, and either way
answered once. -/
theorem storeServiceKeepsItsStates : Obligations.StoreServiceKeepsItsStates := by
  intro s m rest hsvc hon replied gets gives other
  have h : Fronts m rest s := ⟨hsvc, hon⟩
  refine ⟨fun ha hp => ?_, fun hr => ⟨fun hl => ?_, fun hg ho => ?_, fun hg => ⟨fun ho hpay => ?_, fun hl => ?_⟩⟩⟩
  · have hd := svcRefusal_noRight ha hp
    exact ⟨fun ho => serve_refused exec_slotQuery h ho hd, fun ho => serve_refused exec_slotOpen h ho hd,
      fun ho => serve_refused exec_slotWrite h ho hd, fun ho => serve_refused exec_slotClose h ho hd,
      fun ho => serve_refused exec_slotCommit h ho hd, fun ho => serve_refused exec_slotAbort h ho hd,
      fun ho => serve_refused exec_slotUnstage h ho hd⟩
  · exact ⟨fun ho => serve_refused exec_slotOpen h ho (svcRefusal_retired hr hl (by rw [ho]; decide)),
      fun ho => serve_refused exec_slotCommit h ho (svcRefusal_retired hr hl (by rw [ho]; decide))⟩
  · exact serve_refused exec_slotQuery h ho (svcRefusal_lastGasp hr (.inr ho) hg)
  · exact ⟨queryReply s, serve_says exec_slotQuery h ho (query_accepted ⟨hr, .inr ho, hg⟩ ho hpay) rfl, queryReply_length s, rfl, rfl⟩
  have ht : Taken m s := ⟨hr, .inl hl, hg⟩
  refine ⟨fun ho hx => ?busyOpen, fun ho hx => ?busyWrite, fun hs => ?noSession, fun ho hs hlen n hn => ?opens, fun e hs hp => ?own,
    fun n ho hpay => ?commit, fun ho hpay => ?unstage⟩
  case busyOpen => exact serve_refused exec_slotOpen h ho (svcRefusal_busy ht hx (by rw [ho]; rfl))
  case busyWrite => exact serve_refused exec_slotWrite h ho (svcRefusal_busy ht hx (by rw [ho]; rfl))
  case noSession =>
    exact ⟨fun ho => serve_refused exec_slotWrite h ho (svcRefusal_noSession ht hs (by rw [ho]; rfl)),
      fun ho => serve_refused exec_slotClose h ho (svcRefusal_noSession ht hs (by rw [ho]; rfl)),
      fun ho => serve_refused exec_slotAbort h ho (svcRefusal_noSession ht hs (by rw [ho]; rfl))⟩
  case opens =>
    obtain ⟨hactive, hbad, hfree⟩ := open_clauses h ht ho hs hlen hn
    exact ⟨hactive, fun ha hlen => hbad ha (by unfold LengthOk; omega), fun ha hmin hmax hmod => hfree ha ⟨hmin, hmax, hmod⟩⟩
  case own =>
    refine ⟨fun ho hlen => open_inSession ht h ho hs hp hlen, fun ho hmin hmax hmod => ?write, fun ho hpay he hw => ?close,
      fun ho hpay => ?abort⟩
    case write =>
      have hacc := session_accepted ht hs hp (by rw [ho]; rfl) (ho ▸ write_lengthOk hmin hmax hmod)
      refine ⟨fun hne => serve_says exec_slotWrite h ho hacc (writeOp_outOfOrder hs hne),
        fun heq hlong => serve_says exec_slotWrite h ho hacc (writeOp_tooLong hs heq hlong), fun heq hfit hroom hc hwf => ?_⟩
      obtain ⟨himg, hst, hread⟩ := write_placed (m := m) (rest := rest) (b := [0]) rfl hwf
      exact ⟨_, serve_gives exec_slotWrite h ho hacc (writeOp_places hs h heq hfit hroom hc), rfl, rfl, congrArg State.img himg, hst, hread⟩
    case close =>
      have hacc := session_accepted ht hs hp (by rw [ho]; rfl) (by rw [ho, hpay]; rfl)
      dsimp only
      split
      next ps hv => exact serve_gives exec_slotClose h ho hacc (closeOp_standby h hs he hw hv)
      next why hv => exact serve_gives exec_slotClose h ho hacc (closeOp_failed h hs he hw hv)
    case abort =>
      have hacc := session_accepted ht hs hp (by rw [ho]; rfl) (by rw [ho, hpay]; rfl)
      exact serve_gives exec_slotAbort h ho hacc (abortOp_empties h hs)
  case commit =>
    have hacc := commit_accepted ht ho hpay
    have hslot : svcSlot m = n := svcSlot_eq (by rw [Names, hpay]; rfl)
    refine ⟨fun hno => serve_says exec_slotCommit h ho hacc (commitOp_refused hslot hno), fun ha hst => ?_⟩
    obtain ⟨x, hdone, hx⟩ := commitOp_committed h hslot ha hst
    exact ⟨_, serve_gives exec_slotCommit h ho hacc hdone, rfl, hx⟩
  case unstage =>
    have hacc := unstage_accepted ht ho hpay
    refine ⟨fun h0 => ?_, fun h0 h1 => ?_, fun h0 h1 => serve_says exec_slotUnstage h ho hacc (unstageOp_none h0 h1)⟩
    · have hdone := unstageOp_staged h (.inl h0)
      rw [unstaged_of_staged h0] at hdone
      exact serve_gives exec_slotUnstage h ho hacc hdone
    · have hdone := unstageOp_staged h (.inr h1)
      rw [unstaged_of_not h0, unstaged_of_staged h1] at hdone
      exact serve_gives exec_slotUnstage h ho hacc hdone

end Laws
end Sys2Proof
end

section
/-!
O50: touch frames fall due, start and end; stuck touches, the scan rate and TCH_CTL.
-/
namespace Sys2Proof
namespace Laws
open Machine

variable {s : State} {t : Touch} {g : GroupCfg} {tg : TouchGroup} {r : Reading} {n : BitVec 5} {v : BitVec 16} {sub : BitVec 10}
  {raw : List (List (BitVec 16) × List (BitVec 16))} {noise cand : BitVec 12} {now free : Nat} {th : Int}

/-! ### A frame falls due (R435) -/

theorem touchDropLeave_none (h : s.tch.leave = .none) : touchDropLeave s = s := by
  rw [touchDropLeave, h]
  dsimp only
  rw [← h]

theorem touchDropLeave_granted (h : s.tch.leave = .granted) : touchDropLeave s = { s.fin 3 .touch with tch.leave := .none } := by
  rw [touchDropLeave, h]

theorem exec_touchFrameDue_first (ha : s.awake = true) (ho : s.tch.on = true) (hp : s.tch.pending = false) :
    exec .touchFrameDue s = .next { s with tch.pending := true } :=
  congrArg Host.Outcome.next ((if_pos (by rw [ha, ho]; rfl)).trans (if_neg (by rw [hp]; decide)))

/-- The frame that did not start is skipped, and its leave given back. -/
theorem exec_touchFrameDue_again (ha : s.awake = true) (ho : s.tch.on = true) (hp : s.tch.pending = true) :
    exec .touchFrameDue s = .next
      { touchDropLeave s with tch := { (touchDropLeave s).tch with skip := satInc (touchDropLeave s).tch.skip, skipWhy := 1 } } :=
  congrArg Host.Outcome.next ((if_pos (by rw [ha, ho]; rfl)).trans (if_pos hp))

theorem exec_touchFrameDue_off (ho : s.tch.on = false) : exec .touchFrameDue s = .next s :=
  congrArg Host.Outcome.next (if_neg (by simp [ho]))

/-! ### A frame starts (R435, R436) -/

theorem touchReady_of (ha : s.awake = true) (hw : s.crs.winTouch = true) (hp : s.tch.pending = true) (hr : s.tch.running = false)
    (hs : s.sent.running = false) : touchReady s = true := by
  rw [touchReady, ha, hw, hp, hr, hs]
  rfl

theorem exec_touchFrameStart_notReady (h : touchReady s = false) : exec .touchFrameStart s = .next s :=
  congrArg Host.Outcome.next (if_neg (by rw [h]; decide))

section
variable (hr : touchReady s = true)
include hr

theorem exec_touchFrameStart_asks (hd : s.tch.highDrive = true) (hl : s.tch.leave = .none) :
    exec .touchFrameStart s = .next { s.ask 3 .touch with tch.leave := .asked } := by
  refine congrArg Host.Outcome.next ((if_pos hr).trans ((if_pos hd).trans ?_))
  rw [hl]

theorem exec_touchFrameStart_waits (hd : s.tch.highDrive = true) (hl : s.tch.leave = .asked) : exec .touchFrameStart s = .next s := by
  refine congrArg Host.Outcome.next ((if_pos hr).trans ((if_pos hd).trans ?_))
  rw [hl]

theorem exec_touchFrameStart_begins (h : s.tch.highDrive = false ∨ s.tch.leave = .granted) :
    exec .touchFrameStart s = .next (touchBegin s) := by
  refine congrArg Host.Outcome.next ((if_pos hr).trans ?_)
  by_cases hd : s.tch.highDrive = true
  · obtain hn | hl := h
    · exact absurd (hn.symm.trans hd) (by decide)
    · rw [if_pos hd, hl]
  · exact if_neg hd

end

/-! ### What a frame's end leaves alone (R437, R442 to R444) -/

/-- Noise, its runs, charger-noise mode, a hop and the baselines it stores. -/
theorem noiseStep_eq : noiseStep t noise cand =
    { t with noise := noise, cand := (noiseStep t noise cand).cand, latest := (noiseStep t noise cand).latest,
             hopRun := (noiseStep t noise cand).hopRun, chgRun := (noiseStep t noise cand).chgRun,
             quietRun := (noiseStep t noise cand).quietRun, hold := (noiseStep t noise cand).hold,
             hopped := (noiseStep t noise cand).hopped, chg := (noiseStep t noise cand).chg, freq := (noiseStep t noise cand).freq,
             hopCnt := (noiseStep t noise cand).hopCnt, groups := (noiseStep t noise cand).groups } := by
  unfold noiseStep
  extract_lets c t1 t2
  have h1 : t2 = { t1 with chg := t2.chg } := by
    simp only [t2]
    (repeat' split) <;> rfl
  split
  · split
    · rw [h1]
    · rw [h1]
  · rw [h1]

/-- The rate goes back to R0 while something is touched. -/
def rested (now : Nat) (t : Touch) : Touch := if t.busy then { t with step := 0, quietSince := now } else t

theorem rested_eq : rested now t = { t with step := (rested now t).step, quietSince := (rested now t).quietSince } := by
  unfold rested
  split <;> rfl

/-! ### A frame's end, group by group (R437) -/

theorem toList_four {α : Type} (v : Vector α 4) : v.toList = [v.get 0, v.get 1, v.get 2, v.get 3] := by
  obtain ⟨⟨l⟩, h⟩ := v
  match l, h with
  | [a, b, c, d], _ => rfl

/-- The readings that come for group k, self and mutual. -/
def groupRaw (raw : List (List (BitVec 16) × List (BitVec 16))) (k : Nat) : List Int × List Int :=
  ((raw.getD k ([], [])).1.map fun v => (v.toNat : Int), (raw.getD k ([], [])).2.map fun v => (v.toNat : Int))

/-- What the frame gives for group k. -/
def groupOut (raw : List (List (BitVec 16) × List (BitVec 16))) (now : Nat) (t : Touch) (k : Fin 4) : GroupOut :=
  groupStep t (t.cfg.groups.get k) now (t.groups.get k) (groupRaw raw k)

/-- The scanner from which the results of a frame are taken. -/
def measured (raw : List (List (BitVec 16) × List (BitVec 16))) (noise : BitVec 12) (now : Nat) (t : Touch) : Touch :=
  let out := groupOut raw now t
  { t with groups := #v[(out 0).grp, (out 1).grp, (out 2).grp, (out 3).grp], running := false, held := false, relPend := false
           frm := t.frm + 1, drop := if [out 0, out 1, out 2, out 3].any (·.drop) then satInc t.drop else t.drop, noise := noise }

theorem frameEnd_fst : (frameEnd raw noise cand now free t).1 =
    rested now (noiseStep { measured raw noise now t with res := resultOf (measured raw noise now t) free } noise cand) := by
  simp only [frameEnd, toList_four]
  rfl

/-- What the frame leaves for its reader: the results of the measured groups, noise and count; the capture stands. -/
theorem frameEnd_shows : (frameEnd raw noise cand now free t).1.running = false ∧ (frameEnd raw noise cand now free t).1.frm = t.frm + 1 ∧
    (frameEnd raw noise cand now free t).1.noise = noise ∧
    (frameEnd raw noise cand now free t).1.res = resultOf (measured raw noise now t) free ∧
    (frameEnd raw noise cand now free t).1.cap = t.cap := by
  rw [frameEnd_fst, rested_eq, noiseStep_eq]
  exact ⟨rfl, rfl, rfl, rfl, rfl⟩

theorem sentinelGo_eq : sentinelGo s = { s with sent := (sentinelGo s).sent } := by
  unfold sentinelGo
  split <;> rfl

/-- The part at a frame's end, before the fabric follows. -/
def frameLanded (raw : List (List (BitVec 16) × List (BitVec 16))) (noise cand : BitVec 12) (sub : BitVec 10) (s : State) : State :=
  let s1 := { s.atSub sub with tch := (frameEnd raw noise cand (s.atSub sub).now16 s.free s.tch).1, free := s.free + 4 }
  sentinelGo (if s.tch.held then s1.fin 3 .touch else s1)

theorem does_touchFrameEnd (h : s.tch.running = true) : Does (.touchFrameEnd raw noise cand sub) s (frameLanded raw noise cand sub s) :=
  ⟨_, congrArg Host.Outcome.next (if_pos h), emit_settled _ _⟩

theorem exec_touchFrameEnd_idle (h : s.tch.running = false) : exec (.touchFrameEnd raw noise cand sub) s = .next (s.atSub sub) :=
  congrArg Host.Outcome.next (if_neg (by simp [h]))

theorem frameLanded_eq : frameLanded raw noise cand sub s =
    { s.atSub sub with tch := (frameEnd raw noise cand (s.atSub sub).now16 s.free s.tch).1
                       sent := (frameLanded raw noise cand sub s).sent
                       tie.lane := s.tie.lane ++ (if s.tch.held then [.fin 3 .touch] else [])
                       free := s.free + 4 } := by
  rw [frameLanded, sentinelGo_eq]
  cases s.tch.held
  · simp only [Bool.false_eq_true, if_false, List.append_nil]
    rfl
  · rfl

/-! ### The touch of a lone SELF group (R431, R440) -/

theorem track_touched (dd : Nat) (move : Bool) : (track dd th r move).touched = r.touched := by
  unfold track
  (repeat' split) <;> rfl

/-- With no debouncing a touch is decided at TH, and released below 7/8 of it. -/
theorem decideTouch_one : (decideTouch 1 th false now r).1.touched =
    if r.touched then decide (7 * th ≤ 8 * r.delta) else decide (th ≤ r.delta) := by
  unfold decideTouch
  cases hr : r.touched
  · by_cases h : th ≤ r.delta <;> simp [h]
  · by_cases h : 8 * r.delta < 7 * th
    · simp [h]
    · simp [h, Int.not_lt.mp h]

/-- A group of one self sensor, its acquisition done, debouncing, neighbour rule and palm sum off, not suppressed. -/
structure Lone (n : BitVec 5) (r : Reading) (g : GroupCfg) (tg : TouchGroup) : Prop where
  kind : g.kind = .self
  tx : g.tx = [n]
  rx : g.rx = []
  palmSum : g.palmSum = 0
  nbEn : g.nbEn = false
  deb : g.deb = 0
  acq : tg.acq = 16
  self : tg.self = [r]
  crossed : tg.crossed = []
  supp : tg.supp = false

/-- One sensor makes no palm: a palm takes two neighbours at least. -/
theorem palmNow_lone (h : Lone n r g tg) : palmNow g th [r] [] = false := by
  have hone : ([0] : List Nat).eraseDups = [0] := rfl
  have hn : ∀ up : Nat → Bool, spread (selfNeighbours g) up 1 [0] = [0] := fun up => by
    simp [spread, selfNeighbours, h.kind, h.tx, hone]
  have hp : ∀ up : Nat → Bool, palmCluster (selfNeighbours g) up 1 (g.palmN.toNat + 2) = false := fun up => by
    simp [palmCluster, hn]
  simp [palmNow, hp, h.kind, h.palmSum]

theorem decideAll_lone {nb : Nat → List Nat} (h : Lone n r g tg) (hh : t.hold = 0) (x : Reading) :
    (decideAll t g th nb now [x]).1 = [(decideTouch 1 th false now x).1] := by
  simp [decideAll, isDrop, h.nbEn, h.deb, hh]

/-- The group's reading after a frame that reads v. -/
theorem groupStep_lone (h : Lone n r g tg) (hh : t.hold = 0) (hp : t.hopped = false) :
    (groupStep t g now tg ([(v.toNat : Int)], [])).grp.self =
      [track (driftDen t.cfg.drift) (touchTh t.chg g) (decideTouch 1 (touchTh t.chg g) false now (measure false r v.toNat)).1 true] := by
  have hk : g.kind ≠ .off := by rw [h.kind]; decide
  have hpalm := palmNow_lone (th := touchTh t.chg g) (r := measure false r v.toNat) (tg := { tg with self := [measure false r v.toNat] })
    { h with self := rfl }
  rw [groupStep, if_neg hk, if_neg (by rw [h.acq]; decide)]
  simp [groupFrame, h.self, h.crossed, hp, hpalm, h.supp, decideAll_lone h hh]

theorem groupSensors_lone {x : TouchGroup} {r' : Reading} (h : Lone n r g tg) (hx : x.self = [r']) : groupSensors g x = [(n, r')] := by
  rw [groupSensors, h.tx, h.rx, hx]
  rfl

theorem groupStep_off (raws : List Int × List Int) (h : g.kind = .off) : (groupStep t g now tg raws).grp = tg := by
  rw [groupStep, if_pos h]

/-- The touch bits are those of the four groups' sensors, in order. -/
theorem resultOf_touch : (resultOf t free).touch =
    (([0, 1, 2, 3] : List (Fin 4)).flatMap fun k => groupSensors (t.cfg.groups.get k) (t.groups.get k)).foldl
      (fun w e => if e.2.touched then w ||| (1#32 <<< e.1.toNat) else w) 0 := by
  simp only [resultOf, toList_four]
  rfl

theorem resultOf_touch_lone (h0 : groupSensors (t.cfg.groups.get 0) (t.groups.get 0) = [(n, r)])
    (hk : ∀ k : Fin 4, k ≠ 0 → groupSensors (t.cfg.groups.get k) (t.groups.get k) = []) :
    (resultOf t free).touch.getLsbD n.toNat = r.touched := by
  have hn : n.toNat < 32 := n.isLt
  rw [resultOf_touch, List.flatMap_cons, h0]
  simp only [List.flatMap_cons, hk 1 (by decide), hk 2 (by decide), hk 3 (by decide), List.flatMap_nil, List.append_nil, List.foldl_cons,
    List.foldl_nil]
  cases r.touched <;> simp [hn]

theorem measured_group (k : Fin 4) : (measured raw noise now t).groups.get k = (groupOut raw now t k).grp := by
  fin_cases k <;> rfl

/-- The sensor's touch bit after a frame: from TH on, and down to 7/8 of TH where it was touched. -/
theorem frameEnd_touch (h : Lone n r (t.cfg.groups.get 0) (t.groups.get 0)) (hc : t.chg = false) (hh : t.hold = 0) (hp : t.hopped = false)
    (hk : ∀ k : Fin 4, k ≠ 0 → (t.cfg.groups.get k).kind = .off ∧ (t.groups.get k).self = []) :
    (frameEnd [([v], [])] noise cand now free t).1.res.touch.getLsbD n.toNat = true ↔
      if r.touched then 7 * ((t.cfg.groups.get 0).th.toNat : Int) ≤ 8 * ((v.toNat : Int) - r.base)
      else ((t.cfg.groups.get 0).th.toNat : Int) ≤ (v.toNat : Int) - r.base := by
  have hself := groupStep_lone (now := now) (v := v) h hh hp
  obtain ⟨-, -, -, hres, -⟩ := frameEnd_shows (raw := [([v], [])]) (noise := noise) (cand := cand) (now := now) (free := free) (t := t)
  have h0 := (congrArg (groupSensors (t.cfg.groups.get 0)) (measured_group (raw := [([v], [])]) (noise := noise) (t := t) 0)).trans
    (groupSensors_lone h hself)
  have hrest : ∀ k : Fin 4, k ≠ 0 → groupSensors (t.cfg.groups.get k) ((measured [([v], [])] noise now t).groups.get k) = [] := by
    intro k hne
    obtain ⟨hoff, hnone⟩ := hk k hne
    rw [measured_group, groupOut, groupStep_off _ hoff, groupSensors, hnone, List.zip_nil_right]
  rw [hres, resultOf_touch_lone h0 hrest, track_touched, decideTouch_one, touchTh, hc]
  change (if r.touched then _ else _) = true ↔ _
  cases r.touched
  · exact decide_eq_true_iff
  · exact decide_eq_true_iff

/-! ### Stuck touches (R441) -/

/-- MAX_ON in 1/16 us. -/
def stuckLimit (g : GroupCfg) : Nat := g.maxOn.toNat * 16000000

section
variable {lim : Nat}

/-- The group has been suppressed for so long. -/
def suppStuck (now lim : Nat) (tg : TouchGroup) : Bool := tg.supp && decide (tg.suppSince + lim ≤ now)

/-- A reading of the group has been touched for so long. -/
def touchStuck (now lim : Nat) (tg : TouchGroup) : Bool :=
  let old := fun (r : Reading) => r.touched && decide (r.since + lim ≤ now)
  tg.self.any old || tg.crossed.any old

/-- The group with what is stuck taken as its baseline. -/
def unstuck (now lim : Nat) (tg : TouchGroup) : TouchGroup :=
  let f := fun (r : Reading) => if suppStuck now lim tg then { r with base := r.raw } else unstick now lim r
  { tg with self := tg.self.map f, crossed := tg.crossed.map f, supp := tg.supp && !suppStuck now lim tg }

theorem suppStuck_not_supp (h : tg.supp = false) : suppStuck now lim tg = false := by rw [suppStuck, h, Bool.false_and]

theorem touchStuck_lone (hself : tg.self = [r]) (hcrossed : tg.crossed = []) (ht : r.touched = true) :
    touchStuck now lim tg = decide (r.since + lim ≤ now) := by
  simp [touchStuck, hself, hcrossed, ht]

theorem unstuck_lone (hsupp : tg.supp = false) (hself : tg.self = [r]) (hcrossed : tg.crossed = []) (ht : r.touched = true)
    (ho : r.since + lim ≤ now) : unstuck now lim tg = { tg with self := [{ r with base := r.raw, touched := false, on := 0, off := 0 }] } := by
  simp [unstuck, suppStuck_not_supp hsupp, hself, hcrossed, hsupp, unstick, ht, ho]

end

section
variable {k : BitVec 2}

theorem exec_touchStuckReset : exec (.touchStuckReset k sub) s = .next (
    let gc := s.tch.cfg.groups.get k.toFin
    let tg := s.tch.groups.get k.toFin
    let now := (s.atSub sub).now16
    if gc.maxOn ≠ 0 && (suppStuck now (stuckLimit gc) tg || touchStuck now (stuckLimit gc) tg) then
      { s.atSub sub with tch := { s.tch with
          groups := s.tch.groups.set k.toFin (unstuck now (stuckLimit gc) tg), stuck := true, stkCnt := satInc s.tch.stkCnt
          relPend := s.tch.relPend || touchStuck now (stuckLimit gc) tg } }
    else s.atSub sub) := rfl

theorem exec_touchStuckReset_disabled (h : (s.tch.cfg.groups.get k.toFin).maxOn = 0) :
    exec (.touchStuckReset k sub) s = .next (s.atSub sub) :=
  exec_touchStuckReset.trans (congrArg Host.Outcome.next (if_neg (by simp [h])))

variable (hsupp : (s.tch.groups.get k.toFin).supp = false) (hself : (s.tch.groups.get k.toFin).self = [r])
  (hcrossed : (s.tch.groups.get k.toFin).crossed = []) (ht : r.touched = true)
include hsupp hself hcrossed ht

theorem exec_touchStuckReset_stuck (hm : (s.tch.cfg.groups.get k.toFin).maxOn ≠ 0)
    (ho : r.since + stuckLimit (s.tch.cfg.groups.get k.toFin) ≤ (s.atSub sub).now16) :
    exec (.touchStuckReset k sub) s = .next { s.atSub sub with tch := { s.tch with
      stuck := true, stkCnt := satInc s.tch.stkCnt, relPend := true, groups := s.tch.groups.set k.toFin { s.tch.groups.get k.toFin with
        self := [{ r with base := r.raw, touched := false, on := 0, off := 0 }] } } } := by
  have hstuck := touchStuck_lone (now := (s.atSub sub).now16) (lim := stuckLimit (s.tch.cfg.groups.get k.toFin)) hself hcrossed ht
  rw [decide_eq_true ho] at hstuck
  refine exec_touchStuckReset.trans (congrArg Host.Outcome.next ((if_pos ?_).trans ?_))
  · simpa [hstuck] using hm
  · rw [hstuck, unstuck_lone hsupp hself hcrossed ht ho, Bool.or_true]

theorem exec_touchStuckReset_notStuck (ho : ¬ r.since + stuckLimit (s.tch.cfg.groups.get k.toFin) ≤ (s.atSub sub).now16) :
    exec (.touchStuckReset k sub) s = .next (s.atSub sub) := by
  refine exec_touchStuckReset.trans (congrArg Host.Outcome.next (if_neg ?_))
  simp [suppStuck_not_supp hsupp, touchStuck_lone hself hcrossed ht, Nat.not_le.mp ho]

end

/-! ### The rate steps down (R449) -/

/-- The time at which the rate steps down. -/
def rateDue (t : Touch) : Nat := t.quietSince + (t.cfg.times.toList.getD t.step.toNat 0).toNat * 16000000

theorem exec_touchRateStep_due (ha : s.awake = true) (ho : s.tch.on = true) (hb : s.tch.busy = false) (hn : s.tch.step.toNat < 3)
    (hd : rateDue s.tch ≤ (s.atSub sub).now16) :
    exec (.touchRateStep sub) s = .next { s.atSub sub with tch.step := s.tch.step + 1 } := by
  have hc : (s.awake && s.tch.on && !s.tch.busy && decide (s.tch.step.toNat < 3) && decide (rateDue s.tch ≤ (s.atSub sub).now16)) = true := by
    simp only [ha, ho, hb, hn, hd]
    rfl
  exact congrArg Host.Outcome.next (if_pos hc)

theorem exec_touchRateStep_early (hd : (s.atSub sub).now16 < rateDue s.tch) : exec (.touchRateStep sub) s = .next (s.atSub sub) := by
  have hc : ¬ (s.awake && s.tch.on && !s.tch.busy && decide (s.tch.step.toNat < 3) && decide (rateDue s.tch ≤ (s.atSub sub).now16)) = true := by
    simp [Nat.not_le.mpr hd]
  exact congrArg Host.Outcome.next (if_neg hc)

/-! ### TCH_CTL (R227, R438, R444; a write by the other core changes nothing by log entry 10) -/

section
variable {who : Who}

theorem exec_touchReacquire_owner (h : s.actsAs who = touchOwner s) : exec (.touchReacquire who) s = .next { s with tch.reacq := true } :=
  congrArg Host.Outcome.next (if_pos h)

theorem exec_touchChgForce_owner (h : s.actsAs who = touchOwner s) :
    exec (.touchChgForce who v) s = .next { s with tch.chgForce := v.getLsbD 0, tch.reacq := s.tch.reacq || v.getLsbD 1 } :=
  congrArg Host.Outcome.next (if_pos h)

theorem exec_touchReacquire_other (h : s.actsAs who ≠ touchOwner s) : exec (.touchReacquire who) s = .next s :=
  congrArg Host.Outcome.next (if_neg h)

theorem exec_touchChgForce_other (h : s.actsAs who ≠ touchOwner s) : exec (.touchChgForce who v) s = .next s :=
  congrArg Host.Outcome.next (if_neg h)

end

/-! ### The clauses together -/

/-- Settles O50: each command is run to its next state; the end of a frame is `frameLanded`, whose results are those of the measured
groups. Foreign writes of TCH_CTL change nothing by log entry 10. -/
theorem touchFramesRunInTheirWindow : Obligations.TouchFramesRunInTheirWindow := by
  intro s who v noise cand sub raw s1 now x
  refine ⟨exec_touchFrameDue_first, fun ha ho hp => ⟨fun hl => ?skips, fun hl => ?skipsGranted⟩, exec_touchFrameDue_off,
    fun ha hw hp hr hs => ?starts, fun h => ?notReady, fun hr => ?ends, exec_touchFrameEnd_idle,
    fun n r hr hc hh hp hkind htx hrx hsum hnb hdeb hacq hself hcr hsupp _ hoff => ?touch, fun k => exec_touchStuckReset_disabled,
    fun k r hm hsupp hself hcr ht => ⟨fun ho => exec_touchStuckReset_stuck hsupp hself hcr ht hm ho,
      fun ho => exec_touchStuckReset_notStuck hsupp hself hcr ht ho⟩,
    fun ha ho hb n hn hlt => ⟨fun hd => ?stepsDown, fun hd => ?early⟩,
    fun h => ⟨exec_touchReacquire_owner h, exec_touchChgForce_owner h⟩,
    fun h => ⟨exec_touchReacquire_other h, exec_touchChgForce_other h⟩, rfl⟩
  case skips =>
    rw [exec_touchFrameDue_again ha ho hp, touchDropLeave_none hl]
  case skipsGranted =>
    rw [exec_touchFrameDue_again ha ho hp, touchDropLeave_granted hl]
    rfl
  case starts =>
    have hready := touchReady_of ha hw hp hr hs
    exact ⟨exec_touchFrameStart_asks hready, exec_touchFrameStart_waits hready,
      fun h => ⟨_, exec_touchFrameStart_begins hready h, rfl, rfl, rfl, rfl, rfl, rfl⟩⟩
  case notReady =>
    refine exec_touchFrameStart_notReady ?_
    obtain hw | hp := h
    · simp [touchReady, hw]
    · simp [touchReady, show s.tch.pending = false from hp]
  case ends =>
    obtain ⟨hrun, hfrm, hnoise, hres, hcap⟩ := frameEnd_shows (raw := raw) (noise := noise) (cand := cand) (now := (s.atSub sub).now16)
      (free := s.free) (t := s.tch)
    refine ⟨_, does_touchFrameEnd hr, ?_⟩
    rw [frameLanded_eq]
    exact ⟨hrun, hfrm, hnoise, by rw [hres]; rfl, by rw [hres]; rfl, hcap, rfl, rfl⟩
  case touch =>
    refine ⟨_, does_touchFrameEnd hr, ?_⟩
    rw [frameLanded_eq]
    exact frameEnd_touch ⟨hkind, htx, hrx, hsum, hnb, hdeb, hacq, hself, hcr, hsupp⟩ hc hh hp hoff
  case stepsDown =>
    subst hn
    exact exec_touchRateStep_due ha ho hb hlt hd
  case early =>
    subst hn
    exact exec_touchRateStep_early hd

end Laws
end Sys2Proof
end

section
/-!
SUPPORT. The core as an instruction's effect finds it, and what an instruction leaves whose effect is general registers and flags.
-/
namespace Sys2Proof
namespace Laws
open Machine

variable {c : CoreId} {d : Reg} {n m extra : Nat} {s : State} {k k' : Core} {i : Instr} {ill : Core → Option (BitVec 4)}
variable {body : State → Effect} {f : Core → Core} {v : Word} {q : Res}

/-! ### What landing and moving on leave (R214, R260) -/

/-- Landing changes result registers, flags and the unit alone. -/
theorem seen_lands : Lands (s.core c) (s.seen c) := landDue_lands _

@[simp] theorem seen_k : (s.seen c).k = (s.core c).k := landDue_k
@[simp] theorem seen_reg : (s.seen c).reg d = (s.core c).reg d := by simp only [Core.reg, seen_k]
@[simp] theorem seen_pc : (s.seen c).pc = (s.core c).pc := landDue_pc
@[simp] theorem seen_xfer : (s.seen c).xfer = (s.core c).xfer := landDue_xfer
@[simp] theorem seen_call : (s.seen c).call = (s.core c).call := landDue_call
@[simp] theorem seen_rs : (s.seen c).rs = (s.core c).rs := landDue_rs
@[simp] theorem seen_rsP : (s.seen c).rsP = (s.core c).rsP := landDue_rsP
@[simp] theorem seen_rsD : (s.seen c).rsD = (s.core c).rsD := landDue_rsD
@[simp] theorem seen_rsTrap : (s.seen c).rsTrap = (s.core c).rsTrap := by rw [seen_lands (s := s)]
@[simp] theorem seen_rsWrapped : (s.seen c).rsWrapped = (s.core c).rsWrapped := by rw [seen_lands (s := s)]
@[simp] theorem seen_rsUnder : (s.seen c).rsUnder = (s.core c).rsUnder := by rw [seen_lands (s := s)]
@[simp] theorem seen_sched : (s.seen c).sched = (s.core c).sched := by rw [seen_lands (s := s)]

@[simp] theorem advancePc_reg : (k.advancePc n).reg d = k.reg d := by simp only [Core.reg, advancePc_k]
@[simp] theorem advancePc_mh : (k.advancePc n).mh = k.mh := by rw [advancePc_eq]
@[simp] theorem advancePc_ml : (k.advancePc n).ml = k.ml := by rw [advancePc_eq]
@[simp] theorem advancePc_qt : (k.advancePc n).qt = k.qt := by rw [advancePc_eq]
@[simp] theorem advancePc_rm : (k.advancePc n).rm = k.rm := by rw [advancePc_eq]
@[simp] theorem advancePc_fr : (k.advancePc n).fr = k.fr := by rw [advancePc_eq]
@[simp] theorem advancePc_ff : (k.advancePc n).ff = k.ff := by rw [advancePc_eq]
@[simp] theorem advancePc_ev : (k.advancePc n).ev = k.ev := by rw [advancePc_eq]
@[simp] theorem advancePc_pg : (k.advancePc n).pg = k.pg := by rw [advancePc_eq]
@[simp] theorem advancePc_au : (k.advancePc n).au = k.au := by rw [advancePc_eq]
@[simp] theorem advancePc_sched : (k.advancePc n).sched = k.sched := by rw [advancePc_eq]
@[simp] theorem advancePc_rsP : (k.advancePc n).rsP = k.rsP := by rw [advancePc_eq]
@[simp] theorem advancePc_rsD : (k.advancePc n).rsD = k.rsD := by rw [advancePc_eq]
@[simp] theorem advancePc_rsTrap : (k.advancePc n).rsTrap = k.rsTrap := by rw [advancePc_eq]
@[simp] theorem advancePc_rsWrapped : (k.advancePc n).rsWrapped = k.rsWrapped := by rw [advancePc_eq]
@[simp] theorem advancePc_rsUnder : (k.advancePc n).rsUnder = k.rsUnder := by rw [advancePc_eq]

/-- An instruction of one word, or outside a slot, leaves the return stack (R216). -/
theorem advancePc_rs (h : k.call = false ∨ k.xfer = none ∨ n = 1) : (k.advancePc n).rs = k.rs := by
  rw [advancePc_eq, growReturn_rs h]

theorem following_of_none (h : k.xfer = none) : k.following n = k.pc + BitVec.ofNat 16 n := by rw [Core.following, h]

@[simp] theorem stepEnd_rs : k.stepEnd.rs = k.rs := by rw [stepEnd_eq]
@[simp] theorem stepEnd_rsP : k.stepEnd.rsP = k.rsP := by rw [stepEnd_eq]
@[simp] theorem stepEnd_rsD : k.stepEnd.rsD = k.rsD := by rw [stepEnd_eq]
@[simp] theorem spend_rs : (k.spend n).rs = k.rs := rfl
@[simp] theorem spend_rsP : (k.spend n).rsP = k.rsP := rfl
@[simp] theorem spend_rsD : (k.spend n).rsD = k.rsD := rfl
@[simp] theorem put_rs : (k.put d v).rs = k.rs := rfl
@[simp] theorem put_rsP : (k.put d v).rsP = k.rsP := rfl
@[simp] theorem put_rsD : (k.put d v).rsD = k.rsD := rfl
@[simp] theorem put_k : (k.put d v).k = k.k.set d.toFin v := rfl

/-! ### An effect on the core that issues (R200, R280) -/

/-- An effect on one core finds it with its results landed and its counters moved on. -/
theorem onCore_moved : onCore c f (s.moved c n) = .done (s.setCore c (f ((s.seen c).advancePc n))) 0 := by simp [onCore]

/-- Without an early read, schedule check lets the effect be (R280). -/
theorem early_moved {q : BitVec 4} {g : State → Effect} (h : NotEarly (s.seen c) q) : early c q g (s.moved c n) = g (s.moved c n) := by
  rw [early, if_neg]
  simp only [moved_core, advancePc_sched, advancePc_au, Bool.and_eq_true, List.any_eq_true, not_and, not_exists]
  intro hs r hr ha
  rw [h hs r hr] at ha
  exact Bool.false_ne_true ha

/-- k' is k but for general registers and flags. -/
def RegsOnly (k k' : Core) : Prop := k' = { k with k := k'.k, z := k'.z, n := k'.n, c := k'.c, v := k'.v }

theorem regsOnly_put : RegsOnly k (k.put d v) := rfl
theorem regsOnly_setZN : RegsOnly k (k.setZN v) := rfl
theorem regsOnly_setFlags : RegsOnly k (k.setFlags q) := rfl
theorem regsOnly_arith : RegsOnly k (k.arith d q) := rfl
theorem regsOnly_logic : RegsOnly k (k.logic d v) := rfl

theorem setZN_c : (k.setZN v).c = k.c := rfl
theorem setZN_v : (k.setZN v).v = k.v := rfl
theorem logic_c : (k.logic d v).c = k.c := rfl
theorem logic_v : (k.logic d v).v = k.v := rfl

theorem issued_pc (h : Issued k k' n m) : k'.pc = k.following n := by rw [h.1]

/-- Registers and flags have no part in moving on. -/
theorem regs_advancePc {l : Vector Word 16} {zf nf cf vf : Bool} :
    ({ k.advancePc n with k := l, z := zf, n := nf, c := cf, v := vf } : Core) =
      ({ k with k := l, z := zf, n := nf, c := cf, v := vf } : Core).advancePc n := by
  have hrs : (({ k with k := l, z := zf, n := nf, c := cf, v := vf } : Core).growReturn n).rs = (k.growReturn n).rs := by
    unfold Core.growReturn
    split <;> rfl
  rw [advancePc_eq, advancePc_eq, hrs]
  rfl

/-- A core that moves on, and beyond that changes registers and flags alone, is what `Issued` says. -/
theorem issued_regsOnly (h : RegsOnly (k.advancePc n) k') : Issued k (k'.spend m).stepEnd n m := by
  rw [h, regs_advancePc]
  exact issued_advancePc (k := { k with k := k'.k, z := k'.z, n := k'.n, c := k'.c, v := k'.v })

/-- A ready core's legal instruction that changes registers and flags alone runs, and leaves what its effect leaves. -/
theorem runs_next (he : exec i s = .next (issue c n ill body s)) (hr : Ready c n s) (hw : n = 1 ∨ n = 2)
    (hi : ill (s.seen c) = none) (hb : body (s.moved c n) = .done (s.setCore c k) extra) (hk : RegsOnly ((s.seen c).advancePc n) k) :
    ∃ t, exec i s = .next t ∧ RunsIn c n (n + extra) s t ∧ (t.core c).k = k.k ∧ (t.core c).z = k.z ∧ (t.core c).n = k.n ∧
      (t.core c).c = k.c ∧ (t.core c).v = k.v :=
  ⟨_, he, runs_of hr hw hi k hb hk⟩

/-! ### Traps (R228, R229) -/

theorem issueCheck_some {e : BitVec 4} (h : ill k = some e) : issueCheck c n ill k = some (Trap.illegal e) := by simp [issueCheck, h]

/-- An instruction that is illegal here traps ILLEGAL. -/
theorem illegal_next {e : BitVec 4} (he : exec i s = .next (issue c n ill body s)) (hr : Ready c n s) (hi : ill (s.seen c) = some e) :
    ∃ t, exec i s = .next t ∧ Traps c n (Trap.illegal e) s t :=
  ⟨_, he, traps_check (ready_issuing hr) (issueCheck_some hi)⟩

/-- An instruction whose effect is a trap takes it. -/
theorem trap_next {p : Trap} (he : exec i s = .next (issue c n ill body s)) (hr : Ready c n s) (hw : n = 1 ∨ n = 2)
    (hi : ill (s.seen c) = none) (hb : body (s.moved c n) = .trap p) : ∃ t, exec i s = .next t ∧ Traps c n p s t :=
  ⟨_, he, traps_body hr hw hi hb⟩

end Laws
end Sys2Proof
end

section
/-!
O5, O6, O7: sums and differences, compares, and the logic instructions.
-/
namespace Sys2Proof
namespace Laws
open Machine

variable {c : CoreId} {d : Reg} {n : Nat} {s : State} {k : Core} {i : Instr} {body : State → Effect} {a b r : Word} {q : Res}

/-! ### Sums and differences of two words and a carry (R203, R239) -/

/-- The signed value of a word and its unsigned one differ by a multiple of 2^16. -/
theorem toInt_emod_toNat (a : Word) : a.toInt % 65536 = a.toNat := by
  have h := a.isLt
  rw [BitVec.toInt_eq_toNat_cond]
  split <;> omega

/-- A word that agrees with a number modulo 2^16 differs from it exactly where the number overflows. -/
theorem toInt_ne_iff_overflows {e : Int} (h : r.toInt % 65536 = e % 65536) : decide (r.toInt ≠ e) = Overflows e := by
  have hb := r.toInt_lt
  have hl := r.le_toInt
  rw [Overflows, decide_eq_decide]
  simp only [Nat.reduceSub, Int.reducePow, Int.reduceNeg] at hb hl
  omega

theorem addRes_eq (a b : Word) (q : Bool) : addRes a b q =
    ⟨a + b + (if q then 1 else 0), decide (0x10000 ≤ a.toNat + b.toNat + (if q then 1 else 0)),
      Overflows (a.toInt + b.toInt + (if q then 1 else 0))⟩ := by
  have hv : BitVec.ofNat 16 (a.toNat + b.toNat + b2n q) = a + b + (if q then 1 else 0) := by
    refine BitVec.eq_of_toNat_eq ?_
    cases q <;> simp [b2n]
  have hi : (BitVec.ofNat 16 (a.toNat + b.toNat + b2n q)).toInt % 65536 = (a.toInt + b.toInt + b2n q) % 65536 := by
    have ha := toInt_emod_toNat a
    have hb := toInt_emod_toNat b
    rw [toInt_emod_toNat, BitVec.toNat_ofNat]
    omega
  rw [addRes, toInt_ne_iff_overflows hi, hv]
  cases q <;> rfl

theorem subRes_eq (a b : Word) (q : Bool) : subRes a b q =
    ⟨a - b - (if q then 1 else 0), decide (b.toNat + (if q then 1 else 0) ≤ a.toNat),
      Overflows (a.toInt - b.toInt - (if q then 1 else 0))⟩ := by
  have hv : BitVec.ofNat 16 (a.toNat + 0x20000 - b.toNat - b2n q) = a - b - (if q then 1 else 0) := by
    have ha := a.isLt
    have hb := b.isLt
    refine BitVec.eq_of_toNat_eq ?_
    cases q <;> simp [b2n, BitVec.toNat_sub] <;> omega
  have hi : (BitVec.ofNat 16 (a.toNat + 0x20000 - b.toNat - b2n q)).toInt % 65536 = (a.toInt - b.toInt - b2n q) % 65536 := by
    have ha := toInt_emod_toNat a
    have hb := toInt_emod_toNat b
    have hl := b.isLt
    have hq : b2n q ≤ 1 := by cases q <;> decide
    rw [toInt_emod_toNat, BitVec.toNat_ofNat]
    omega
  rw [subRes, toInt_ne_iff_overflows hi, hv]
  cases q <;> rfl

/-- Without a carry in, the flags are the library's overflow tests. -/
theorem addRes_false : addRes a b false = ⟨a + b, BitVec.uaddOverflow a b, BitVec.saddOverflow a b⟩ := by
  rw [addRes_eq, Res.mk.injEq]
  refine ⟨by simp, by simp [BitVec.uaddOverflow], ?_⟩
  rw [Bool.eq_iff_iff]
  simp [Overflows, BitVec.saddOverflow]
  omega

theorem subRes_false : subRes a b false = ⟨a - b, !BitVec.usubOverflow a b, BitVec.ssubOverflow a b⟩ := by
  rw [subRes_eq, Res.mk.injEq]
  refine ⟨by simp, by simp [BitVec.usubOverflow, ← decide_not], ?_⟩
  rw [Bool.eq_iff_iff]
  simp [Overflows, BitVec.ssubOverflow]
  omega

/-- NEG: no borrow from 0 alone, and overflow for the least word alone. -/
theorem subRes_zero : subRes 0 a false = ⟨0 - a, decide (a = 0), decide (a = 0x8000)⟩ := by
  have ha := a.isLt
  rw [subRes_eq, Res.mk.injEq]
  refine ⟨by simp, ?_, ?_⟩
  · rw [decide_eq_decide, ← BitVec.toNat_inj]
    simp
  · rw [Overflows, decide_eq_decide, ← BitVec.toNat_inj, BitVec.toInt_eq_toNat_cond, BitVec.toInt_eq_toNat_cond]
    simp
    omega

/-! ### The three shapes of R239's rows -/

/-- Z and N as the model sets them. -/
theorem zn_of {k' : Core} (hz : k'.z = (r == 0)) (hn : k'.n = r.msb) : ZN k' r :=
  ⟨hz, by rw [hn, BitVec.msb_eq_getLsbD_last]⟩

section
variable (he : exec i s = .next (issue c n legal body s)) (hr : Ready c n s) (hw : n = 1 ∨ n = 2)
include he hr hw

/-- A result with all four flags. -/
theorem arith_next {cf vf : Bool} (hb : body (s.moved c n) = .done (s.setCore c (((s.seen c).advancePc n).arith d q)) 0)
    (hq : q = ⟨r, cf, vf⟩) : ∃ t, exec i s = .next t ∧ Results c n s t d r cf vf := by
  obtain ⟨t, ht, hrun, hk, hz, hn, hc, hv⟩ := runs_next he hr hw rfl hb regsOnly_arith
  subst hq
  exact ⟨t, ht, hrun, puts_of_set (by simpa [Core.arith, Core.setFlags, Core.setZN] using hk), zn_of hz hn, hc, hv⟩

/-- Four flags of a difference, and no register. -/
theorem compare_next {cf vf : Bool} (hb : body (s.moved c n) = .done (s.setCore c (((s.seen c).advancePc n).setFlags q)) 0)
    (hq : q = ⟨r, cf, vf⟩) :
    ∃ t, exec i s = .next t ∧ Runs c n s t ∧ (t.core c).k = (s.core c).k ∧ ZN (t.core c) r ∧ (t.core c).c = cf ∧ (t.core c).v = vf := by
  obtain ⟨t, ht, hrun, hk, hz, hn, hc, hv⟩ := runs_next he hr hw rfl hb regsOnly_setFlags
  subst hq
  exact ⟨t, ht, hrun, by simpa [Core.setFlags, Core.setZN] using hk, zn_of hz hn, hc, hv⟩

/-- A result with Z and N alone. -/
theorem logic_next {r' : Word} (hb : body (s.moved c n) = .done (s.setCore c (((s.seen c).advancePc n).logic d r')) 0) (hq : r' = r) :
    ∃ t, exec i s = .next t ∧ Results c n s t d r (s.seen c).c (s.seen c).v := by
  obtain ⟨t, ht, hrun, hk, hz, hn, hc, hv⟩ := runs_next he hr hw rfl hb regsOnly_logic
  subst hq
  exact ⟨t, ht, hrun, puts_of_set (by simpa [Core.logic, Core.setZN] using hk), zn_of hz hn,
    hc.trans (logic_c.trans advancePc_c), hv.trans (logic_v.trans advancePc_v)⟩

end

/-! ### The bytes of a word (R239) -/

theorem swapped_bytes (a : Word) : loB a ++ hiB a = a.rotateLeft 8 := by
  unfold loB hiB
  refine BitVec.eq_of_getLsbD_eq fun j hj => ?_
  have h16 : j < 16 := hj
  simp only [BitVec.getLsbD_append, BitVec.getLsbD_rotateLeft]
  split <;> simp [*]
  omega

/-! ### The statements -/

/-- Settles O5: each is a row with four flags, whose result `addRes_eq` and `subRes_eq` give. -/
theorem sumsAndDifferences : Obligations.SumsAndDifferences := by
  intro c d x y s
  refine ⟨fun hr => ⟨?add, ?sub, ?neg, fun w => ?addi, fun hn => ⟨?adc, ?sbc⟩⟩, fun hr w => ?addw⟩
  case add => exact arith_next rfl hr (.inl rfl) onCore_moved (by simp [addRes_false])
  case sub => exact arith_next rfl hr (.inl rfl) onCore_moved (by simp [subRes_false])
  case neg => exact arith_next rfl hr (.inl rfl) onCore_moved (by simp only [advancePc_reg, seen_reg, subRes_zero])
  case addi => exact arith_next rfl hr (.inl rfl) onCore_moved (by simp [addRes_false, sext8])
  case adc => exact arith_next rfl hr (.inl rfl) ((early_moved hn).trans onCore_moved) (by simp [addRes_eq])
  case sbc => exact arith_next rfl hr (.inl rfl) ((early_moved hn).trans onCore_moved) (by cases h : (s.seen c).c <;> simp [subRes_eq, h])
  case addw => exact arith_next rfl hr (.inr rfl) onCore_moved (by simp [addRes_false])

/-- Settles O6: a compare sets four flags of its difference; TST sets two of its AND. -/
theorem comparesSetFlagsAlone : Obligations.ComparesSetFlagsAlone := by
  intro c d x s
  refine ⟨fun hr => ⟨?cmp, ?tst⟩, fun hr w => ?cmpw⟩
  case cmp => exact compare_next rfl hr (.inl rfl) onCore_moved (by simp [subRes_false])
  case tst =>
    obtain ⟨t, ht, hrun, hk, hz, hn, hc, hv⟩ := runs_next (i := .cTst c d x) rfl hr (.inl rfl) rfl onCore_moved regsOnly_setZN
    exact ⟨t, ht, hrun, by simpa [Core.setZN] using hk, zn_of (by simpa [Core.setZN] using hz) (by simpa [Core.setZN] using hn),
      hc.trans (setZN_c.trans advancePc_c), hv.trans (setZN_v.trans advancePc_v)⟩
  case cmpw => exact compare_next rfl hr (.inr rfl) onCore_moved (by simp [subRes_false])

/-- Settles O7: each is a row with Z and N alone. -/
theorem logicResults : Obligations.LogicResults := by
  intro c d x s keeps
  refine ⟨fun hr => ⟨?and, ?or, ?xor, ?not, ?swpb, ?sexb⟩, fun hr w => ⟨?andw, ?orw, ?xorw⟩⟩
  case and => exact logic_next rfl hr (.inl rfl) onCore_moved (by simp)
  case or => exact logic_next rfl hr (.inl rfl) onCore_moved (by simp)
  case xor => exact logic_next rfl hr (.inl rfl) onCore_moved (by simp)
  case not => exact logic_next rfl hr (.inl rfl) onCore_moved (by simp)
  case swpb => exact logic_next rfl hr (.inl rfl) onCore_moved (by simp [swapped_bytes])
  case sexb => exact logic_next rfl hr (.inl rfl) onCore_moved (by simp [sext8, loB])
  case andw => exact logic_next rfl hr (.inr rfl) onCore_moved (by simp)
  case orw => exact logic_next rfl hr (.inr rfl) onCore_moved (by simp)
  case xorw => exact logic_next rfl hr (.inr rfl) onCore_moved (by simp)

end Laws
end Sys2Proof
end

section
/-!
O10: MFS and MTS, which move a special register.
-/
namespace Sys2Proof
namespace Laws
open Machine

variable {c : CoreId} {d x : Reg} {m : BitVec 4} {s : State} {k : Core} {v : Word}

/-! ### Special registers as words (R203, R226, R255) -/

/-- ST: Z, N, C and V from bit 0. -/
theorem stWord_eq : k.stWord = BitVec.ofNat 16 (k.z.toNat + 2 * k.n.toNat + 4 * k.c.toNat + 8 * k.v.toNat) := by
  unfold Core.stWord
  cases k.z <;> cases k.n <;> cases k.c <;> cases k.v <;> rfl

/-- PG: its byte, PEND above it, and nothing above that. -/
theorem pgWord_shows {p : BitVec 8} {b : Bool} :
    let r : Word := fieldAt 16 0 p ||| bitAt 16 8 b
    r.setWidth 8 = p ∧ r.getLsbD 8 = b ∧ r >>> 9 = 0 := by
  refine ⟨?_, ?_, ?_⟩
  · ext j hj
    cases b <;> simp [fieldAt, bitAt]
  · cases b <;> simp [fieldAt, bitAt]
  · have hp : (fieldAt 16 0 p).toNat < 2 ^ 9 := by simp [fieldAt]; omega
    have hb : (bitAt 16 8 b).toNat < 2 ^ 9 := by cases b <;> decide
    have h := Nat.or_lt_two_pow hp hb
    refine BitVec.eq_of_toNat_eq ?_
    rw [BitVec.toNat_ushiftRight, BitVec.toNat_or, Nat.shiftRight_eq_div_pow, Nat.div_eq_of_lt h]
    rfl

theorem special_none (h : m.toNat < 9) : special m k = none := if_neg (by omega)
theorem special_some (h : 9 ≤ m.toNat) : special m k = some 0 := if_pos h

/-! ### MFS -/

/-- What MFS puts in its register (R255). -/
def specialWord (c : CoreId) (m : BitVec 4) (s : State) : Word := (specialVal c m (s.moved c 1)).getD 0

theorem specialWord_pg : let r := specialWord c 8 s
    r.setWidth 8 = (s.seen c).pg ∧ r.getLsbD 8 = s.por.deferred.any (fun e => decide (e.req = coreReq c)) ∧ r >>> 9 = 0 := by
  have h : specialWord c 8 s =
      fieldAt 16 0 (s.seen c).pg ||| bitAt 16 8 (s.por.deferred.any (fun e => decide (e.req = coreReq c))) := by
    simp [specialWord, specialVal, pgWord, State.moved, beq_eq_decide]
  rw [h]
  exact pgWord_shows

theorem mfs_next (hr : Ready c 1 s) (hm : m.toNat < 9) (hn : NotEarly (s.seen c) m) :
    ∃ t, exec (.cMfs c d m) s = .next t ∧ Runs c 1 s t ∧ KeepsFlags c s t ∧ Puts (s.core c) (t.core c) d (specialWord c m s) := by
  have hb := early_moved (n := 1) (g := fun s => .done (s.setCore c ((s.core c).put d ((specialVal c m s).getD 0))) 0) hn
  simp only [setCore_moved, moved_core] at hb
  obtain ⟨t, ht, hrun, hk, hflags⟩ := runs_next (i := .cMfs c d m) rfl hr (.inl rfl) (special_none hm) hb regsOnly_put
  refine ⟨t, ht, hrun, by simpa [KeepsFlags, Core.put] using hflags, puts_of_set ?_⟩
  simpa [specialWord] using hk

/-! ### MTS -/

/-- Moving on and MTS's effect, in either order. -/
theorem putSpecial_advancePc : (k.advancePc 1).putSpecial m v = (k.putSpecial m v).advancePc 1 := by
  rw [advancePc_eq, advancePc_eq, growReturn_rs (.inr (.inr rfl)), growReturn_rs (.inr (.inr rfl))]
  unfold Core.putSpecial
  split_ifs <;> rfl

@[simp] theorem putSpecial_k : (k.putSpecial m v).k = k.k := by
  unfold Core.putSpecial
  split_ifs <;> rfl

/-- A special register but ST leaves the flags. -/
theorem putSpecial_flags (h : m ≠ 0) : (k.putSpecial m v).z = k.z ∧ (k.putSpecial m v).n = k.n ∧ (k.putSpecial m v).c = k.c ∧
    (k.putSpecial m v).v = k.v := by
  unfold Core.putSpecial
  rw [if_neg h]
  split_ifs <;> exact ⟨rfl, rfl, rfl, rfl⟩

theorem putSpecial_readOnly (h : m = 3 ∨ m = 4 ∨ m = 5 ∨ m = 7 ∨ m = 8) : k.putSpecial m v = k := by
  rcases h with rfl | rfl | rfl | rfl | rfl <;> rfl

theorem mts_next (hr : Ready c 1 s) (hm : m.toNat < 9) :
    ∃ t, exec (.cMts c m x) s = .next t ∧ OnlyCore c s t ∧
      t.core c = ((((s.seen c).putSpecial m ((s.core c).reg x)).advancePc 1).spend 1).stepEnd := by
  have hb := onCore_moved (s := s) (c := c) (n := 1) (f := fun k => k.putSpecial m (k.reg x))
  rw [putSpecial_advancePc, advancePc_reg, seen_reg] at hb
  have ht := issue_done (ready_issuing hr) (ready_check hr (.inl rfl) (special_none hm)) hb
  simp only [State.core_setCore, State.setCore_setCore] at ht
  exact ⟨_, rfl, by rw [OnlyCore, ht, State.core_setCore], by rw [ht, State.core_setCore]⟩

/-! ### The statement -/

/-- Settles O10: MFS delivers `specialWord`; MTS's effect commutes with moving on. -/
theorem specialRegistersMove : Obligations.SpecialRegistersMove := by
  intro c d x m s hr k v
  refine ⟨fun hm hn => ?mfs, fun hm => ?mts, fun hm => ?undefined⟩
  case mfs =>
    obtain ⟨t, ht, hrun, hflags, hputs⟩ := mfs_next (d := d) hr hm hn
    refine ⟨t, _, ht, hrun, hflags, hputs, ?_, ?_, ?_, ?_, ?_, ?_, ?_, ?_, ?_⟩
    case refine_9 => rintro rfl; exact specialWord_pg
    all_goals rintro rfl; simp [specialWord, specialVal, stWord_eq, k, fieldAt]
  case mts =>
    obtain ⟨t, ht, honly, hc⟩ := mts_next (x := x) hr hm
    have hi : Issued (k.putSpecial m v) (t.core c) 1 1 := hc ▸ issued_advancePc
    refine ⟨t, ht, honly, by simp [hc], fun h0 => ?_, ?_, ?_, ?_, ?_, fun h => ?_⟩
    · simpa [KeepsFlags, hc] using putSpecial_flags h0
    · rintro rfl
      refine ⟨hi, ?_⟩
      simp [hc, Core.putSpecial, Core.putSt, v]
    · rintro rfl; exact hi
    · rintro rfl; exact hi
    · rintro rfl; exact hi
    · rwa [putSpecial_readOnly h] at hi
  case undefined =>
    exact ⟨illegal_next rfl hr (special_some hm), illegal_next rfl hr (special_some hm)⟩

end Laws
end Sys2Proof
end

section
/-!
SUPPORT. Data space as a core meets it: which accesses trap, what a read changes besides, and what a store changes.
-/
namespace Sys2Proof
namespace Laws
open Machine

variable {c e : CoreId} {n o a : Nat} {s u t : State} {w : Bool} {q : BitVec 2} {r : Reader} {b : Word}

theorem mod_two_of_even (h : b.getLsbD 0 = false) : b.toNat % 2 = 0 := by
  rw [BitVec.getLsbD, Nat.testBit_zero, decide_eq_false_iff_not] at h
  omega

theorem mainOn_of_ready (hr : Ready c n s) : s.mainOn = true := by rw [State.mainOn, hr.1]

/-! ### What a core's own moving on leaves -/

@[simp] theorem moved_mem : (s.moved c n).mem = s.mem := State.setCore_mem
@[simp] theorem moved_prt : (s.moved c n).prt = s.prt := State.setCore_prt
@[simp] theorem moved_mainOn : (s.moved c n).mainOn = s.mainOn := by simp only [State.mainOn, State.moved, State.setCore_pwr]

@[simp] theorem mailboxOwner_moved : mailboxOwner (s.moved c n) a = mailboxOwner s a := by
  simp only [mailboxOwner, State.moved, State.setCore_prt, State.setCore_pc]

@[simp] theorem dataForeign_moved : dataForeign e a (s.moved c n) = dataForeign e a s := by simp only [dataForeign, mailboxOwner_moved]

@[simp] theorem codeWord_moved : codeWord (s.moved c n) b = codeWord s b := by simp only [codeWord, State.moved, State.setCore_img]

@[simp] theorem outHeld_moved : outHeld a (s.moved c n) = outHeld a s := by simp only [outHeld, moved_prt]

/-! ### Which accesses trap (R227, R229, R241, R283) -/

theorem inR_iff {lo hi : Nat} : inR lo hi a = true ↔ lo ≤ a ∧ a ≤ hi := by simp [inR]

theorem dataUnmapped_iff : dataUnmapped w a = true ↔ (0xD000 ≤ a ∧ a ≤ 0xDFFF ∧ 10 ≤ a % 16) ∨
    w = true ∧ ((0xE000 ≤ a ∧ a ≤ 0xEFFF) ∨ (0xF000 ≤ a ∧ a ≤ 0xFFFF ∧ a % 0x400 < 0x200)) := by
  simp [dataUnmapped, inR, and_assoc]

theorem dataForeign_iff : dataForeign c a s = true ↔ (0xF000 ≤ a ∧ a ≤ 0xFFFF) ∧ mailboxOwner s ((a - 0xF000) / 0x400) ≠ some c := by
  simp [dataForeign, inR]

theorem dataTrap_unmapped (h : dataUnmapped w b.toNat = true) : dataTrap c w b s = some (Trap.unmapped b) := if_pos h

theorem dataTrap_foreign (h : dataUnmapped w b.toNat = false) (hf : dataForeign c b.toNat s = true) :
    dataTrap c w b s = some (Trap.ownerMailbox b) := by simp [dataTrap, h, hf]

theorem dataTrap_none (h : dataUnmapped w b.toNat = false) (hf : dataForeign c b.toNat s = false) : dataTrap c w b s = none := by
  simp [dataTrap, h, hf]

theorem wordTrap_odd (h : b.getLsbD 0 = true) : wordTrap c w b s = some (Trap.misalign b) := if_pos h

/-- Both bytes of an even address are mapped, or neither is: a word access then traps as a byte access does. -/
theorem wordTrap_even (h : b.getLsbD 0 = false) : wordTrap c w b s = dataTrap c w b s := by
  have h2 := mod_two_of_even h
  have hb := b.isLt
  have hu : dataUnmapped w (b.toNat + 1) = dataUnmapped w b.toNat := by
    rw [Bool.eq_iff_iff, dataUnmapped_iff, dataUnmapped_iff]
    refine or_congr (by omega) (and_congr_right fun _ => by omega)
  by_cases hd : dataUnmapped w b.toNat = true
  · rw [dataTrap_unmapped hd, wordTrap, h, hu, hd]
    rfl
  · rw [wordTrap, h, hu, Bool.eq_false_of_not_eq_true hd]
    rfl

theorem dataTrap_loadable (h : Loadable c s b.toNat) : dataTrap c false b s = none := by
  have hb := b.isLt
  refine dataTrap_none ?_ ?_
  · rw [← Bool.not_eq_true, dataUnmapped_iff]
    simp only [Bool.false_eq_true, false_and, or_false]
    omega
  · rw [← Bool.not_eq_true, dataForeign_iff]
    rintro ⟨hm, ho⟩
    obtain h | h | h | ⟨-, -, h⟩ := h
    · omega
    · omega
    · omega
    · exact ho h

theorem dataTrap_storable (h : Storable c s b.toNat) : dataTrap c true b s = none := by
  have hb := b.isLt
  refine dataTrap_none ?_ ?_
  · rw [← Bool.not_eq_true, dataUnmapped_iff]
    omega
  · rw [← Bool.not_eq_true, dataForeign_iff]
    rintro ⟨hm, ho⟩
    obtain h | h | ⟨-, -, -, h⟩ := h
    · omega
    · omega
    · exact ho h

theorem wordTrap_loadable (h2 : b.getLsbD 0 = false) (h : Loadable c s b.toNat) : wordTrap c false b s = none :=
  (wordTrap_even h2).trans (dataTrap_loadable h)

theorem wordTrap_storable (h2 : b.getLsbD 0 = false) (h : Storable c s b.toNat) : wordTrap c true b s = none :=
  (wordTrap_even h2).trans (dataTrap_storable h)

@[simp] theorem dataTrap_moved : dataTrap c w b (s.moved c n) = dataTrap c w b s := by simp only [dataTrap, dataForeign_moved]
@[simp] theorem wordTrap_moved : wordTrap c w b (s.moved c n) = wordTrap c w b s := by simp only [wordTrap, dataTrap_moved]

theorem accessSlots_plain (h : Plain a) : accessSlots a = 0 := by
  rw [accessSlots, if_neg (by rw [inR_iff]; omega), if_neg (by rw [inR_iff]; omega)]

/-! ### What a read changes besides (R284 to R286, R349) -/

/-- t is s but for what a data read may change: error registers, free values taken, a fence in the Ashlar. No byte changes. -/
def ReadFrom (s t : State) : Prop := t = { s with mem := t.mem, free := t.free, ash := t.ash } ∧ t.mem.bytes = s.mem.bytes

theorem readFrom_refl (s : State) : ReadFrom s s := ⟨rfl, rfl⟩

theorem readFrom_trans (h : ReadFrom s t) (g : ReadFrom t u) : ReadFrom s u := by
  obtain ⟨h1, h2⟩ := h
  obtain ⟨g1, g2⟩ := g
  refine ⟨?_, g2.trans h2⟩
  rw [h1] at g1
  exact g1

theorem readFrom_core (h : ReadFrom s t) : t.core c = s.core c := core_of (by rw [h.1]) (by rw [h.1])

theorem readFrom_mainOn (h : ReadFrom s t) : t.mainOn = s.mainOn := by
  rw [State.mainOn, State.mainOn, h.1]

theorem eccTouch_eq (r : Reader) (s : State) (a : Nat) :
    eccTouch r s a = { s with mem := (eccTouch r s a).mem, free := (eccTouch r s a).free } := by
  unfold eccTouch
  (repeat' split) <;> rfl

@[simp] theorem eccTouch_bytes : (eccTouch r s a).mem.bytes = s.mem.bytes := by
  unfold eccTouch
  (repeat' split) <;> rfl

/-- A word without a recorded error is read without effect. -/
theorem eccTouch_noError (h : ∀ e ∈ s.mem.errs, e.1 ≠ a) : eccTouch r s a = s := by
  have hn : s.mem.errs.find? (fun e => e.1 == a) = none := by simpa using h
  rw [eccTouch, hn]

theorem readFrom_eccTouch : ReadFrom s (eccTouch r s a) := ⟨by rw [eccTouch_eq], eccTouch_bytes⟩

theorem mainOn_ash (x : Ashlar) : ({ s with ash := x } : State).mainOn = s.mainOn := rfl

/-- In the main domain a fence is the Ashlar's affair (R352). -/
theorem fenceBank_eq (h : s.mainOn = true) : fenceBank n q s = { s with ash := (fenceBank n q s).ash } := by
  unfold fenceBank
  dsimp only
  split
  · rfl
  · rw [if_neg (by simp [mainOn_ash, h])]

theorem readFrom_slotRead (h : s.mainOn = true) : ReadFrom s (slotRead n o s).2 := by
  unfold slotRead
  dsimp only
  split
  · exact readFrom_refl s
  · rw [fenceBank_eq h]
    exact ⟨rfl, rfl⟩

theorem readFrom_dataReadB (h : s.mainOn = true) : ReadFrom s (dataReadB r c a s).2 := by
  unfold dataReadB
  split
  · exact readFrom_slotRead h
  · split
    · exact readFrom_refl s
    · exact readFrom_eccTouch

theorem readFrom_dataReadW (h : s.mainOn = true) : ReadFrom s (dataReadW r c a s).2 := by
  unfold dataReadW
  split
  · have h1 : ReadFrom s (dataReadB r c a s).2 := readFrom_dataReadB h
    exact readFrom_trans h1 (readFrom_dataReadB ((readFrom_mainOn h1).trans h))
  · exact readFrom_eccTouch

theorem dataReadB_plain (h : Plain a) : dataReadB r c a s = (Bytes.read 0 s.mem.bytes a, eccTouch r s (a - a % 2)) := by
  rw [dataReadB, if_neg (by rw [inR_iff]; omega), if_neg (by rw [inR_iff]; omega), sramReadB]

theorem dataReadW_plain (h : Plain a) (h2 : a % 2 = 0) : dataReadW r c a s =
    (word2 (Bytes.read 0 s.mem.bytes a) (Bytes.read 0 s.mem.bytes (a + 1)), eccTouch r s (a - a % 2)) := by
  rw [dataReadW, if_neg (by rw [inR_iff]; omega), sramRead, sramWord, h2, Nat.sub_zero]

/-! ### What a store changes (R282, R331, R394) -/

/-- The mailbox that an address lies in, as its number and as its range. -/
theorem outHeld_iff : outHeld a s = true ↔ Held s a := by
  simp only [outHeld, Bool.and_eq_true, inR_iff, Bool.or_eq_true]
  split_ifs with h0 h1 <;> grind

/-- A byte stored changes memory, and free values where its word held many errors. -/
theorem sramWriteB_eq {v : Byte} : sramWriteB r a v s = { s with mem := (sramWriteB r a v s).mem, free := (sramWriteB r a v s).free } := by
  unfold sramWriteB
  dsimp only
  rw [eccTouch_eq]

theorem sramWriteB_read {v : Byte} {x : Nat} (h : s.mem.sound) : Bytes.read 0 (sramWriteB r a v s).mem.bytes x =
    if x = a then v else Bytes.read 0 s.mem.bytes x := by
  simp only [sramWriteB, eccTouch_bytes]
  exact read_write h

theorem sramWrite_read {v : Word} {x : Nat} (h : s.mem.sound) : Bytes.read 0 (sramWrite a v s).mem.bytes x =
    if x = a then v.setWidth 8 else if x = a + 1 then (v >>> 8).setWidth 8 else Bytes.read 0 s.mem.bytes x := by
  simp only [sramWrite]
  rw [read_write (wf_write h), read_write h]
  split
  · rw [if_neg (by omega)]
    rfl
  · rfl

theorem dataWriteB_plain {v : Byte} (h : Plain a) : dataWriteB r c a v s = if outHeld a s then s else sramWriteB r a v s :=
  if_neg (by rw [inR_iff]; omega)

theorem dataWriteW_plain {v : Word} (h : Plain a) : dataWriteW c a v s = if outHeld a s then s else sramWrite a v s :=
  if_neg (by rw [inR_iff]; omega)

/-- Bytes staged are the Ashlar's affair (R331). -/
theorem stageWrite_eq {l : List Byte} : stageWrite c n o l s = { s with ash := (stageWrite c n o l s).ash } := by cases c <;> rfl

theorem dataWriteB_window {v : Byte} (h : 0xD000 ≤ a ∧ a < 0xE000) : dataWriteB r c a v s = { s with ash := (dataWriteB r c a v s).ash } := by
  rw [dataWriteB, if_pos (by rw [inR_iff]; omega)]
  exact stageWrite_eq

theorem dataWriteW_window {v : Word} (h : 0xD000 ≤ a ∧ a < 0xE000) : dataWriteW c a v s = { s with ash := (dataWriteW c a v s).ash } := by
  rw [dataWriteW, if_pos (by rw [inR_iff]; omega)]
  exact stageWrite_eq

/-- A store in plain memory, from what it writes where no message holds the bytes (R394). -/
theorem plain_store {g : Nat → Byte} (hu : u = if outHeld a s then s else t) (ht : t = { s with mem := t.mem, free := t.free })
    (hg : ∀ x, Bytes.read 0 t.mem.bytes x = g x) :
    u = { s with mem := u.mem, free := u.free } ∧ ∀ x, Bytes.read 0 u.mem.bytes x = if outHeld a s then Bytes.read 0 s.mem.bytes x else g x := by
  subst hu
  split
  · exact ⟨rfl, fun _ => rfl⟩
  · exact ⟨ht, hg⟩

theorem dataWriteW_moved {v : Word} (h : Plain a) (hm : s.mem.sound) :
    let u := dataWriteW c a v (s.moved e n)
    u = { s.moved e n with mem := u.mem, free := u.free } ∧ ∀ x, Bytes.read 0 u.mem.bytes x =
      if Held s a then Bytes.read 0 s.mem.bytes x
      else if x = a then v.setWidth 8 else if x = a + 1 then (v >>> 8).setWidth 8 else Bytes.read 0 s.mem.bytes x := by
  have := plain_store (dataWriteW_plain (c := c) (v := v) (s := s.moved e n) h) rfl fun x => sramWrite_read (by rwa [moved_mem])
  simpa only [outHeld_moved, outHeld_iff, moved_mem] using this

theorem dataWriteB_moved {v : Word} (h : Plain a) (hm : s.mem.sound) :
    let u := dataWriteB r c a (loB v) (s.moved e n)
    u = { s.moved e n with mem := u.mem, free := u.free } ∧ ∀ x, Bytes.read 0 u.mem.bytes x =
      if Held s a then Bytes.read 0 s.mem.bytes x else if x = a then v.setWidth 8 else Bytes.read 0 s.mem.bytes x := by
  have := plain_store (dataWriteB_plain (r := r) (c := c) (v := loB v) (s := s.moved e n) h) sramWriteB_eq fun x =>
    sramWriteB_read (by rwa [moved_mem])
  simpa only [outHeld_moved, outHeld_iff, moved_mem, loB] using this

end Laws
end Sys2Proof
end

section
/-!
O11, O12, O16: loads, stores, and the data accesses that trap.
-/
namespace Sys2Proof
namespace Laws
open Machine

variable {c : CoreId} {d b : Reg} {n extra : Nat} {s t u : State} {k : Core} {a : Word} {i : Instr} {body : State → Effect} {f : Core → Word}

/-! ### What an access leaves -/

/-- A core written over what memory alone has changed, and over what the Ashlar alone has. -/
theorem eq_setCore_of_memory (hu : u = { s.moved c n with mem := u.mem, free := u.free }) (ht : t = u.setCore c k) :
    t = { s.setCore c k with mem := t.mem, free := t.free } := by
  subst ht
  rw [State.setCore_mem, State.setCore_free]
  nth_rw 1 [hu]
  cases c <;> rfl

theorem eq_setCore_of_ashlar (hu : u = { s.moved c n with ash := u.ash }) (ht : t = u.setCore c k) :
    t = { s.setCore c k with ash := t.ash } := by
  subst ht
  rw [State.setCore_ash]
  nth_rw 1 [hu]
  cases c <;> rfl

section
variable (he : exec i s = .next (issue c n legal body s)) (hr : Ready c n s) (hw : n = 1 ∨ n = 2)
include he hr hw

/-- What an access leaves: its core moved on, and of the rest what its effect leaves. -/
theorem access_next (hb : body (s.moved c n) = .done u extra) (hk : RegsOnly ((s.seen c).advancePc n) (u.core c)) :
    ∃ t, exec i s = .next t ∧ t = u.setCore c (t.core c) ∧ Issued (s.seen c) (t.core c) n (n + extra) ∧
      (t.core c).k = (u.core c).k ∧ (t.core c).z = (u.core c).z ∧ (t.core c).n = (u.core c).n ∧ (t.core c).c = (u.core c).c ∧
      (t.core c).v = (u.core c).v := by
  have ht := issue_of_done hr hw hb
  refine ⟨_, he, ?_⟩
  rw [ht, State.core_setCore]
  exact ⟨rfl, issued_regsOnly hk, by simp⟩

/-! ### Loads (R205, R206, R240) -/

/-- A load leaves its value in Kd, and of the rest what its read leaves. -/
theorem load_next {r : Word × State} (hb : body (s.moved c n) = .done (regIn c d r) extra) (hread : ReadFrom (s.moved c n) r.2) :
    ∃ t, exec i s = .next t ∧ t = r.2.setCore c (t.core c) ∧ Issued (s.seen c) (t.core c) n (n + extra) ∧ KeepsFlags c s t ∧
      Puts (s.core c) (t.core c) d r.1 := by
  have hc : (regIn c d r).core c = ((s.seen c).advancePc n).put d r.1 := by
    rw [regIn, State.core_setCore, readFrom_core hread, moved_core]
  obtain ⟨t, ht, heq, hi, hk, hflags⟩ := access_next he hr hw hb (by rw [hc]; exact regsOnly_put)
  rw [hc] at hk hflags
  refine ⟨t, ht, by rwa [regIn, State.setCore_setCore] at heq, hi, by simpa [KeepsFlags, Core.put] using hflags, puts_of_set ?_⟩
  simpa using hk

/-- What a load shows whose address is `a`; v is what plain memory holds there. -/
theorem load_shows {r : Word × State} {q : Reader} {v : Word} (hb : body (s.moved c n) = .done (regIn c d r) (accessSlots a.toNat))
    (hread : ReadFrom (s.moved c n) r.2) (hp : Plain a.toNat → r = (v, eccTouch q (s.moved c n) (a.toNat - a.toNat % 2))) :
    ∃ t, exec i s = .next t ∧ (t.core c).pc = (s.seen c).following n ∧ KeepsFlags c s t ∧ Puts (s.core c) (t.core c) d r.1 ∧
      t.mem.bytes = s.mem.bytes ∧
      (Plain a.toNat → Puts (s.core c) (t.core c) d v ∧ t = { s.setCore c (t.core c) with mem := t.mem, free := t.free } ∧
        Issued (s.seen c) (t.core c) n n ∧ (NoError s a.toNat → t.mem = s.mem ∧ t.free = s.free)) := by
  obtain ⟨t, ht, heq, hi, hflags, hputs⟩ := load_next he hr hw hb hread
  have hmem : t.mem = r.2.mem := by rw [heq, State.setCore_mem]
  have hfree : t.free = r.2.free := by rw [heq, State.setCore_free]
  refine ⟨t, ht, issued_pc hi, hflags, hputs, by rw [hmem, hread.2, moved_mem], fun h => ?_⟩
  obtain rfl := hp h
  rw [accessSlots_plain h, Nat.add_zero] at hi
  refine ⟨hputs, ?_, hi, fun hn => ?_⟩
  · exact eq_setCore_of_memory (eccTouch_eq _ _ _) heq
  · rw [eccTouch_noError (by rwa [moved_mem])] at hmem hfree
    exact ⟨hmem.trans moved_mem, hfree.trans State.setCore_free⟩

/-! ### Stores (R206, R240, R331) -/

/-- What a store shows whose address is `a`: in plain memory g is what its bytes then hold. -/
theorem store_shows {g : Nat → Byte} (hs : Storable c s a.toNat) (hb : body (s.moved c n) = .done u (accessSlots a.toNat))
    (hp : Plain a.toNat → u = { s.moved c n with mem := u.mem, free := u.free } ∧ ∀ x, Bytes.read 0 u.mem.bytes x = g x)
    (ha : ¬ Plain a.toNat → u = { s.moved c n with ash := u.ash }) :
    ∃ t, exec i s = .next t ∧ (t.core c).pc = (s.seen c).following n ∧ KeepsFlags c s t ∧ (t.core c).k = (s.core c).k ∧
      (Plain a.toNat → t = { s.setCore c (t.core c) with mem := t.mem, free := t.free } ∧ Issued (s.seen c) (t.core c) n n ∧
        ∀ x, Bytes.read 0 t.mem.bytes x = g x) ∧
      (¬ Plain a.toNat → t = { s.setCore c (t.core c) with ash := t.ash } ∧ Issued (s.seen c) (t.core c) n (n + 1)) := by
  have hc : u.core c = (s.seen c).advancePc n := by
    rw [← moved_core]
    by_cases h : Plain a.toNat
    · rw [(hp h).1]; exact core_of rfl rfl
    · rw [ha h]; exact core_of rfl rfl
  obtain ⟨t, ht, heq, hi, hk, hflags⟩ := access_next he hr hw hb (by rw [hc]; rfl)
  rw [hc] at hk hflags
  refine ⟨t, ht, issued_pc hi, by simpa [KeepsFlags] using hflags, by simpa using hk, fun h => ?_, fun h => ?_⟩
  · obtain ⟨hu, hg⟩ := hp h
    rw [accessSlots_plain h, Nat.add_zero] at hi
    exact ⟨eq_setCore_of_memory hu heq, hi, by rwa [heq, State.setCore_mem]⟩
  · have h1 : accessSlots a.toNat = 1 := if_pos (by rw [inR_iff]; omega)
    rw [h1] at hi
    exact ⟨eq_setCore_of_ashlar (ha h) heq, hi⟩

end

/-! ### The bodies of LD, LDB, ST, STB at an address -/

section
variable (ha : f ((s.seen c).advancePc n) = a)
include ha

theorem loadWord_done (h2 : a.getLsbD 0 = false) (h : Loadable c s a.toNat) : loadWord c d f (s.moved c n) =
    .done (regIn c d (dataReadW (.core c) c a.toNat (s.moved c n))) (accessSlots a.toNat) := by
  simp only [loadWord, moved_core, ha, wordTrap_moved, wordTrap_loadable h2 h]

theorem loadByte_done (h : Loadable c s a.toNat) : loadByte c d f (s.moved c n) =
    let r := dataReadB (.core c) c a.toNat (s.moved c n)
    .done (regIn c d (r.1.setWidth 16, r.2)) (accessSlots a.toNat) := by
  simp only [loadByte, moved_core, ha, dataTrap_moved, dataTrap_loadable h]

theorem storeWord_done (h2 : a.getLsbD 0 = false) (h : Storable c s a.toNat) : storeWord c d f (s.moved c n) =
    .done (dataWriteW c a.toNat ((s.core c).reg d) (s.moved c n)) (accessSlots a.toNat) := by
  simp only [storeWord, moved_core, ha, wordTrap_moved, wordTrap_storable h2 h, advancePc_reg, seen_reg]

theorem storeByte_done (h : Storable c s a.toNat) : storeByte c d f (s.moved c n) =
    .done (dataWriteB (.core c) c a.toNat (loB ((s.core c).reg d)) (s.moved c n)) (accessSlots a.toNat) := by
  simp only [storeByte, moved_core, ha, dataTrap_moved, dataTrap_storable h, advancePc_reg, seen_reg]

theorem loadWord_trap {p : Trap} (h : wordTrap c false a s = some p) : loadWord c d f (s.moved c n) = .trap p := by
  simp only [loadWord, moved_core, ha, wordTrap_moved, h]

theorem loadByte_trap {p : Trap} (h : dataTrap c false a s = some p) : loadByte c d f (s.moved c n) = .trap p := by
  simp only [loadByte, moved_core, ha, dataTrap_moved, h]

theorem storeWord_trap {p : Trap} (h : wordTrap c true a s = some p) : storeWord c d f (s.moved c n) = .trap p := by
  simp only [storeWord, moved_core, ha, wordTrap_moved, h]

theorem storeByte_trap {p : Trap} (h : dataTrap c true a s = some p) : storeByte c d f (s.moved c n) = .trap p := by
  simp only [storeByte, moved_core, ha, dataTrap_moved, h]

end

theorem wordAt_moved {v : BitVec 4} : ((s.seen c).advancePc n).wordAt b v = (s.core c).reg b + 2 * v.setWidth 16 := by
  simp only [Core.wordAt, advancePc_reg, seen_reg]

theorem byteAt_moved {v : BitVec 4} : ((s.seen c).advancePc n).byteAt b v = (s.core c).reg b + v.setWidth 16 := by
  simp only [Core.byteAt, advancePc_reg, seen_reg]

theorem dispAt_moved {v : Word} : ((s.seen c).advancePc n).dispAt b v = (s.core c).reg b + v := by
  simp only [Core.dispAt, advancePc_reg, seen_reg]

theorem reg_moved : ((s.seen c).advancePc n).reg b = (s.core c).reg b := by simp only [advancePc_reg, seen_reg]

/-! ### The statements -/

/-- Settles O11: a load that is allowed reads by `dataReadW` or `dataReadB`, which change nothing but what `ReadFrom` says; LDP reads
the running image. -/
theorem loadsReadDataAndCode : Obligations.LoadsReadDataAndCode := by
  intro c d b s word byte code
  have words : ∀ {n : Nat} {i : Instr} {f : Core → Word} {a : Word}, Ready c n s → n = 1 ∨ n = 2 → f ((s.seen c).advancePc n) = a →
      exec i s = .next (issue c n legal (loadWord c d f) s) → word n i a := by
    intro n i f a hr hw ha he h2 hl
    exact load_shows he hr hw (loadWord_done ha h2 hl) (readFrom_dataReadW (by rw [moved_mainOn]; exact mainOn_of_ready hr))
      fun hp => by rw [dataReadW_plain hp (mod_two_of_even h2), moved_mem]
  have bytes : ∀ {n : Nat} {i : Instr} {f : Core → Word} {a : Word}, Ready c n s → n = 1 ∨ n = 2 → f ((s.seen c).advancePc n) = a →
      exec i s = .next (issue c n legal (loadByte c d f) s) → byte n i a := by
    intro n i f a hr hw ha he hl
    exact load_shows he hr hw (loadByte_done ha hl) (readFrom_dataReadB (by rw [moved_mainOn]; exact mainOn_of_ready hr))
      fun hp => by rw [dataReadB_plain hp, moved_mem]
  have codes : ∀ {n : Nat} {i : Instr} {f : Core → Word} {a : Word}, Ready c n s → n = 1 ∨ n = 2 → f ((s.seen c).advancePc n) = a →
      exec i s = .next (issue c n legal (loadCode c d f) s) → code n i a := by
    intro n i f a hr hw ha he
    obtain ⟨t, ht, heq, hi, hflags, hputs⟩ := load_next he hr hw (d := d) (r := (codeWord s a, s.moved c n))
      (by rw [loadCode, moved_core, ha, codeWord_moved]) (readFrom_refl _)
    exact ⟨t, ht, ⟨by rwa [State.moved, State.setCore_setCore] at heq, hi⟩, hflags, hputs⟩
  refine ⟨fun hr u => ⟨?_, ?_, ?_⟩, fun hr v => ⟨?_, ?_, ?_⟩⟩
  · exact words hr (.inl rfl) wordAt_moved rfl
  · exact bytes hr (.inl rfl) byteAt_moved rfl
  · exact codes hr (.inl rfl) reg_moved rfl
  · exact words hr (.inr rfl) dispAt_moved rfl
  · exact bytes hr (.inr rfl) dispAt_moved rfl
  · exact codes hr (.inr rfl) dispAt_moved rfl

/-- Settles O12: a store that is allowed writes by `dataWriteW` or `dataWriteB`; the bytes follow from `sramWrite_read` and
`sramWriteB_read`. -/
theorem storesWriteTheirBytesAlone : Obligations.StoresWriteTheirBytesAlone := by
  intro c d b s hm v store word byte
  have words : ∀ {n : Nat} {i : Instr} {f : Core → Word} {a : Word}, Ready c n s → n = 1 ∨ n = 2 → f ((s.seen c).advancePc n) = a →
      exec i s = .next (issue c n legal (storeWord c d f) s) → word n i a := by
    intro n i f a hr hw ha he h2 hs
    exact store_shows he hr hw hs (storeWord_done ha (h2 rfl) hs)
      (fun hp => dataWriteW_moved hp hm) fun hp => dataWriteW_window (by omega)
  have bytes : ∀ {n : Nat} {i : Instr} {f : Core → Word} {a : Word}, Ready c n s → n = 1 ∨ n = 2 → f ((s.seen c).advancePc n) = a →
      exec i s = .next (issue c n legal (storeByte c d f) s) → byte n i a := by
    intro n i f a hr hw ha he _ hs
    exact store_shows he hr hw hs (storeByte_done ha hs)
      (fun hp => dataWriteB_moved hp hm) fun hp => dataWriteB_window (by omega)
  refine ⟨fun hr u => ⟨?_, ?_⟩, fun hr w => ⟨?_, ?_⟩⟩
  · exact words hr (.inl rfl) wordAt_moved rfl
  · exact bytes hr (.inl rfl) byteAt_moved rfl
  · exact words hr (.inr rfl) dispAt_moved rfl
  · exact bytes hr (.inr rfl) dispAt_moved rfl

/-- Settles O16: an access traps as `wordTrap` or `dataTrap` of its address says. -/
theorem dataAccessesTrap : Obligations.DataAccessesTrap := by
  intro c d b s hr a
  have hword : ((s.seen c).advancePc 1).wordAt b 0 = a := by rw [wordAt_moved]; simp [a]
  have hbyte : ((s.seen c).advancePc 1).byteAt b 0 = a := by rw [byteAt_moved]; simp [a]
  have hlt := a.isLt
  have ld : ∀ {p}, wordTrap c false a s = some p → ∃ t, exec (.cLd c d b 0) s = .next t ∧ Traps c 1 p s t :=
    fun h => trap_next rfl hr (.inl rfl) rfl (loadWord_trap hword h)
  have st : ∀ {p}, wordTrap c true a s = some p → ∃ t, exec (.cSt c d b 0) s = .next t ∧ Traps c 1 p s t :=
    fun h => trap_next rfl hr (.inl rfl) rfl (storeWord_trap hword h)
  have ldb : ∀ {p}, dataTrap c false a s = some p → ∃ t, exec (.cLdb c d b 0) s = .next t ∧ Traps c 1 p s t :=
    fun h => trap_next rfl hr (.inl rfl) rfl (loadByte_trap hbyte h)
  have stb : ∀ {p}, dataTrap c true a s = some p → ∃ t, exec (.cStb c d b 0) s = .next t ∧ Traps c 1 p s t :=
    fun h => trap_next rfl hr (.inl rfl) rfl (storeByte_trap hbyte h)
  refine ⟨fun h => ?misaligned, fun h2 hlo hhi hm => ?hole, fun h2 h => ?readOnly, fun hlo ho => ?foreign⟩
  case misaligned =>
    simp only [List.forall_mem_cons]
    exact ⟨ld (wordTrap_odd h), st (wordTrap_odd h), by simp⟩
  case hole =>
    have hu : ∀ w, dataTrap c w a s = some (Trap.unmapped a) := fun w => dataTrap_unmapped (dataUnmapped_iff.mpr (.inl (by omega)))
    simp only [List.forall_mem_cons]
    exact ⟨ld ((wordTrap_even h2).trans (hu _)), st ((wordTrap_even h2).trans (hu _)), ldb (hu _), stb (hu _), by simp⟩
  case readOnly =>
    have hu : dataTrap c true a s = some (Trap.unmapped a) := dataTrap_unmapped (dataUnmapped_iff.mpr (.inr ⟨rfl, by omega⟩))
    simp only [List.forall_mem_cons]
    exact ⟨st ((wordTrap_even h2).trans hu), stb hu, by simp⟩
  case foreign =>
    have hf : dataForeign c a.toNat s = true := dataForeign_iff.mpr ⟨by omega, ho⟩
    have hload : dataTrap c false a s = some (Trap.ownerMailbox a) := dataTrap_foreign (by
      rw [← Bool.not_eq_true, dataUnmapped_iff]
      simp only [Bool.false_eq_true, false_and, or_false]
      omega) hf
    have hstore : 0x200 ≤ a.toNat % 0x400 → dataTrap c true a s = some (Trap.ownerMailbox a) := fun h => dataTrap_foreign (by
      rw [← Bool.not_eq_true, dataUnmapped_iff]
      omega) hf
    exact ⟨ldb hload, fun h2 => ld ((wordTrap_even h2).trans hload), fun h => stb (hstore h)⟩

end Laws
end Sys2Proof
end

section
/-!
O13, O14, O15: branches, jumps, calls and returns, and the instructions that trap by rank.
-/
namespace Sys2Proof
namespace Laws
open Machine

variable {c : CoreId} {x : Reg} {n : Nat} {s : State} {k : Core} {i : Instr} {body : State → Effect} {o : Option Word} {a : Word}
variable {f : Core → Word} {cc : Cond} {off : BitVec 8}

/-! ### Transfers (R214) -/

/-- The core after a transfer to o that leaves the return stack as l, p, d and its two flags say. -/
def transferred (o : Option Word) (call : Bool) (l : Vector Word 8) (p : Fin 8) (d : Nat) (wrapped under : Bool) (k : Core) : Core :=
  { k with xfer := some o, call := call, rs := l, rsP := p, rsD := d, rsWrapped := wrapped, rsUnder := under }

/-- Outside a slot an instruction finds the return stack as it was (R216). -/
theorem seen_advancePc_rs (hx : (s.core c).xfer = none) : ((s.seen c).advancePc n).rs = (s.core c).rs := by
  rw [advancePc_rs (.inr (.inl (seen_xfer.trans hx))), seen_rs]

/-- Outside a slot an instruction finds the program counter behind its own words (R214). -/
theorem seen_advancePc_pc (hx : (s.core c).xfer = none) : ((s.seen c).advancePc n).pc = (s.core c).pc + BitVec.ofNat 16 n := by
  rw [advancePc_pc, following_of_none (seen_xfer.trans hx), seen_pc]

section
variable (he : exec i s = .next (issue c n noSlot body s)) (hr : Ready c n s) (hw : n = 1 ∨ n = 2) (hx : (s.core c).xfer = none)
include he hr hw hx

/-- Outside a slot a transfer leaves what its effect leaves. -/
theorem transfer_next {call wrapped under : Bool} {l : Vector Word 8} {p : Fin 8} {d : Nat}
    (hb : body (s.moved c n) = .done (s.setCore c (transferred o call l p d wrapped under ((s.seen c).advancePc n))) 0) :
    ∃ t, exec i s = .next t ∧ Transfers c n s t o ∧ (t.core c).call = call ∧ (t.core c).rs = l ∧ (t.core c).rsP = p ∧
      (t.core c).rsD = d ∧ (t.core c).rsWrapped = wrapped ∧ (t.core c).rsUnder = under := by
  obtain ⟨htr, hc⟩ := transfers_of hr hw (noSlot_landDue hx) o _ hb rfl
  exact ⟨_, he, htr, by rw [hc]; exact ⟨rfl, rfl, rfl, rfl, rfl, rfl⟩⟩

/-- A jump or branch leaves the return stack. -/
theorem jump_next (hb : body (s.moved c n) = .done (s.setCore c { (s.seen c).advancePc n with xfer := some o }) 0) :
    ∃ t, exec i s = .next t ∧ Transfers c n s t o ∧ (t.core c).rs = (s.core c).rs ∧ (t.core c).rsP = (s.core c).rsP ∧
      (t.core c).rsD = (s.core c).rsD := by
  let k := (s.seen c).advancePc n
  obtain ⟨t, ht, htr, -, hrs, hp, hd, -⟩ := transfer_next he hr hw hx (call := k.call) (l := k.rs) (p := k.rsP) (d := k.rsD)
    (wrapped := k.rsWrapped) (under := k.rsUnder) hb
  exact ⟨t, ht, htr, hrs.trans (seen_advancePc_rs hx), by simpa [k] using hp, by simpa [k] using hd⟩

end

/-! ### Branches (R245, R246) -/

theorem meets_iff : k.meets cc ↔ k.holds cc = true := by
  cases cc <;> simp [Core.meets, Core.holds]

theorem holds_advancePc : (k.advancePc n).holds cc = k.holds cc := by
  cases cc <;> simp [Core.holds]

/-- Where a branch goes on after its slot. -/
def branchTarget (k : Core) (cc : Cond) (off : BitVec 8) : Option Word :=
  if k.holds cc then some (k.pc + 1 + off.signExtend 16) else none

theorem branch_moved (hx : (s.core c).xfer = none) : branch c cc off (s.moved c 1) =
    .done (s.setCore c { (s.seen c).advancePc 1 with xfer := some (branchTarget (s.seen c) cc off) }) 0 := by
  rw [branch, onCore_moved, holds_advancePc, branchTarget, seen_advancePc_pc hx, seen_pc]
  split <;> rfl

/-- Under schedule check a branch is taken where no result in flight aims at ST, and AL reads no flag (R280). -/
theorem bcc_moved (hx : (s.core c).xfer = none) (hn : cc = .al ∨ NotEarly (s.seen c) 0) :
    (if cc = .al then branch c cc off else early c 0 (branch c cc off)) (s.moved c 1) =
    .done (s.setCore c { (s.seen c).advancePc 1 with xfer := some (branchTarget (s.seen c) cc off) }) 0 := by
  by_cases h : cc = .al
  · rw [if_pos h, branch_moved hx]
  · rw [if_neg h, early_moved (hn.resolve_left h), branch_moved hx]

/-- Settles O13: a branch goes to `branchTarget`; log entry 18 reads AL as no early read. -/
theorem branchesAndJumpsTakeEffectAfterTheirSlot : Obligations.BranchesAndJumpsTakeEffectAfterTheirSlot := by
  intro c x s k
  refine ⟨fun hr hx => ⟨fun cc off hn => ?bcc, ?jr⟩, fun hr hx v => ?jmp⟩
  case bcc =>
    obtain ⟨t, ht, htr, hrs, hp, hd⟩ := jump_next (i := .cBcc c cc off) rfl hr (.inl rfl) hx (bcc_moved hx hn)
    refine ⟨t, _, ht, htr, hrs, hp, hd, fun h => if_pos (meets_iff.mp h), fun h => if_neg (h ∘ meets_iff.mpr)⟩
  case jr => exact jump_next rfl hr (.inl rfl) hx (onCore_moved.trans (by simp [Core.jump]))
  case jmp => exact jump_next rfl hr (.inr rfl) hx onCore_moved

/-! ### Calls and returns (R216, R221) -/

theorem push_none (hd : k.rsD = 8) (ht : k.rsTrap = true) : k.push a = none := by simp [Core.push, hd, ht]

theorem pop_none (hd : k.rsD = 0) (ht : k.rsTrap = true) : k.pop = none := by simp [Core.pop, hd, ht]

theorem push_some (h : ¬ (k.rsD = 8 ∧ k.rsTrap = true)) : k.push a = some
    { k with rs := k.rs.set k.rsP.val a, rsP := k.rsP + 1, rsD := min (k.rsD + 1) 8, rsWrapped := k.rsWrapped || decide (k.rsD = 8) } := by
  rw [Core.push, if_neg (by simpa using h)]
  rfl

theorem pop_some (h : ¬ (k.rsD = 0 ∧ k.rsTrap = true)) : k.pop = some
    (k.rs.get (k.rsP + 7), { k with rsP := k.rsP + 7, rsD := k.rsD - 1, rsUnder := k.rsUnder || decide (k.rsD = 0) }) := by
  rw [Core.pop, if_neg (by simpa using h)]
  rfl

theorem callTo_done (h : ¬ ((s.core c).rsD = 8 ∧ (s.core c).rsTrap = true)) : callTo c f s =
    let k := s.core c
    .done (s.setCore c (transferred (some (f k)) true (k.rs.set k.rsP.val (k.pc + 1)) (k.rsP + 1) (min (k.rsD + 1) 8)
      (k.rsWrapped || decide (k.rsD = 8)) k.rsUnder k)) 0 := by
  simp only [callTo, push_some h]
  rfl

theorem returnOp_done (h : ¬ ((s.core c).rsD = 0 ∧ (s.core c).rsTrap = true)) : returnOp c s =
    let k := s.core c
    .done (s.setCore c (transferred (some (k.rs.get (k.rsP + 7))) k.call k.rs (k.rsP + 7) (k.rsD - 1) k.rsWrapped
      (k.rsUnder || decide (k.rsD = 0)) k)) 0 := by
  simp only [returnOp, pop_some h]
  rfl

theorem callTo_full (hd : (s.core c).rsD = 8) (ht : (s.core c).rsTrap = true) : callTo c f s = .trap Trap.rsOver := by
  simp only [callTo, push_none hd ht]

theorem returnOp_empty (hd : (s.core c).rsD = 0) (ht : (s.core c).rsTrap = true) : returnOp c s = .trap Trap.rsUnder := by
  simp only [returnOp, pop_none hd ht]

/-- Outside a slot, with room in the ring, a call pushes the address of the word after its slot. -/
theorem call_next (he : exec i s = .next (issue c n noSlot (callTo c f) s)) (hw : n = 1 ∨ n = 2) (hr : Ready c n s)
    (hx : (s.core c).xfer = none) (hroom : ¬ ((s.core c).rsD = 8 ∧ (s.core c).rsTrap = true)) :
    let k := s.core c
    ∃ t, exec i s = .next t ∧ Transfers c n s t (some (f ((s.seen c).advancePc n))) ∧ (t.core c).call = true ∧
      (t.core c).rs = k.rs.set k.rsP.val (k.pc + BitVec.ofNat 16 n + 1) ∧ (t.core c).rsP = k.rsP + 1 ∧
      (t.core c).rsD = min (k.rsD + 1) 8 ∧ (t.core c).rsWrapped = (k.rsWrapped || decide (k.rsD = 8)) ∧ (t.core c).rsUnder = k.rsUnder := by
  intro k
  have hb := callTo_done (s := s.moved c n) (c := c) (f := f) (by simpa using hroom)
  simp only [moved_core, setCore_moved] at hb
  obtain ⟨t, ht, htr, hstack⟩ := transfer_next he hr hw hx hb
  refine ⟨t, ht, htr, ?_⟩
  simpa only [seen_advancePc_rs hx, seen_advancePc_pc hx, advancePc_rsP, advancePc_rsD, advancePc_rsWrapped, advancePc_rsUnder, seen_rsP,
    seen_rsD, seen_rsWrapped, seen_rsUnder] using hstack

theorem ret_next (hr : Ready c 1 s) (hx : (s.core c).xfer = none) (hheld : ¬ ((s.core c).rsD = 0 ∧ (s.core c).rsTrap = true)) :
    let k := s.core c
    ∃ t, exec (.cRet c) s = .next t ∧ Transfers c 1 s t (some (k.rs.get (k.rsP + 7))) ∧ (t.core c).rs = k.rs ∧
      (t.core c).rsP = k.rsP + 7 ∧ (t.core c).rsD = k.rsD - 1 ∧ (t.core c).rsUnder = (k.rsUnder || decide (k.rsD = 0)) ∧
      (t.core c).rsWrapped = k.rsWrapped := by
  intro k
  have hb := returnOp_done (s := s.moved c 1) (c := c) (by simpa using hheld)
  simp only [moved_core, setCore_moved] at hb
  simp only [seen_advancePc_rs hx, advancePc_rsP, advancePc_rsD, advancePc_rsWrapped, advancePc_rsUnder, seen_rsP, seen_rsD,
    seen_rsWrapped, seen_rsUnder] at hb
  obtain ⟨t, ht, htr, -, hrs, hp, hd, hwr, hun⟩ := transfer_next (i := .cRet c) rfl hr (.inl rfl) hx hb
  exact ⟨t, ht, htr, hrs, hp, hd, hun, hwr⟩

/-- A two-word instruction in a call's slot raises the pushed address by one (R216). -/
theorem growReturn_call (hx : k.xfer ≠ none) (hc : k.call = true) :
    (k.growReturn 2).rs = k.rs.set (k.rsP + 7).val (k.rs.get (k.rsP + 7) + 1) := by
  rw [Core.growReturn, if_pos]
  simpa [hc, Option.isSome_iff_ne_none] using hx

/-- Settles O14: a push and a pop are `push_some` and `pop_some`; the slot's extension word is counted by `growReturn_call`. -/
theorem callsPushAndReturnsPop : Obligations.CallsPushAndReturnsPop := by
  intro c x s k calls
  refine ⟨fun off hr hx hroom => ?call, fun v => ?callAbs, ?callr, fun hr hx hheld => ret_next hr hx hheld, fun hr hx hc d v => ?slot⟩
  case call =>
    have h := call_next (i := .cCall c off) rfl (.inl rfl) hr hx hroom
    rwa [seen_advancePc_pc hx] at h
  case callAbs => exact fun hr hx hroom => call_next (f := fun _ => v) rfl (.inr rfl) hr hx hroom
  case callr =>
    intro hr hx hroom
    have h := call_next (i := .cCallr c x) rfl (.inl rfl) hr hx hroom
    rwa [advancePc_reg, seen_reg] at h
  case slot =>
    obtain ⟨o, ho⟩ := hx
    have ht := issue_of_done hr (.inr rfl) (onCore_moved (f := fun k => k.put d v))
    have hrs : ((s.seen c).advancePc 2).rs = k.rs.set (k.rsP + 7).val (k.rs.get (k.rsP + 7) + 1) := by
      rw [advancePc_eq]
      simpa using growReturn_call (k := s.seen c) (by simp [k, ho]) (seen_call.trans hc)
    refine ⟨_, rfl, ?_⟩
    rw [ht, State.core_setCore, State.core_setCore]
    exact ⟨by simpa using hrs, by simp [k], by simp [k]⟩

/-! ### Traps by rank (R215, R228, R229, R280) -/

theorem noSlot_seen (h : ∃ o, (s.core c).xfer = some o) : noSlot (s.seen c) = some 1 := by
  obtain ⟨o, ho⟩ := h
  simp [noSlot, ho]

/-- A core B above its reach fetches nothing (R229). -/
theorem issueCheck_fetch (h : 0x2000 ≤ k.pc.toNat) : issueCheck .b n legal k = some (Trap.fetch k.pc) := by
  simp [issueCheck, legal, CoreId.isB, h]

theorem early_traps {g : State → Effect} {q : BitVec 4} (hs : (s.core c).sched = true)
    (hf : ∃ r ∈ (s.seen c).au.flight, r.aims q = true) : early c q g (s.moved c n) = .trap (Trap.sched q) := by
  rw [early, if_pos]
  simpa [hs] using hf

/-- Settles O15: ILLEGAL and FETCH are the ranked checks; a full or empty stack and an early read are found by the effect (log
entry 18). -/
theorem instructionsTrapByRank : Obligations.InstructionsTrapByRank := by
  intro c d x s k
  refine ⟨fun two hr => ?undefined, fun hx => ?slot, fun hr hx ht => ⟨fun hd => ?full, fun hd => ?empty⟩,
    fun ha hst hb hc hpc => ?fetch, fun hr hs hf => ?sched⟩
  case undefined => exact illegal_next rfl hr rfl
  case slot =>
    have hslot : ∀ {n i body}, Ready c n s → exec i s = .next (issue c n noSlot body s) →
        ∃ t, exec i s = .next t ∧ Traps c n (Trap.illegal 1) s t := fun hr he => illegal_next he hr (noSlot_seen hx)
    refine ⟨fun hr cc off off' p sub => ?_, fun hr v m => ?_⟩ <;> simp only [List.forall_mem_cons]
    · exact ⟨hslot hr rfl, hslot hr rfl, hslot hr rfl, hslot hr rfl, hslot hr rfl, hslot hr rfl, hslot hr rfl, hslot hr rfl, by simp⟩
    · exact ⟨hslot hr rfl, hslot hr rfl, hslot hr rfl, by simp⟩
  case full =>
    have hover : ∀ {i f}, exec i s = .next (issue c 1 noSlot (callTo c f) s) →
        ∃ t, exec i s = .next t ∧ Traps c 1 Trap.rsOver s t := fun he =>
      trap_next he hr (.inl rfl) (noSlot_landDue hx) (callTo_full (by simpa using hd) (by simpa using ht))
    simp only [List.forall_mem_cons]
    exact ⟨hover rfl, hover rfl, by simp⟩
  case empty =>
    exact trap_next rfl hr (.inl rfl) (noSlot_landDue hx) (returnOp_empty (by simpa using hd) (by simpa using ht))
  case fetch =>
    subst hc
    have hi : issuing .b s = true := by simp [issuing, State.awake, ha, show (s.core .b).st = _ from hst, show (s.core .b).busy = _ from hb]
    have h := issueCheck_fetch (n := 1) (k := s.seen .b) (by simpa using hpc)
    rw [seen_pc] at h
    exact ⟨_, rfl, traps_check hi h⟩
  case sched =>
    have hb : ∀ g, early c 0 g (s.moved c 1) = .trap (Trap.sched 0) := fun g => early_traps hs hf
    simp only [List.forall_mem_cons]
    exact ⟨trap_next rfl hr (.inl rfl) rfl (hb _), trap_next rfl hr (.inl rfl) rfl (hb _),
      trap_next rfl hr (.inl rfl) (special_none (by decide)) (hb _), by simp⟩

end Laws
end Sys2Proof
end

section
/-!
O8, O9: shifts and rotates, and the moves.
-/
namespace Sys2Proof
namespace Laws
open Machine

variable {c : CoreId} {d x : Reg} {n : Nat} {m : BitVec 4} {s : State} {k : Core} {i : Instr} {a v : Word}
variable {body : State → Effect} {op : Word → BitVec 4 → Bool → Word × Bool}

/-! ### Shifts and rotates (R238, R239) -/

theorem regsOnly_shift : RegsOnly k (k.shift d op m) := rfl

/-- The bit that a rotate brings to bit 0 is the one that a left shift by as much pushes out last. -/
theorem rotateLeft_getLsbD_zero (hm : m ≠ 0) : (a.rotateLeft m.toNat).getLsbD 0 = a.getLsbD (16 - m.toNat) := by
  have hpos : 0 < m.toNat := Nat.pos_of_ne_zero fun h => hm (BitVec.eq_of_toNat_eq h)
  have hlt : m.toNat % 16 = m.toNat := Nat.mod_eq_of_lt m.isLt
  simp [hlt, hpos]

theorem rolRes_eq (b : Bool) : rolRes a m b = (a.rotateLeft m.toNat, if m = 0 then b else a.getLsbD (16 - m.toNat)) := by
  by_cases hm : m = 0
  · rw [rolRes, if_pos hm, if_pos hm]
  · rw [rolRes, if_neg hm, if_neg hm, rotateLeft_getLsbD_zero hm]

/-- A shift or rotate of Kd: the register, Z and N of the result, the carry that it answers, and V as it stands. -/
theorem shift_next {cnt : Core → BitVec 4} {r : Word} {cf : Bool}
    (he : exec i s = .next (issue c 1 legal (onCore c fun k => k.shift d op (cnt k)) s)) (hr : Ready c 1 s)
    (hm : cnt ((s.seen c).advancePc 1) = m) (hop : op ((s.core c).reg d) m (s.seen c).c = (r, cf)) :
    ∃ t, exec i s = .next t ∧ Results c 1 s t d r cf (s.seen c).v := by
  obtain ⟨t, ht, hrun, hk, hz, hn, hc, hv⟩ := runs_next he hr (.inl rfl) rfl onCore_moved regsOnly_shift
  simp only [Core.shift, Core.setZN, Core.put, hm, advancePc_reg, seen_reg, advancePc_c, hop, advancePc_k, seen_k, advancePc_v]
    at hk hz hn hc hv
  exact ⟨t, ht, hrun, puts_of_set hk, zn_of hz hn, hc, hv⟩

/-- Settles O8: the model's four result functions are the statement's, ROL's by `rolRes_eq`. -/
theorem shiftsAndRotates : Obligations.ShiftsAndRotates := by
  intro c d x m s hr a q left right gives
  have hq : ((((s.seen c).advancePc 1).reg x).setWidth 4 : BitVec 4) = q := by rw [advancePc_reg, seen_reg]
  refine ⟨?shl, ?shr, ?sar, ?rol, ?shli, ?shri, ?sari, ?roli⟩
  case shl => exact shift_next rfl hr hq rfl
  case shr => exact shift_next rfl hr hq rfl
  case sar => exact shift_next rfl hr hq rfl
  case rol => exact shift_next rfl hr hq (rolRes_eq _)
  case shli => exact shift_next rfl hr rfl rfl
  case shri => exact shift_next rfl hr rfl rfl
  case sari => exact shift_next rfl hr rfl rfl
  case roli => exact shift_next rfl hr rfl (rolRes_eq _)

/-! ### Moves (R237, R238) -/

/-- A register write with no flag changed. -/
theorem put_next (he : exec i s = .next (issue c n legal body s)) (hr : Ready c n s) (hw : n = 1 ∨ n = 2)
    (hb : body (s.moved c n) = .done (s.setCore c (((s.seen c).advancePc n).put d v)) 0) :
    ∃ t, exec i s = .next t ∧ (Runs c n s t ∧ KeepsFlags c s t) ∧ Puts (s.core c) (t.core c) d v := by
  obtain ⟨t, ht, hrun, hk, hflags⟩ := runs_next he hr hw rfl hb regsOnly_put
  exact ⟨t, ht, ⟨hrun, by simpa [KeepsFlags, Core.put] using hflags⟩, puts_of_set (by simpa [Core.put] using hk)⟩

/-- Settles O9: each move is a register write alone, and NOP is none. -/
theorem movesKeepFlags : Obligations.MovesKeepFlags := by
  intro c d x s keeps
  refine ⟨fun hr => ⟨?mov, fun b => ?ldi, ?nop⟩, fun hr w => ?ldw⟩
  case mov => exact put_next rfl hr (.inl rfl) (onCore_moved.trans (by rw [advancePc_reg, seen_reg]))
  case ldi => exact put_next rfl hr (.inl rfl) onCore_moved
  case nop =>
    obtain ⟨t, ht, hrun, hk, hflags⟩ := runs_next (i := .cNop c) rfl hr (.inl rfl) rfl onCore_moved rfl
    exact ⟨t, ht, ⟨hrun, by simpa using hflags⟩, by simpa using hk⟩
  case ldw => exact put_next rfl hr (.inr rfl) onCore_moved

end Laws
end Sys2Proof
end

section
/-!
SUPPORT. The arithmetic unit as an instruction of one word finds it: its operations and the counters' moving on commute, and a
result is started on its way.
-/
namespace Sys2Proof
namespace Laws
open Machine

variable {c : CoreId} {s : State} {k k1 k2 : Core} {i : Instr} {f : Core → Core} {l : FmaLink} {ls : List FmaLink} {b : Bool} {w : Word}
variable {new : List AuRes}

/-- Where an instruction has one word, no return address grows (R216). -/
theorem advancePc_one (k : Core) : k.advancePc 1 =
    { k with pc := k.following 1, xfer := none, call := false, fcnt := k.fcnt + BitVec.ofNat 32 (1 + k.discards) } :=
  advancePc_of (.inr (.inr rfl))

/-- A 16-bit counter stops at 0xFFFF. -/
theorem satInc_word (v : Word) : satInc v = if v = 0xFFFF then 0xFFFF else v + 1 := by
  by_cases h : v = 0xFFFF
  · rw [if_pos h, h]
    rfl
  · rw [satInc, if_neg (show v ≠ BitVec.allOnes 16 from h), if_neg h]

/-! ### An abandoned operation (R248, R268) -/

/-- k' is k but for FR, FF, the results in flight and FR's chain. -/
def Rechains (k k' : Core) : Prop :=
  k' = { k with fr := k'.fr, ff := k'.ff, au := { k.au with flight := k'.au.flight, frAcc := k'.au.frAcc, frHang := k'.au.frHang
                                                            frIter := k'.au.frIter, frLinks := k'.au.frLinks } }

theorem rechains_trans (h : Rechains k k1) (g : Rechains k1 k2) : Rechains k k2 := by
  unfold Rechains at *
  rw [h] at g
  exact g

theorem rechains_refold : Rechains k (refold b k w l).1 := by
  unfold refold
  dsimp only
  split_ifs <;> rfl

theorem rechains_refoldAll : Rechains k (refoldAll b ls k w).1 := by
  induction ls generalizing k w with
  | nil => rfl
  | cons l ls ih => exact rechains_trans rechains_refold ih

theorem rechains_unchain : Rechains k k.unchain := by
  unfold Core.unchain
  split
  · exact rechains_trans rechains_refoldAll rfl
  · rfl

/-- k' is k but for the unit and the registers FR and FF. -/
def UnitOnly (k k' : Core) : Prop := k' = { k with fr := k'.fr, ff := k'.ff, au := k'.au }

theorem unitOnly_abandon : UnitOnly k k.abandon := by
  unfold Core.abandon
  split_ifs
  · rw [rechains_unchain]
    rfl
  · rfl

/-- The unit, FR and FF have no part in moving on. -/
theorem refold_advancePc : refold b (k.advancePc 1) w l = ((refold b k w l).1.advancePc 1, (refold b k w l).2) := by
  unfold refold
  simp only [advancePc_one]
  split_ifs <;> rfl

theorem refoldAll_advancePc : refoldAll b ls (k.advancePc 1) w = ((refoldAll b ls k w).1.advancePc 1, (refoldAll b ls k w).2) := by
  induction ls generalizing k w with
  | nil => rfl
  | cons l ls ih => simp only [refoldAll, refold_advancePc, ih]

theorem unchain_advancePc : (k.advancePc 1).unchain = k.unchain.advancePc 1 := by
  simp only [Core.unchain, advancePc_au, refoldAll_advancePc]
  split
  · simp only [advancePc_one]
    rfl
  · rfl

theorem abandon_advancePc : (k.advancePc 1).abandon = k.abandon.advancePc 1 := by
  simp only [Core.abandon, advancePc_au, unchain_advancePc]
  split_ifs
  · simp only [advancePc_one]
    rfl
  · rfl

theorem abandon_issued : k.abandon.issued = k.issued := by rw [unitOnly_abandon]

/-- With the iterative stage empty nothing is abandoned. -/
theorem abandon_idle (h : k.au.flight.any (·.iter) = false) : k.abandon = k := by
  rw [Core.abandon, h]
  rfl

/-- An abandonment empties the stage, and is flagged and counted. -/
theorem abandon_busy (h : k.au.flight.any (·.iter) = true) : k.abandon.au.abn = true ∧ k.abandon.au.flight.any (·.iter) = false ∧
    k.abandon.au.abnCnt = if k.au.abnCnt = 0xFFFF then 0xFFFF else k.au.abnCnt + 1 := by
  have hcnt : satInc k.unchain.au.abnCnt = satInc k.au.abnCnt := by rw [rechains_unchain]
  rw [Core.abandon, if_pos h]
  exact ⟨rfl, by simp, hcnt.trans (satInc_word _)⟩

/-! ### An instruction that starts results (R260, R268) -/

/-- A result of the core's next arithmetic instruction, with no integer flag. -/
def resultOf (k : Core) (left : Nat) (dst : AuDst) (ff : BitVec 5) : AuRes :=
  { seq := k.issued, left := left, dst := dst, ff := ff, idz := false, iov := false, iter := false }

/-- The core k1 when the arithmetic instruction of number n has put its results in flight. -/
def started (n : Nat) (new : List AuRes) (k1 : Core) : Core :=
  { k1 with issued := n + 1, au := { k1.au with flight := k1.au.flight ++ new } }

/-- Instruction i of core c issues with no register or flag changed, and leaves k1 with new results in flight. -/
def Starts (c : CoreId) (i : Instr) (s : State) (k1 : Core) (new : List AuRes) : Prop :=
  ∃ t, exec i s = .next t ∧ OnlyCore c s t ∧ (t.core c).k = (s.core c).k ∧ KeepsFlags c s t ∧
    Issued (started (s.seen c).issued new k1) (t.core c) 1 1

/-- A ready core's instruction that changes the unit alone. -/
theorem starts_next (he : exec i s = .next (issue c 1 legal (onCore c f) s)) (hr : Ready c 1 s) (hk : UnitOnly (s.seen c) k1)
    (hf : f ((s.seen c).advancePc 1) = (started (s.seen c).issued new k1).advancePc 1) : Starts c i s k1 new := by
  obtain ⟨t, ht, honly, hi, hreg, hz, hn, hc, hv⟩ := exec_moves he hr (.inl rfl) rfl rfl
    (by rw [State.core_setCore, moved_core, hf])
  rw [hk] at hreg hz hn hc hv
  exact ⟨t, ht, by rwa [setCore_moved, State.setCore_setCore] at honly, hreg.trans seen_k, ⟨hz, hn, hc, hv⟩, hi⟩

end Laws
end Sys2Proof
end

section
/-!
O19: integer products, sums of products and quotients.
-/
namespace Sys2Proof
namespace Laws
open Machine

variable {c : CoreId} {s : State} {k : Core} {i : Instr} {a b : Word} {p : BitVec 32} {q : Word × Word × Bool × Bool}

/-! ### Exact products and quotients (R269) -/

theorem mulU_eq (a b : Word) : mulU a b = BitVec.ofNat 32 (a.toNat * b.toNat) := by
  rw [BitVec.ofNat_mul, BitVec.ofNat_toNat, BitVec.ofNat_toNat]
  rfl

theorem mulS_eq (a b : Word) : mulS a b = BitVec.ofInt 32 (a.toInt * b.toInt) := by
  rw [BitVec.ofInt_mul]
  rfl

theorem divU_zero (a : Word) : divU a 0 = (0xFFFF, a, true, false) := rfl
theorem divS_zero (a : Word) : divS a 0 = (0xFFFF, a, true, false) := rfl

theorem divU_eq (hb : b ≠ 0) :
    divU a b = (BitVec.ofNat 16 (a.toNat / b.toNat), BitVec.ofNat 16 (a.toNat % b.toNat), false, false) := by
  rw [divU, if_neg hb, ← BitVec.toNat_udiv, ← BitVec.toNat_umod, BitVec.ofNat_toNat, BitVec.ofNat_toNat, BitVec.setWidth_eq,
    BitVec.setWidth_eq]

theorem sdiv_eq_ofInt_tdiv (a b : Word) : a.sdiv b = BitVec.ofInt 16 (a.toInt.tdiv b.toInt) :=
  BitVec.eq_of_toInt_eq (by rw [BitVec.toInt_sdiv, BitVec.toInt_ofInt])

theorem srem_eq_ofInt_tmod (a b : Word) : a.srem b = BitVec.ofInt 16 (a.toInt.tmod b.toInt) := by
  rw [← BitVec.toInt_srem, BitVec.ofInt_toInt]

/-- The quotient that does not fit is that of the least word by -1. -/
theorem divS_eq (hb : b ≠ 0) : divS a b = (BitVec.ofInt 16 (a.toInt.tdiv b.toInt), BitVec.ofInt 16 (a.toInt.tmod b.toInt), false,
    decide (a.toInt = -32768 ∧ b.toInt = -1)) := by
  have hover : (a == 0x8000 && b == 0xFFFF) = decide (a.toInt = -32768 ∧ b.toInt = -1) := by
    have ha : a = 0x8000 ↔ a.toInt = -32768 := (BitVec.toInt_inj (y := 0x8000#16)).symm
    have hb : b = 0xFFFF ↔ b.toInt = -1 := (BitVec.toInt_inj (y := 0xFFFF#16)).symm
    rw [Bool.eq_iff_iff, decide_eq_true_iff, Bool.and_eq_true, beq_iff_eq, beq_iff_eq, ha, hb]
  rw [divS, if_neg hb, hover, sdiv_eq_ofInt_tdiv, srem_eq_ofInt_tmod]

/-! ### The operations on a core (R247, R248, R268) -/

theorem mulOp_eq : k.mulOp p = started k.issued [resultOf k 2 (.ml (p.setWidth 16)) 0, resultOf k 3 (.mh ((p >>> 16).setWidth 16)) 0]
    { k with au := { k.au with acc := p } } := by
  simp [Core.mulOp, Core.start, Core.count, started, resultOf]

theorem macOp_eq : k.macOp p = started k.issued [resultOf k 3 (.acc (k.au.acc + p)) 0] { k with au := { k.au with acc := k.au.acc + p } } :=
  rfl

theorem divOp_eq : k.divOp q =
    started k.issued [{ resultOf k 10 (.qtrm q.1 q.2.1) 0 with idz := q.2.2.1, iov := q.2.2.2, iter := true }] k.abandon := by
  simp only [Core.divOp, Core.startIter, Core.count, abandon_issued]
  rfl

theorem mulOp_advancePc : (k.advancePc 1).mulOp p = (k.mulOp p).advancePc 1 := by
  simp only [advancePc_one]
  rfl

theorem macOp_advancePc : (k.advancePc 1).macOp p = (k.macOp p).advancePc 1 := by
  simp only [advancePc_one]
  rfl

theorem divOp_advancePc : (k.advancePc 1).divOp q = (k.divOp q).advancePc 1 := by
  rw [Core.divOp, abandon_advancePc, advancePc_one, advancePc_one]
  rfl

/-! ### The instructions -/

theorem mul_next {g : Core → BitVec 32} (he : exec i s = .next (issue c 1 legal (onCore c fun k => k.mulOp (g k)) s)) (hr : Ready c 1 s)
    (hg : g ((s.seen c).advancePc 1) = p) : Starts c i s { s.seen c with au := { (s.seen c).au with acc := p } }
      [resultOf (s.seen c) 2 (.ml (p.setWidth 16)) 0, resultOf (s.seen c) 3 (.mh ((p >>> 16).setWidth 16)) 0] :=
  starts_next he hr rfl (by rw [hg, mulOp_advancePc, mulOp_eq])

theorem mac_next {g : Core → BitVec 32} (he : exec i s = .next (issue c 1 legal (onCore c fun k => k.macOp (g k)) s)) (hr : Ready c 1 s)
    (hg : g ((s.seen c).advancePc 1) = p) :
    Starts c i s { s.seen c with au := { (s.seen c).au with acc := (s.seen c).au.acc + p } }
      [resultOf (s.seen c) 3 (.acc ((s.seen c).au.acc + p)) 0] :=
  starts_next he hr rfl (by rw [hg, macOp_advancePc, macOp_eq])

theorem div_next {g : Core → Word × Word × Bool × Bool}
    (he : exec i s = .next (issue c 1 legal (onCore c fun k => k.divOp (g k)) s)) (hr : Ready c 1 s)
    (hg : g ((s.seen c).advancePc 1) = q) : Starts c i s (s.seen c).abandon
      [{ resultOf (s.seen c) 10 (.qtrm q.1 q.2.1) 0 with idz := q.2.2.1, iov := q.2.2.2, iter := true }] :=
  starts_next he hr unitOnly_abandon (by rw [hg, divOp_advancePc, divOp_eq])

/-- Settles O19: the products and quotients are `mulU_eq` to `divS_eq`, and `abandon_busy` says what a division abandons. -/
theorem integerProductsAndQuotientsStart : Obligations.IntegerProductsAndQuotientsStart := by
  intro c x y s hr k a b starts res mul mac div
  have hx : (k.advancePc 1).reg x = a := by rw [advancePc_reg, seen_reg]
  have hy : (k.advancePc 1).reg y = b := by rw [advancePc_reg, seen_reg]
  refine ⟨?mul, ?muls, ?mac, ?macu, fun hb => ⟨?divZero, ?divsZero⟩, fun hb => ⟨?div, ?divs⟩, abandon_idle, abandon_busy⟩
  case mul => exact mul_next rfl hr (by rw [hx, hy, mulU_eq])
  case muls => exact mul_next rfl hr (by rw [hx, hy, mulS_eq])
  case mac => exact mac_next rfl hr (by rw [hx, hy, mulS_eq])
  case macu => exact mac_next rfl hr (by rw [hx, hy, mulU_eq])
  case divZero => exact (div_next (i := .cDiv c x y) rfl hr (by rw [hx, hy, hb, divU_zero]) :)
  case divsZero => exact (div_next (i := .cDivs c x y) rfl hr (by rw [hx, hy, hb, divS_zero]) :)
  case div => exact (div_next (i := .cDiv c x y) rfl hr (by rw [hx, hy, divU_eq hb]) :)
  case divs => exact (div_next (i := .cDivs c x y) rfl hr (by rw [hx, hy, divS_eq hb]) :)

end Laws
end Sys2Proof
end

section
/-!
O20: the binary16 instructions.
-/
namespace Sys2Proof
namespace Laws
open Machine

variable {c : CoreId} {x y : Reg} {s : State} {k : Core} {i : Instr} {r : Word × BitVec 5} {n : Nat}

/-! ### The operations on a core (R247 to R249, R268) -/

theorem startFr_eq : k.startFr n r = started k.issued [resultOf k n (.fr r.1) r.2] { k with au := { k.au with frAcc := r.1, frHang := false } } :=
  rfl

theorem iterFr_eq : k.iterFr r = started k.issued [{ resultOf k 12 (.fr r.1) r.2 with iter := true }]
    { k.abandon with au := { k.abandon.au with
      frIter := some (k.issued, k.abandon.au.frAcc), frAcc := r.1, frHang := true, frLinks := [] } } := by
  simp only [Core.iterFr, Core.startIter, Core.count, abandon_issued]
  rfl

theorem startFr_advancePc : (k.advancePc 1).startFr n r = (k.startFr n r).advancePc 1 := by
  simp only [advancePc_one]
  rfl

theorem iterFr_advancePc : (k.advancePc 1).iterFr r = (k.iterFr r).advancePc 1 := by
  rw [Core.iterFr, Core.iterFr, abandon_advancePc]
  generalize k.abandon = j
  rw [advancePc_one, advancePc_one]
  rfl

theorem fmaOp_advancePc : (k.advancePc 1).fmaOp x y = (k.fmaOp x y).advancePc 1 := by
  simp only [advancePc_one]
  rfl

theorem cmpOp_advancePc : (k.advancePc 1).cmpOp x y = (k.cmpOp x y).advancePc 1 := by
  simp only [advancePc_one]
  rfl

/-- What FFMA delivers: the product and the accumulator in program order, rounded once (R248). -/
def fmaOf (k : Core) (a b : Word) : Word × BitVec 5 :=
  fma16 k.au.rm k.au.ftz (unpack k.au.ftz a) (unpack k.au.ftz b) (unpack k.au.ftz k.au.frAcc)

/-- An FFMA whose accumulator hangs on nothing is not linked to the iterative stage. -/
theorem fmaOp_free (h : k.au.frHang = false) : k.fmaOp x y =
    let r := fmaOf k (k.reg x) (k.reg y)
    started k.issued [resultOf k 5 (.fr r.1) r.2] { k with au := { k.au with frAcc := r.1 } } := by
  simp only [Core.fmaOp, Core.start, Core.count, h, Bool.false_eq_true, if_false]
  rfl

/-- One whose accumulator hangs on the operation in the iterative stage is linked to it. -/
theorem fmaOp_hangs (h : k.au.frHang = true) : k.fmaOp x y =
    let r := fmaOf k (k.reg x) (k.reg y)
    started k.issued [resultOf k 5 (.fr r.1) r.2] { k with au := { k.au with
      frAcc := r.1, frLinks := k.au.frLinks ++ [{ seq := k.issued, x := k.reg x, y := k.reg y, mode := k.au.rm }] } } := by
  simp only [Core.fmaOp, Core.start, Core.count, h, if_true]
  rfl

/-! ### The instructions -/

theorem moved_f16 : ((s.seen c).advancePc 1).f16 x = unpack (s.seen c).au.ftz ((s.core c).reg x) := by
  rw [Core.f16, advancePc_au, advancePc_reg, seen_reg]

theorem fr_next {g : Core → Word × BitVec 5} (he : exec i s = .next (issue c 1 legal (onCore c fun k => k.startFr n (g k)) s))
    (hr : Ready c 1 s) (hg : g ((s.seen c).advancePc 1) = r) :
    Starts c i s { s.seen c with au := { (s.seen c).au with frAcc := r.1, frHang := false } } [resultOf (s.seen c) n (.fr r.1) r.2] :=
  starts_next he hr rfl (by rw [hg, startFr_advancePc, startFr_eq])

theorem iter_next {g : Core → Word × BitVec 5} (he : exec i s = .next (issue c 1 legal (onCore c fun k => k.iterFr (g k)) s))
    (hr : Ready c 1 s) (hg : g ((s.seen c).advancePc 1) = r) :
    Starts c i s { (s.seen c).abandon with au := { (s.seen c).abandon.au with
        frIter := some ((s.seen c).issued, (s.seen c).abandon.au.frAcc), frAcc := r.1, frHang := true, frLinks := [] } }
      [{ resultOf (s.seen c) 12 (.fr r.1) r.2 with iter := true }] := by
  refine starts_next he hr ?_ (by rw [hg, iterFr_advancePc, iterFr_eq])
  rw [unitOnly_abandon]
  rfl

/-- Settles O20: each instruction starts what its operation on the core delivers, in the core's own rounding mode. -/
theorem floatingPointResultsStart : Obligations.FloatingPointResultsStart := by
  intro c x y s hr k a b starts res u v plain iter
  have hx : k.reg x = a := seen_reg
  have hy : k.reg y = b := seen_reg
  have hau : (k.advancePc 1).au = k.au := advancePc_au
  have hu : (k.advancePc 1).f16 x = u := moved_f16
  have hv : (k.advancePc 1).f16 y = v := moved_f16
  refine ⟨?fadd, ?fsub, ?fmul, fun f => ?fcvt, ?fdiv, ?fsqrt, fun h => ?free, fun h => ?hangs, ?fcmp⟩
  case fadd => exact fr_next rfl hr (by rw [hau, hu, hv])
  case fsub => exact fr_next rfl hr (by rw [hau, hu, hv])
  case fmul => exact fr_next rfl hr (by rw [hau, hu, hv])
  case fcvt => exact fr_next rfl hr (by rw [hau, advancePc_reg, hx])
  case fdiv => exact iter_next rfl hr (by rw [hau, hu, hv])
  case fsqrt => exact iter_next rfl hr (by rw [hau, hu])
  case free =>
    have hf := fmaOp_free (x := x) (y := y) h
    rw [hx, hy] at hf
    exact starts_next rfl hr rfl (fmaOp_advancePc.trans (by rw [hf]; rfl))
  case hangs =>
    have hf := fmaOp_hangs (x := x) (y := y) h
    rw [hx, hy] at hf
    exact starts_next rfl hr rfl (fmaOp_advancePc.trans (by rw [hf]; rfl))
  case fcmp =>
    intro f
    exact starts_next rfl hr rfl (cmpOp_advancePc.trans (by rw [Core.cmpOp, hx, hy]; rfl))

end Laws
end Sys2Proof
end

section
/-!
O22: the NaNs that binary16 operations deliver, and the integers of FCVT kinds 2 and 3.
-/
namespace Sys2Proof
namespace Laws
open Machine

variable {rm : BitVec 2} {ftz s sticky : Bool} {m n u : Nat} {e q lo hi : Int} {w : Word} {x y z : F16}

/-! ### Words that hold a NaN (R271) -/

/-- The word holds a NaN. -/
def NanWord (w : Word) : Prop := (w >>> 10).toNat % 32 = 31 ∧ w.toNat % 1024 ≠ 0

theorem nanWord_iff_magnitude : NanWord w ↔ 0x7C00 < w.toNat % 32768 := by
  rw [NanWord, BitVec.toNat_ushiftRight, Nat.shiftRight_eq_div_pow]
  omega

theorem unpack_nan (h : NanWord w) : (unpack ftz w).isNan = true := by
  obtain ⟨hexp, hfrac⟩ := h
  simp only [unpack, hexp, if_true, if_neg hfrac]
  rfl

theorem unpack_fin (hnan : ¬ NanWord w) (hinf : w.toNat % 32768 ≠ 0x7C00) : ∃ s m e, unpack ftz w = .fin s m e := by
  have hexp : (w >>> 10).toNat % 32 ≠ 31 := by
    rw [nanWord_iff_magnitude] at hnan
    rw [BitVec.toNat_ushiftRight, Nat.shiftRight_eq_div_pow]
    omega
  simp only [unpack, if_neg hexp]
  split_ifs <;> exact ⟨_, _, _, rfl⟩

/-! ### What is packed is no NaN -/

theorem signOf_magnitude (s : Bool) (w : Word) : (signOf s w).toNat % 32768 = w.toNat % 32768 := by
  rw [signOf, BitVec.toNat_or, show 32768 = 2 ^ 15 from rfl, Nat.or_mod_two_pow]
  cases s <;> simp [packZero]

theorem packInf_not_nanWord : ¬ NanWord (packInf s) := by
  cases s <;> simp [nanWord_iff_magnitude, packInf]

theorem packZero_not_nanWord : ¬ NanWord (packZero s) := by
  cases s <;> simp [nanWord_iff_magnitude, packZero]

theorem overflow_not_nanWord : ¬ NanWord (overflow rm s) := by
  rw [overflow]
  split
  · exact packInf_not_nanWord
  · rw [nanWord_iff_magnitude, signOf_magnitude]
    decide

/-- Up to a unit of 2^5 the exponent field stays below 31: 2048 units carry into it, and so need a smaller unit. -/
theorem packFin_not_nanWord (hu : u ≤ 2048) (hq : q ≤ 5) (hc : u = 2048 → q ≤ 4) : ¬ NanWord (packFin s u q) := by
  rw [nanWord_iff_magnitude, packFin, signOf_magnitude]
  split_ifs with hcarry hsub
  · have := hc hcarry
    rw [BitVec.toNat_ofNat]
    omega
  · rw [BitVec.toNat_ofNat]
    omega
  · rw [BitVec.toNat_ofNat]
    omega

/-! ### Rounding (R273) -/

theorem incremented_le {v : Nat} (b : Bool) (h : v < n) : (if b then v + 1 else v) ≤ n := by
  split <;> omega

/-- Rounding m × 2^e below n × 2^q gives at most n units of 2^q. -/
theorem roundTo_le (h : m * 2 ^ (e - q).toNat < n * 2 ^ (q - e).toNat) : (roundTo rm s m e sticky q).1 ≤ n := by
  rw [roundTo]
  by_cases hqe : q ≤ e
  · rw [Int.toNat_of_nonpos (by omega : q - e ≤ 0), pow_zero, mul_one] at h
    rw [if_pos hqe]
    exact incremented_le _ h
  · rw [Int.toNat_of_nonpos (by omega : e - q ≤ 0), pow_zero, mul_one] at h
    have hdiv : m / 2 ^ (q - e).toNat < n := Nat.div_lt_of_lt_mul (by rwa [mul_comm])
    rw [if_neg hqe]
    exact incremented_le _ hdiv

/-- In a unit no finer than 10 bits below its leading bit a magnitude has at most 11 bits, or rounds to 2048. -/
theorem roundTo_le_2048 (h : (m.log2 : Int) + e - 10 ≤ q) : (roundTo rm s m e sticky q).1 ≤ 2048 := by
  apply roundTo_le
  calc m * 2 ^ (e - q).toNat
      < 2 ^ (m.log2 + 1) * 2 ^ (e - q).toNat := Nat.mul_lt_mul_of_pos_right Nat.lt_log2_self (by positivity)
    _ = 2 ^ (m.log2 + 1 + (e - q).toNat) := (pow_add ..).symm
    _ ≤ 2 ^ (11 + (q - e).toNat) := Nat.pow_le_pow_right (by decide) (by omega)
    _ = 2048 * 2 ^ (q - e).toNat := pow_add ..

theorem deliver16_not_nanWord : ¬ NanWord (deliver16 rm ftz s m e sticky).1 := by
  have hu := roundTo_le_2048 (rm := rm) (s := s) (sticky := sticky) (le_max_left ((m.log2 : Int) + e - 10) (-24))
  simp only [deliver16]
  split
  · exact packZero_not_nanWord
  split
  · exact overflow_not_nanWord
  · rename_i hover
    simp only [Bool.or_eq_true, Bool.and_eq_true, decide_eq_true_eq, not_or, not_and] at hover
    obtain ⟨hcarry, hunit⟩ := hover
    exact packFin_not_nanWord hu (by omega) (by omega)

/-! ### A NaN that is delivered is canonical (R272) -/

/-- The word holds no NaN but the canonical one. -/
def Canonical (w : Word) : Prop := NanWord w → w = qNaN

theorem canonical_qNaN : Canonical qNaN := fun _ => rfl
theorem canonical_packInf : Canonical (packInf s) := fun h => absurd h packInf_not_nanWord
theorem canonical_packZero : Canonical (packZero s) := fun h => absurd h packZero_not_nanWord
theorem canonical_deliver16 : Canonical (deliver16 rm ftz s m e sticky).1 := fun h => absurd h deliver16_not_nanWord

theorem sumFin_canonical {t : Bool} {f : Int} : Canonical (sumFin rm ftz s m e t n f).1 := by
  simp only [sumFin]
  split
  · exact canonical_packZero
  · exact canonical_deliver16

theorem add16_canonical : Canonical (add16 rm ftz x y).1 := by
  rw [add16.eq_def]
  split
  · exact canonical_qNaN
  · exact canonical_qNaN
  · split
    · exact canonical_packInf
    · exact canonical_qNaN
  · exact canonical_packInf
  · exact canonical_packInf
  · exact sumFin_canonical

theorem mul16_canonical : Canonical (mul16 rm ftz x y).1 := by
  rw [mul16]
  split
  · exact canonical_qNaN
  split
  · exact canonical_qNaN
  · split
    · exact canonical_packZero
    · exact canonical_deliver16
  · exact canonical_packInf
  · exact canonical_qNaN

theorem fma16_canonical : Canonical (fma16 rm ftz x y z).1 := by
  rw [fma16]
  split
  · exact canonical_qNaN
  split
  · exact canonical_qNaN
  · exact add16_canonical

theorem div16_canonical : Canonical (div16 rm ftz x y).1 := by
  rw [div16.eq_def]
  split
  · exact canonical_qNaN
  · exact canonical_qNaN
  · exact canonical_qNaN
  · exact canonical_packInf
  · exact canonical_packZero
  · split_ifs
    · exact canonical_qNaN
    · exact canonical_packInf
    · exact canonical_packZero
    · exact canonical_deliver16

theorem sqrt16_canonical : Canonical (sqrt16 rm ftz x).1 := by
  rw [sqrt16.eq_def]
  split
  · exact canonical_qNaN
  · split
    · exact canonical_qNaN
    · exact canonical_packInf
  · split
    · exact canonical_packZero
    split
    · exact canonical_qNaN
    · exact canonical_deliver16

theorem ofInt16_canonical {i : Int} : Canonical (ofInt16 rm i).1 := by
  rw [ofInt16]
  split
  · exact canonical_packZero (s := false)
  · exact canonical_deliver16

theorem integral16_canonical : Canonical (integral16 rm ftz x).1 := by
  simp only [integral16]
  split
  · exact canonical_qNaN
  · exact canonical_packInf
  · split
    · exact canonical_packZero
    · exact canonical_deliver16

/-! ### A NaN operand delivers the canonical NaN, or the integer 0 (R272, R278) -/

theorem neg_isNan : x.neg.isNan = x.isNan := by
  cases x <;> rfl

theorem add16_of_isNan (h : (x.isNan || y.isNan) = true) : (add16 rm ftz x y).1 = qNaN := by
  cases x with
  | nan => rfl
  | inf | fin =>
    cases y with
    | nan => rfl
    | inf | fin => nomatch h

theorem mul16_of_isNan (h : (x.isNan || y.isNan) = true) : (mul16 rm ftz x y).1 = qNaN := by
  rw [mul16, if_pos h]
  rfl

theorem fma16_of_isNan (h : (x.isNan || y.isNan) = true) : (fma16 rm ftz x y z).1 = qNaN := by
  rw [fma16, if_pos h]
  rfl

/-- An invalid product too delivers the canonical NaN, whatever the accumulator is. -/
theorem fma16_of_isNan_acc (h : z.isNan = true) : (fma16 rm ftz x y z).1 = qNaN := by
  rw [fma16]
  split
  · rfl
  split
  · rfl
  · exact add16_of_isNan (by rw [h, Bool.or_true])

theorem div16_of_isNan (h : (x.isNan || y.isNan) = true) : (div16 rm ftz x y).1 = qNaN := by
  cases x with
  | nan => rfl
  | inf | fin =>
    cases y with
    | nan => rfl
    | inf | fin => nomatch h

theorem sqrt16_of_isNan (h : x.isNan = true) : (sqrt16 rm ftz x).1 = qNaN := by
  cases x with
  | nan => rfl
  | inf | fin => nomatch h

theorem integral16_of_isNan (h : x.isNan = true) : (integral16 rm ftz x).1 = qNaN := by
  cases x with
  | nan => rfl
  | inf | fin => nomatch h

theorem toInt16_of_isNan {below above : Word} (h : x.isNan = true) : (toInt16 rm lo hi below above x).1 = 0 := by
  cases x with
  | nan => rfl
  | inf | fin => nomatch h

/-! ### Integers that FCVT delivers (R278) -/

/-- A finite value becomes the integer it rounds to, held within the range. -/
theorem toInt16_fin (hx : x = .fin s m e) (h : lo ≤ hi) : (toInt16 rm lo hi (BitVec.ofInt 16 lo) (BitVec.ofInt 16 hi) x).1 =
    BitVec.ofInt 16 (max lo (min hi (toIntegral rm s m e).1)) := by
  simp only [hx, toInt16]
  split
  · rw [max_eq_left (by omega)]
  split
  · rw [min_eq_left (by omega), max_eq_right h]
  · rw [min_eq_right (by omega), max_eq_right (by omega)]

/-! ### The obligation -/

/-- Settles O22: no operation packs a NaN but the canonical one, and each looks for NaN operands first. -/
theorem everyNanDeliveredIsCanonical : Obligations.EveryNanDeliveredIsCanonical := by
  intro rm ftz a b z isNan x y z'
  have hx : isNan a → x.isNan = true := unpack_nan
  refine ⟨?canonical, ?operand, fun hz => fma16_of_isNan_acc (unpack_nan hz),
    fun ha => ⟨sqrt16_of_isNan (hx ha), integral16_of_isNan (hx ha)⟩,
    fun ha => ⟨toInt16_of_isNan (hx ha), toInt16_of_isNan (hx ha)⟩, ?integer⟩
  case canonical =>
    simp only [List.forall_mem_cons]
    exact ⟨add16_canonical, add16_canonical, mul16_canonical, fma16_canonical, div16_canonical, sqrt16_canonical,
      ofInt16_canonical, ofInt16_canonical, integral16_canonical, List.forall_mem_nil _⟩
  case operand =>
    intro hab
    have hxy : (x.isNan || y.isNan) = true := Bool.or_eq_true_iff.2 (hab.imp hx unpack_nan)
    simp only [List.forall_mem_cons]
    exact ⟨add16_of_isNan hxy, add16_of_isNan (by rwa [neg_isNan]), mul16_of_isNan hxy, fma16_of_isNan hxy,
      div16_of_isNan hxy, List.forall_mem_nil _⟩
  case integer =>
    intro hnan hinf
    obtain ⟨s, m, e, hfin⟩ : ∃ s m e, x = .fin s m e := unpack_fin hnan hinf
    refine ⟨max (-32768) (min 32767 (toIntegral rm s m e).1), max 0 (min 65535 (toIntegral rm s m e).1),
      toInt16_fin (lo := -32768) (hi := 32767) hfin (by decide), by omega, by omega,
      toInt16_fin (lo := 0) (hi := 65535) hfin (by decide), by omega, by omega, ?_⟩
    intro m' e' s' hfin' hlow hhigh
    obtain ⟨rfl, rfl, rfl⟩ := F16.fin.inj (hfin.symm.trans hfin')
    omega

end Laws
end Sys2Proof
end

section
/-!
SUPPORT. The Ashlar's operations, once each: a core's set written, the share, an operation abandoned and a new one started, and a
bank fenced (R338 to R341, R349).
-/
namespace Sys2Proof
namespace Laws
open Machine

variable {c d : CoreId} {s t : State} {k j : AshSet} {n : Nat} {q : BitVec 2}

theorem mainOn_of_awake (h : s.awake = true) : s.mainOn = true := by
  have hp : s.pwr.phase = .awake := by simpa [State.awake] using h
  rw [State.mainOn, hp]

/-! ### A core's set written (R357) -/

@[simp] theorem putAsh_set : (s.putAsh c k).ash.set c = k := by cases c <;> rfl
@[simp] theorem putAsh_putAsh : (s.putAsh c k).putAsh c j = s.putAsh c j := by cases c <;> rfl
@[simp] theorem putAsh_share : (s.putAsh c k).ash.share = s.ash.share := by cases c <;> rfl
theorem putAsh_entries : (s.putAsh c k).ash.entries = s.ash.entries := by cases c <;> rfl

/-- A set written changes the Ashlar alone. -/
theorem putAsh_eq : s.putAsh c k = { s with ash := (s.putAsh c k).ash } := by cases c <;> rfl

theorem putAsh_ash : (s.putAsh c k).ash = match c with | .a => { s.ash with setA := k } | .b => { s.ash with setB := k } := by
  cases c <;> rfl

/-! ### The share (R340) -/

/-- The state after one unit of the share is used; 0xFFFF stands for no limit. -/
def shareTaken (s : State) : State := { s with ash.share := if s.ash.share = 0xFFFF then 0xFFFF else s.ash.share - 1 }

theorem takeShare_none (h : s.ash.share = 0) : takeShare s.ash = none := if_pos h

theorem takeShare_some (h : s.ash.share ≠ 0) : takeShare s.ash = some (shareTaken s).ash := by
  rw [takeShare, if_neg h]
  split
  case isTrue hall => rw [shareTaken, if_pos hall, ← hall]
  case isFalse hsome => rw [shareTaken, if_neg hsome]

/-! ### An operation abandoned (R339) -/

/-- Without leave there is nothing to give back. -/
theorem ashAbandon_noLeave (h : (s.ash.set c).leave = .none) : ashAbandon c s = s.putAsh c { s.ash.set c with op := none } := by
  rw [ashAbandon, h]
  dsimp only
  rw [← h]

/-- A request that still stands at the Porter is withdrawn. -/
theorem ashAbandon_asked (h : (s.ash.set c).leave = .asked) :
    ashAbandon c s = (s.withdraw 4 (ashReq c)).putAsh c { s.ash.set c with op := none, leave := .none } := by
  rw [ashAbandon, h]

/-! ### A search or a step started (R338 to R341) -/

/-- A search of these banks needs leave: it is unfiltered and two or more are in it (R341). -/
def searchAsks (k : AshSet) (s : State) : Bool := decide (k.pfm = 0#4) && manyBanks (bankSet1 s.ash)

/-- The set of a core that starts a search. -/
def searchSet (k : AshSet) (asks reloading : Bool) : AshSet :=
  { k with op := some (.search k.key k.mask k.pfv k.pfm k.order), st := if asks || reloading then 3 else 2
           leave := if asks then .asked else .none }

/-- Where no leave was held and none is asked, the set's leave stays as it is. -/
theorem searchSet_noLeave {r : Bool} (hl : k.leave = .none) : searchSet k false r =
    { k with op := some (.search k.key k.mask k.pfv k.pfm k.order), st := if r then 3 else 2 } := by
  show ({ searchSet k false r with leave := .none } : AshSet) = _
  rw [← hl]
  rfl

theorem searchAsks_true (hf : k.pfm = 0) (hw : manyBanks (bankSet1 s.ash) = true) : searchAsks k s = true := by
  rw [searchAsks, hw, hf]
  rfl

theorem searchAsks_false (h : k.pfm ≠ 0 ∨ manyBanks (bankSet1 s.ash) = false) : searchAsks k s = false := by
  rw [searchAsks, Bool.and_eq_false_iff, decide_eq_false_iff_not]
  exact h

section
variable (ha : ashAbandon c s = t.putAsh c k)
include ha

theorem ashGo_spent (hs : t.ash.share = 0) : ashGo c s = t.putAsh c { k with st := 5 } := by
  simp [ashGo, ha, takeShare, hs]

theorem ashStep_spent (hs : t.ash.share = 0) : ashStep c s = t.putAsh c { k with st := 5 } := by
  simp [ashStep, ha, takeShare, hs]

theorem ashGo_taken (hs : t.ash.share ≠ 0) :
    ashGo c s = if searchAsks k t then ((shareTaken t).ask 4 (ashReq c)).putAsh c (searchSet k (searchAsks k t) t.pwr.ashRld)
      else (shareTaken t).putAsh c (searchSet k (searchAsks k t) t.pwr.ashRld) := by
  rw [ashGo, ha]
  dsimp only
  rw [takeShare_some (by rwa [putAsh_share])]
  cases c <;> rfl

theorem ashStep_taken (hs : t.ash.share ≠ 0) :
    ashStep c s = (shareTaken t).putAsh c { k with op := some .step, st := if t.pwr.ashRld then 3 else 2 } := by
  rw [ashStep, ha]
  dsimp only
  rw [takeShare_some (by rwa [putAsh_share])]
  cases c <;> rfl

/-- A filtered search, or one of a single bank, is given its array slot without leave. -/
theorem ashGo_narrow (hs : t.ash.share ≠ 0) (hn : k.pfm ≠ 0 ∨ manyBanks (bankSet1 t.ash) = false) :
    ashGo c s = (shareTaken t).putAsh c (searchSet k false t.pwr.ashRld) := by
  rw [ashGo_taken ha hs, searchAsks_false hn, if_neg Bool.false_ne_true]

/-- An unfiltered search of two or more banks asks in P4 and waits. -/
theorem ashGo_wide (hs : t.ash.share ≠ 0) (hf : k.pfm = 0) (hw : manyBanks (bankSet1 t.ash) = true) :
    ashGo c s = ((shareTaken t).ask 4 (ashReq c)).putAsh c (searchSet k true t.pwr.ashRld) := by
  rw [ashGo_taken ha hs, searchAsks_true hf hw, if_pos rfl]

end

theorem exec_ashlarGo (h : s.awake = true) : exec (.ashlarGo c) s = .next (ashGo c s) := congrArg _ (if_pos h)
theorem exec_ashlarStepWrite (h : s.awake = true) : exec (.ashlarStepWrite c) s = .next (ashStep c s) := congrArg _ (if_pos h)

/-! ### A bank fenced (R349) -/

/-- A bank already fenced stays as it is. -/
theorem fenceBank_again (hf : s.ash.fence.getLsbD (n / 64) = true) : fenceBank n q s = s := if_pos hf

/-- The Ashlar after entry n has put the fence on its bank. -/
def fencedBy (n : Nat) (q : BitVec 2) (x : Ashlar) : Ashlar :=
  { x with fence := setBit x.fence (n / 64) true, fcnt := satInc x.fcnt, fenced := true, frecIndex := BitVec.ofNat 10 n, frecCause := q
           frecBank := BitVec.ofNat 4 (n / 64) }

theorem fenceBank_first (hm : s.mainOn = true) (hf : s.ash.fence.getLsbD (n / 64) = false) :
    fenceBank n q s = { s with ash := fencedBy n q s.ash } := by
  have hn : ¬ ashFenced s.ash (n / 64) = true := by rw [ashFenced, hf]; exact Bool.false_ne_true
  rw [fenceBank, if_neg hn, if_neg (by simp [mainOn_ash, hm])]
  rfl

end Laws
end Sys2Proof
end

section
/-!
O54: what a channel-1 search delivers (R337).
-/
namespace Sys2Proof
namespace Laws
open Machine

variable {c : CoreId} {s : State} {k : AshSet} {q : AshQuery} {ph : Bool} {m : Nat × BitVec 8} {l : List (Nat × BitVec 8)}

/-! ### The order of matches (R337) -/

/-- a comes before b in a search's order, or is b. -/
abbrev Before (ph : Bool) (a b : Nat × BitVec 8) : Prop := ashBefore ph a b = true

theorem before_physical {a b : Nat × BitVec 8} : Before true a b ↔ a.1 ≤ b.1 := decide_eq_true_iff

theorem before_prio {a b : Nat × BitVec 8} : Before false a b ↔ b.2.toNat < a.2.toNat ∨ (b.2 = a.2 ∧ a.1 ≤ b.1) := by
  rw [Before, ashBefore, if_neg Bool.false_ne_true, Bool.or_eq_true, Bool.and_eq_true, decide_eq_true_iff, decide_eq_true_iff, beq_iff_eq,
    eq_comm (a := a.2)]

theorem before_total (ph : Bool) : Std.Total (Before ph) := ⟨fun a b => by
  cases ph
  · rw [before_prio, before_prio, BitVec.toNat_eq, BitVec.toNat_eq]
    omega
  · rw [before_physical, before_physical]
    omega⟩

theorem before_trans (ph : Bool) : IsTrans _ (Before ph) := ⟨fun a b d hab hbd => by
  cases ph
  · rw [before_prio, BitVec.toNat_eq] at *
    omega
  · rw [before_physical] at *
    omega⟩

/-- A match is put in its place as an ordered insertion does it. -/
theorem insertMatch_eq (ph : Bool) (m : Nat × BitVec 8) (l : List (Nat × BitVec 8)) : insertMatch ph m l = l.orderedInsert (Before ph) m := by
  induction l with
  | nil => rfl
  | cons x l ih => rw [insertMatch, ih, List.orderedInsert_cons]

/-- The matching entries as index and priority, in the array's order. -/
def found (q : AshQuery) (banks : BitVec 16) (x : Ashlar) : List (Nat × BitVec 8) :=
  (x.entries.filter fun e => q.hits banks e.1 e.2).map fun e => (e.1, e.2.prio)

theorem ashMatches_eq (q : AshQuery) (banks : BitVec 16) (x : Ashlar) :
    ashMatches q banks x = (found q banks x).reverse.insertionSort (Before q.physical) := by
  simp only [ashMatches, insertMatch_eq, List.insertionSort, List.foldr_reverse, found]

theorem ashMatches_perm (q : AshQuery) (banks : BitVec 16) (x : Ashlar) : (ashMatches q banks x).Perm (found q banks x) := by
  rw [ashMatches_eq]
  exact (List.perm_insertionSort _ _).trans (List.reverse_perm _)

/-- The first match comes before every other. -/
theorem ashMatches_head {banks : BitVec 16} {x : Ashlar} (h : ashMatches q banks x = m :: l) :
    m ∈ found q banks x ∧ ∀ b ∈ found q banks x, Before q.physical m b := by
  have htotal := before_total q.physical
  have htrans := before_trans q.physical
  have hmem : ∀ b, b ∈ found q banks x ↔ b ∈ m :: l := fun b => by rw [← h, (ashMatches_perm q banks x).mem_iff]
  have hsorted : (m :: l).Pairwise (Before q.physical) := by
    rw [← h, ashMatches_eq]
    exact List.pairwise_insertionSort _ _
  refine ⟨(hmem m).2 List.mem_cons_self, fun b hb => ?_⟩
  obtain rfl | hb := List.mem_cons.1 ((hmem b).1 hb)
  · exact (or_self_iff.1 (htotal.total b b))
  · exact List.rel_of_pairwise_cons hsorted hb

/-- Where there are hits, one of them is the first match. -/
theorem ashMatches_head_hit {banks : BitVec 16} {x : Ashlar} {hits : List (Nat × AshEntry)}
    (hf : found q banks x = hits.map fun e => (e.1, e.2.prio)) (h : hits ≠ []) :
    ∃ e ∈ hits, (ashMatches q banks x).head? = some (e.1, e.2.prio) ∧
      ∀ b ∈ hits, Before q.physical (e.1, e.2.prio) (b.1, b.2.prio) := by
  cases hl : ashMatches q banks x with
  | nil =>
    have hnone : found q banks x = [] := (hl ▸ ashMatches_perm q banks x).nil_eq.symm
    exact absurd (List.map_eq_nil_iff.1 (hf ▸ hnone)) h
  | cons m l =>
    obtain ⟨hm, hbefore⟩ := ashMatches_head hl
    rw [hf] at hm hbefore
    obtain ⟨e, he, rfl⟩ := List.mem_map.1 hm
    exact ⟨e, he, rfl, fun b hb => hbefore _ (List.mem_map_of_mem hb)⟩

/-! ### A search lands (R337, R351) -/

/-- A search whose matches pass parity is not repeated and fences nothing. -/
theorem ashSearch_sound {banks : State → BitVec 16} (h : ∀ m ∈ found q (banks s) s.ash, (ashEntry s.ash m.1).parity = true) :
    ashSearch q banks s = (ashMatches q (banks s) s.ash, false, false, s) := by
  unfold ashSearch
  cases hl : ashMatches q (banks s) s.ash with
  | nil => rfl
  | cons m l => simp only [h m (ashMatches_head hl).1, if_true]

/-- The state once a landed search has given back its leave. -/
def leaveEnded (c : CoreId) (s : State) : State :=
  { s with tie.lane := s.tie.lane ++ if (s.ash.set c).leave = .granted then [.fin 4 (ashReq c)] else [] }

theorem leaveEnded_eq : leaveEnded c s = if (s.ash.set c).leave = .granted then s.fin 4 (ashReq c) else s := by
  unfold leaveEnded
  split
  · rfl
  · rw [List.append_nil]

/-- A core's set after a search with these matches, but for the current match. -/
def landedSet (k : AshSet) (l : List (Nat × BitVec 8)) : AshSet :=
  { k with op := none, leave := .none, count := satOf 4 l.length, multi := decide (2 ≤ l.length), stale := false, rep := false, st := 1
           ahead := (l.drop 1).map fun m => BitVec.ofNat 10 m.1, committed := [] }

/-- The current match is the first of the list; where there is none its fields are left open. -/
theorem ashFirst_eq (l : List (Nat × BitVec 8)) (k : AshSet) (s : State) : ∃ i d p n, ashFirst l.head? k s =
      ({ k with idx := i, noMatch := l.isEmpty, data := d, prio := p }, { s with free := n }) ∧
    ∀ m ∈ l.head?, i = BitVec.ofNat 10 m.1 ∧ d = (ashEntry s.ash m.1).data ∧ p = m.2 := by
  cases l with
  | nil => exact ⟨_, _, _, _, rfl, fun m hm => nomatch hm⟩
  | cons m l =>
    refine ⟨_, _, _, s.free, rfl, ?_⟩
    rintro _ ⟨⟩
    exact ⟨rfl, rfl, rfl⟩

theorem ashLand_of_search (h : ashSearch q (fun t => bankSet1 t.ash) s = (l, false, false, s)) :
    ashLand c q s = (ashFirst l.head? (landedSet (s.ash.set c) l) (leaveEnded c s)).2.putAsh c
      (ashFirst l.head? (landedSet (s.ash.set c) l) (leaveEnded c s)).1 := by
  rw [ashLand, h]
  dsimp only
  rw [← leaveEnded_eq]
  rfl

theorem exec_ashlarSearchLand {key mask : BitVec 48} {f g : BitVec 4} (ha : s.awake = true) (hr : s.pwr.ashRld = false)
    (ho : (s.ash.set c).op = some (.search key mask f g ph)) (hl : (s.ash.set c).leave ≠ .asked) :
    exec (.ashlarSearchLand c) s = .next (ashLand c { key := key, mask := mask, f := f, g := g, physical := ph } s) := by
  show execAshlarSearchLand c s = _
  simp [execAshlarSearchLand, ho, hr, hl, mainOn_of_awake ha]

/-- A landed search changes the core's set, the lane and the count of free values alone. -/
theorem landed_eq {n : Nat} : ({ leaveEnded c s with free := n } : State).putAsh c k =
    { s with ash := (s.putAsh c k).ash, free := n
             tie.lane := s.tie.lane ++ if (s.ash.set c).leave = .granted then [.fin 4 (ashReq c)] else [] } := by
  cases c <;> rfl

/-! ### The order a search is given (R337, R341) -/

/-- A search started without leave outstanding takes its key, filter and order from the core's set. -/
theorem ashGo_op (hl : (s.ash.set c).leave = .none) (hs : s.ash.share ≠ 0) :
    let k := s.ash.set c
    ((ashGo c s).ash.set c).op = some (.search k.key k.mask k.pfv k.pfm k.order) := by
  rw [ashGo_taken (ashAbandon_noLeave hl) hs]
  split <;> rw [putAsh_set] <;> rfl

/-! ### The clauses together -/

/-- Settles O54: the matches are the hits sorted by the search's order, so that their number is COUNT's and the head comes before
all others. That INDEX, DATA and PRIO are free values where nothing matches is log entry 26. -/
theorem searchesDeliverTheFirstMatch : Obligations.SearchesDeliverTheFirstMatch := by
  intro s c key mask f g ph k banks hits
  refine ⟨fun ha hr ho hl hparity => ?lands, fun ha hl hs => ⟨_, exec_ashlarGo ha, ashGo_op hl hs⟩, fun _ _ _ => rfl⟩
  let q : AshQuery := { key := key, mask := mask, f := f, g := g, physical := ph }
  have hfound : found q (bankSet1 s.ash) s.ash = hits.map fun e => (e.1, e.2.prio) := rfl
  have hsound : ∀ m ∈ found q (bankSet1 s.ash) s.ash, (ashEntry s.ash m.1).parity = true := by
    rw [hfound]
    exact List.forall_mem_map.2 hparity
  have hlength : (ashMatches q (bankSet1 s.ash) s.ash).length = hits.length := by
    rw [(ashMatches_perm _ _ _).length_eq, hfound, List.length_map]
  have hland := ashLand_of_search (c := c) (ashSearch_sound (banks := fun t => bankSet1 t.ash) hsound)
  obtain ⟨i, d, p, n, hshown, hfirst⟩ := ashFirst_eq (ashMatches q (bankSet1 s.ash) s.ash)
    (landedSet (s.ash.set c) (ashMatches q (bankSet1 s.ash) s.ash)) (leaveEnded c s)
  rw [hshown] at hland
  refine ⟨_, (exec_ashlarSearchLand ha hr ho hl).trans (congrArg _ (hland.trans landed_eq)), ?_⟩
  dsimp only
  rw [putAsh_set]
  refine ⟨?count, ?multi, ?noMatch, ?first, rfl, rfl, rfl, rfl, rfl, rfl, rfl, rfl, rfl, putAsh_ash⟩
  case count => exact (satOf_toNat 4 _).trans (by rw [hlength, min_comm]; rfl)
  case multi => rw [landedSet, hlength, decide_eq_true_iff]
  case noMatch => rw [List.isEmpty_iff_length_eq_zero, hlength, List.length_eq_zero_iff]
  case first =>
    intro hsome
    obtain ⟨e, he, hhead, hbefore⟩ := ashMatches_head_hit hfound hsome
    obtain ⟨hi, hd, hp⟩ := hfirst _ hhead
    refine ⟨e, he, hi, hp, hd, fun b hb => ?_⟩
    have heb : Before ph (e.1, e.2.prio) (b.1, b.2.prio) := hbefore b hb
    cases ph
    · exact before_prio.1 heb
    · exact before_physical.1 heb

end Laws
end Sys2Proof
end

section
/-!
O55: searches, steps and commits under the share; stages, commits, steps, scrub reads and self-tests (R331 to R354).
-/
namespace Sys2Proof
namespace Laws
open Machine

variable {c d : CoreId} {s t : State} {n : BitVec 10} {e : AshEntry} {v : Byte} {o p b : Nat} {fail : BitVec 16}

/-! ### Commits (R332 to R334) -/

theorem exec_ashlarCommitWrite (h : s.awake = true) : exec (.ashlarCommitWrite c) s = .next (ashCommit c s) := congrArg _ (if_pos h)

theorem ashCommit_over (h : (s.ash.set c).commit.isSome = true) : ashCommit c s = s.putAsh c { s.ash.set c with cst := 5 } := if_pos h

theorem ashCommit_spent (h : (s.ash.set c).commit = none) (hs : s.ash.share = 0) :
    ashCommit c s = s.putAsh c { s.ash.set c with cst := 4 } := by
  simp [ashCommit, h, takeShare_none hs]

theorem ashCommit_taken (h : (s.ash.set c).commit = none) (hs : s.ash.share ≠ 0) : ashCommit c s =
    (shareTaken s).putAsh c { s.ash.set c with cst := 2, commit := some ((s.ash.set c).target, (s.ash.set c).stage) } := by
  rw [ashCommit, h]
  dsimp only
  rw [if_neg (by simp), takeShare_some hs]
  rfl

/-- The array with entry n replaced whole, and the commit noted for each core's latched matches (R333, R338). -/
def entryReplaced (n : BitVec 10) (e : AshEntry) (x : Ashlar) : Ashlar :=
  { x with entries := sparsePut AshEntry.blank x.entries n.toNat { e with parity := true }
           setA := { x.setA with committed := x.setA.committed ++ [n] }, setB := { x.setB with committed := x.setB.committed ++ [n] } }

theorem entryReplaced_set (x : Ashlar) : (entryReplaced n e x).set c = { x.set c with committed := (x.set c).committed ++ [n] } := by
  cases c <;> rfl

theorem exec_ashlarCommitPerform (ha : s.awake = true) (hr : s.pwr.ashRld = false) (hk : (s.ash.set c).commit = some (n, e)) :
    exec (.ashlarCommitPerform c) s = .next (if ashFenced s.ash (n.toNat / 64) then s.putAsh c { s.ash.set c with commit := none, cst := 3 }
      else ({ s with ash := entryReplaced n e s.ash } : State).putAsh c { (entryReplaced n e s.ash).set c with commit := none, cst := 1 }) := by
  show execAshlarCommitPerform c s = _
  simp only [execAshlarCommitPerform, hk, hr, mainOn_of_awake ha]
  rfl

/-- What a commit leaves in each core's set: the commit noted, and for its own core the commit ended. -/
theorem commitPerformed_committed {x : Ashlar} : ((({ s with ash := entryReplaced n e x } : State).putAsh c
    { (entryReplaced n e x).set c with commit := none, cst := 1 }).ash.set d).committed = (x.set d).committed ++ [n] := by
  cases c <;> cases d <;> rfl

/-! ### Bytes of a stage (R330, R331) -/

/-- A byte put into a word of bytes changes that byte alone. -/
theorem byte_put {w : Nat} {x m : BitVec w} (hm : ∀ i, m.getLsbD i = decide (i < 8)) (hp : 8 * p + 8 ≤ w) :
    (((x &&& ~~~(m <<< (8 * o))) ||| (v.setWidth w <<< (8 * o))) >>> (8 * p)).setWidth 8 =
      if p = o then v else (x >>> (8 * p)).setWidth 8 := by
  refine BitVec.eq_of_getLsbD_eq fun i hi => ?_
  have hw : 8 * p + i < w := by omega
  simp only [BitVec.getLsbD_setWidth, BitVec.getLsbD_ushiftRight, BitVec.getLsbD_or, BitVec.getLsbD_and, BitVec.getLsbD_not,
    BitVec.getLsbD_shiftLeft, hm, hi, hw, decide_true, Bool.true_and]
  by_cases h : p = o
  · subst h
    simp [hi, show i < w by omega]
  · obtain hlt | hge : 8 * p + i < 8 * o ∨ 8 * o + 8 ≤ 8 * p + i := by omega
    · simp [h, hlt, hi]
    · have hv : v.getLsbD (8 * p + i - 8 * o) = false := BitVec.getLsbD_of_ge _ _ (by omega)
      have h8 : ¬ 8 * p + i - 8 * o < 8 := by omega
      simp [h, hv, h8, hi]

theorem lowByte_getLsbD (w : Nat) (i : Nat) (hw : 8 ≤ w) : (BitVec.ofNat w 0xFF).getLsbD i = decide (i < 8) := by
  rw [BitVec.getLsbD_ofNat, show (0xFF : Nat) = 2 ^ 8 - 1 from rfl, Nat.testBit_two_pow_sub_one, Bool.and_eq_right_iff_imp, decide_eq_true_iff,
    decide_eq_true_iff]
  omega

/-- Tag, VALID and FENCED as one byte (R330). -/
theorem flagByte (v : Byte) : fieldAt 8 0 (v.setWidth 4 : BitVec 4) ||| bitAt 8 4 (v.getLsbD 4) ||| bitAt 8 5 false = v &&& 0x1F := by
  decide +revert

theorem slotByte_stageByte (ho : o < 10) (hp : p < 10) :
    slotByte (stageByte e o v) false p = if p = o then (if o = 9 then v &&& 0x1F else v) else slotByte e false p := by
  obtain h | ⟨h6, h8⟩ | rfl | rfl : o < 6 ∨ (6 ≤ o ∧ o < 8) ∨ o = 8 ∨ o = 9 := by omega
  · rw [stageByte, if_pos h, if_neg (show o ≠ 9 by omega)]
    by_cases h6 : p < 6
    · rw [slotByte, if_pos h6, slotByte, if_pos h6]
      exact byte_put (lowByte_getLsbD 48 · (by omega)) (by omega)
    · simp [slotByte, h6, show p ≠ o by omega]
  · rw [stageByte, if_neg (show ¬ o < 6 by omega), if_pos h8, if_neg (show o ≠ 9 by omega)]
    by_cases hd : 6 ≤ p ∧ p < 8
    · have ho' : (p = o) = (p - 6 = o - 6) := by rw [eq_iff_iff]; omega
      rw [slotByte, if_neg (show ¬ p < 6 by omega), if_pos hd.2, slotByte, if_neg (show ¬ p < 6 by omega), if_pos hd.2]
      simp only [ho']
      exact byte_put (lowByte_getLsbD 16 · (by omega)) (by omega)
    · by_cases h6 : p < 6
      · simp [slotByte, h6, show p ≠ o by omega]
      · simp [slotByte, h6, show ¬ p < 8 by omega, show p ≠ o by omega]
  · by_cases h : p = 8 <;> simp [stageByte, slotByte, h]
  · by_cases h : p = 9
    · simpa [stageByte, slotByte, h] using flagByte v
    · obtain h6 | ⟨h6, h8⟩ | rfl : p < 6 ∨ (¬ p < 6 ∧ p < 8) ∨ p = 8 := by omega
      · simp [stageByte, slotByte, h, h6]
      · simp [stageByte, slotByte, h, h6, h8]
      · simp [stageByte, slotByte]

/-- What a core's stage holds before a byte of entry n is written: the stage of that entry, or the entry (R331). -/
def stageBase (c : CoreId) (n : Nat) (s : State) : AshEntry :=
  if (s.ash.set c).staged = true ∧ (s.ash.set c).target.toNat = n then (s.ash.set c).stage else { ashEntry s.ash n with parity := true }

theorem slotByte_stageBase {m : Nat} {f : Bool} : slotByte (stageBase c m s) f p = slotByte
    (if (s.ash.set c).staged = true ∧ (s.ash.set c).target.toNat = m then (s.ash.set c).stage else ashEntry s.ash m) f p := by
  unfold stageBase
  split <;> rfl

theorem stageWrite_byte {m : Nat} (ho : o < 10) : stageWrite c m o [v] s =
    s.putAsh c { s.ash.set c with stage := stageByte (stageBase c m s) o v, staged := true, target := BitVec.ofNat 10 m } := by
  simp [stageWrite, stageBase, ho]

theorem exec_ashlarWindowWrite_byte {a : BitVec 16} (hs : s.awake = true) (hlo : 0xD000 ≤ a.toNat) (hhi : a.toNat < 0xE000)
    (ho : a.toNat % 16 < 10) :
    exec (.ashlarWindowWrite c a [v]) s = .next (stageWrite c (winEntry s c a.toNat) (a.toNat % 16) [v] s) := by
  refine congrArg _ (if_pos ?_)
  simp [hs, hlo, hhi, ho]

/-! ### Steps (R338) -/

section
variable {l : List (BitVec 10)} {skip : Bool} (ha : s.awake = true) (hr : s.pwr.ashRld = false) (ho : (s.ash.set c).op = some .step)
include ha hr ho

theorem step_lands : (decide ((s.ash.set c).op = some .step) && s.mainOn && !s.pwr.ashRld) = true := by
  simp [ho, hr, mainOn_of_awake ha]

/-- A step that finds a next match shows it, and shows it as stale where one was passed over or it was committed since. -/
theorem exec_ashlarStepLand_moves (h : stepTo (s.ash.set c).ahead false s = (some (n, l), skip, t)) :
    exec (.ashlarStepLand c) s = .next (t.putAsh c { s.ash.set c with
      op := none, st := 1, idx := n, noMatch := false, data := (ashEntry t.ash n.toNat).data, prio := (ashEntry t.ash n.toNat).prio
      ahead := l, stale := skip || (s.ash.set c).committed.contains n }) :=
  congrArg _ ((if_pos (step_lands ha hr ho)).trans (by rw [h]))

/-- A step that finds none ends END and keeps the current match. -/
theorem exec_ashlarStepLand_ends (h : stepTo (s.ash.set c).ahead false s = (none, skip, t)) : exec (.ashlarStepLand c) s =
    .next (t.putAsh c { s.ash.set c with op := none, st := 6, ahead := [], stale := (s.ash.set c).stale || skip }) :=
  congrArg _ ((if_pos (step_lands ha hr ho)).trans (by rw [h]))

end

/-- The next match is taken where its bank is not fenced and its read passes parity. -/
theorem stepTo_sound {l : List (BitVec 10)} {skip : Bool} (hf : s.ash.fence.getLsbD (n.toNat / 64) = false)
    (hp : (ashEntry s.ash n.toNat).parity = true) : stepTo (n :: l) skip s = (some (n, l), skip, s) := by
  rw [stepTo, if_neg (by simp [ashFenced, hf]), if_pos hp]

/-! ### The scrub (R354) -/

theorem scrubNext_unfenced {x : Ashlar} {m : Nat} (h : x.fence = 0) : scrubNext x 1024 m = some m := by
  simp [scrubNext, ashFenced, h]

/-- The state once the scrub has read the entry at its pointer. -/
def scrubbed (s : State) : State := { s with ash := { s.ash with scrPtr := s.ash.scrPtr + 1, scrubLeft := s.ash.scrubLeft - 1 } }

/-- Without a fenced bank the scrub reads the entry at its pointer. -/
theorem exec_ashlarScrubRead (ha : s.awake = true) (hl : s.ash.scrubLeft ≠ 0) (hf : s.ash.fence = 0) : exec .ashlarScrubRead s =
    .next (if (ashEntry s.ash s.ash.scrPtr.toNat).parity then scrubbed s else fenceBank s.ash.scrPtr.toNat 2 (scrubbed s)) := by
  have hnext : BitVec.ofNat 10 (s.ash.scrPtr.toNat + 1) = s.ash.scrPtr + 1 := by
    apply BitVec.eq_of_toNat_eq
    simp
  refine congrArg _ ((if_pos ?_).trans ?_)
  · rw [mainOn_of_awake ha, Bool.true_and, bne_iff_ne]
    exact hl
  · rw [scrubNext_unfenced hf]
    dsimp only
    rw [hnext]
    rfl

/-- The first fence that a scrub read sets, as R349 records it. -/
theorem fencedBy_unfenced {x : Ashlar} {i : BitVec 10} {q : BitVec 2} (h : x.fence = 0) : fencedBy i.toNat q x =
    { x with fence := setBit 0 (i.toNat / 64) true, fcnt := satInc x.fcnt, fenced := true, frecIndex := i, frecCause := q
             frecBank := BitVec.ofNat 4 (i.toNat / 64) } := by
  rw [fencedBy, h, BitVec.ofNat_toNat, BitVec.setWidth_eq]

theorem exec_ashlarScrubRead_done (h : s.ash.scrubLeft = 0) : exec .ashlarScrubRead s = .next s :=
  congrArg _ (if_neg (by simp [h]))

/-! ### Self-tests (R353) -/

theorem exec_ashlarSelfTestEnd (ha : s.awake = true) (ht : s.ash.testing ≠ 0) (h : (List.range 16).foldl (testBank fail) s = t) :
    exec (.ashlarSelfTestEnd fail) s = .next { t with ash := { t.ash with
      testFail := (t.ash.testFail &&& ~~~s.ash.testing) ||| (t.ash.fence &&& s.ash.testing), testing := 0 } } := by
  subst h
  exact congrArg _ (if_pos (by rw [mainOn_of_awake ha, Bool.true_and, bne_iff_ne]; exact ht))

theorem exec_ashlarSelfTestEnd_done (h : s.ash.testing = 0) : exec (.ashlarSelfTestEnd fail) s = .next s :=
  congrArg _ (if_neg (by simp [h]))

/-- The Ashlar after bank b's match lines have failed their test: the record names no entry. -/
def testFenced (b : Nat) (x : Ashlar) : Ashlar := { fencedBy (64 * b) 1 x with frecIndex := 0 }

theorem testFenced_fence (b : Nat) (x : Ashlar) : (testFenced b x).fence = setBit x.fence b true := by
  rw [testFenced, fencedBy, Nat.mul_div_cancel_left b (by omega)]

section
variable (hp : ∀ e ∈ s.ash.entries, e.2.parity = true)
include hp

/-- No entry of a bank fails parity. -/
theorem find_badParity (b : Nat) : s.ash.entries.find? (fun e => e.1 / 64 == b && !e.2.parity) = none := by
  simp +contextual [List.find?_eq_none, hp]

/-- A bank whose match lines pass, or that is fenced already, is left as it is. -/
theorem testBank_same (h : fail.getLsbD b = false ∨ s.ash.fence.getLsbD b = true) : testBank fail s b = s := by
  have hb : 64 * b / 64 = b := by omega
  rw [testBank, find_badParity hp]
  split
  · rfl
  · obtain h | h := h
    · rw [h]
      rfl
    · dsimp only
      rw [fenceBank_again (by rwa [hb]), ashFenced, h]
      exact ite_self s

theorem testBank_fails (hm : s.mainOn = true) (ht : s.ash.testing.getLsbD b = true) (hb : fail.getLsbD b = true)
    (hf : s.ash.fence.getLsbD b = false) : testBank fail s b = { s with ash := testFenced b s.ash } := by
  have hq : 64 * b / 64 = b := by omega
  rw [testBank, find_badParity hp, fenceBank_first hm (by rwa [hq]), ht, hb, ashFenced, hf]
  rfl

/-- Self-tests that all pass fence nothing. -/
theorem testBanks_pass (l : List Nat) (h : ∀ b, fail.getLsbD b = false) : l.foldl (testBank fail) s = s :=
  List.foldl_fixed' (fun b => testBank_same hp (.inl (h b))) l

/-- Self-tests of which one fails fence that bank alone. -/
theorem testBanks_fail (l : List Nat) (hm : s.mainOn = true) (hl : b ∈ l) (hb : b < 16) (ht : s.ash.testing.getLsbD b = true)
    (hf : s.ash.fence.getLsbD b = false) (h : ∀ i, fail.getLsbD i = decide (i = b)) :
    l.foldl (testBank fail) s = { s with ash := testFenced b s.ash } := by
  have hfenced : (testFenced b s.ash).fence.getLsbD b = true := by simp [testFenced_fence, getLsbD_setBit_true, hb, -BitVec.getLsbD_eq_getElem]
  have hrest : ∀ i, testBank fail { s with ash := testFenced b s.ash } i = { s with ash := testFenced b s.ash } := by
    intro i
    refine testBank_same hp ?_
    by_cases hi : i = b
    · exact .inr (hi ▸ hfenced)
    · exact .inl (by rw [h, decide_eq_false hi])
  induction l with
  | nil => cases hl
  | cons i l ih =>
    rw [List.foldl_cons]
    by_cases hi : i = b
    · rw [hi, testBank_fails hp hm ht (by rw [h, decide_eq_true rfl]) hf]
      exact List.foldl_fixed' hrest l
    · rw [testBank_same hp (.inl (by rw [h, decide_eq_false hi]))]
      exact ih ((List.mem_cons.1 hl).resolve_left (Ne.symm hi))

end

/-! ### The clauses together -/

/-- Settles O55, command by command. That a commit while one waits is OVER before the share is looked at, and that the first window
write loads the stage, is log entry 26. -/
theorem ashlarCommitsStepsAndTests : Obligations.AshlarCommitsStepsAndTests := by
  intro s c k s1 wide st search
  refine ⟨fun ha hs hl => ⟨fun hn => ?goNarrow, fun hf hw => ?goWide, ?step⟩, fun ha hs hl => ?stepWithdraws,
    fun ha hs hl => ⟨?goSpent, ?stepSpent⟩, fun ha => ⟨fun h => ?commitOver, fun h hs => ?commitSpent, fun h hs => ?commit⟩,
    fun n e ha hr hk => ⟨fun hf => ?fenced, fun hf => ?replaced⟩, ?stage, fun ha hr ho => ⟨fun n l hn hf hp => ?stepMoves, fun hn => ?stepEnds⟩,
    fun ha hl hf => ⟨fun hp => ?scrubPass, fun hp => ?scrubFence⟩, fun ha ht hp => ⟨?testPass, fun b ht' hf => ?testFence⟩,
    exec_ashlarScrubRead_done, exec_ashlarSelfTestEnd_done⟩
  case goNarrow =>
    rw [exec_ashlarGo ha, ashGo_narrow (ashAbandon_noLeave hl) hs hn, searchSet_noLeave (by exact hl)]
    rfl
  case goWide =>
    rw [exec_ashlarGo ha, ashGo_wide (ashAbandon_noLeave hl) hs hf hw]
    rfl
  case step =>
    rw [exec_ashlarStepWrite ha, ashStep_taken (ashAbandon_noLeave hl) hs]
    rfl
  case stepWithdraws =>
    rw [exec_ashlarStepWrite ha, ashStep_taken (ashAbandon_asked hl) hs]
    rfl
  case goSpent => rw [exec_ashlarGo ha, ashGo_spent (ashAbandon_noLeave hl) hs]
  case stepSpent => rw [exec_ashlarStepWrite ha, ashStep_spent (ashAbandon_noLeave hl) hs]
  case commitOver => rw [exec_ashlarCommitWrite ha, ashCommit_over h]
  case commitSpent => rw [exec_ashlarCommitWrite ha, ashCommit_spent h hs]
  case commit =>
    rw [exec_ashlarCommitWrite ha, ashCommit_taken h hs]
    rfl
  case fenced => rw [exec_ashlarCommitPerform ha hr hk, if_pos (by exact hf)]
  case replaced =>
    have hopen : ¬ ashFenced s.ash (n.toNat / 64) = true := by rw [ashFenced, hf]; exact Bool.false_ne_true
    refine ⟨_, (exec_ashlarCommitPerform ha hr hk).trans (congrArg _ (if_neg hopen)), putAsh_eq, putAsh_entries, ?_, ?_, ?_,
      fun d => commitPerformed_committed⟩
    · rw [putAsh_set]
    · rw [putAsh_set]
    · rw [putAsh_set, entryReplaced_set]
  case stage =>
    intro a v n o ha hlo hhi ho hn
    refine ⟨_, (exec_ashlarWindowWrite_byte ha hlo hhi ho).trans (congrArg _ (stageWrite_byte ho)), ?_⟩
    rw [putAsh_set]
    exact ⟨rfl, fun p hp => by rw [slotByte_stageByte ho hp, slotByte_stageBase]⟩
  case stepMoves =>
    have hnext : stepTo k.ahead false s = (some (n, l), false, s) := by rw [hn, stepTo_sound hf hp]
    rw [exec_ashlarStepLand_moves ha hr ho hnext, Bool.false_or]
  case stepEnds =>
    have hnone : stepTo k.ahead false s = (none, false, s) := by rw [hn, stepTo]
    rw [exec_ashlarStepLand_ends ha hr ho hnone, Bool.or_false, ← hn]
  case scrubPass =>
    rw [exec_ashlarScrubRead ha hl hf, if_pos hp]
    rfl
  case scrubFence =>
    have hunfenced : (scrubbed s).ash.fence = 0 := hf
    rw [exec_ashlarScrubRead ha hl hf, if_neg (by rw [hp]; exact Bool.false_ne_true),
      fenceBank_first (s := scrubbed s) (mainOn_of_awake ha) (by rw [hunfenced]; exact BitVec.getLsbD_zero), fencedBy_unfenced hunfenced]
    rfl
  case testPass => exact exec_ashlarSelfTestEnd ha ht (testBanks_pass hp _ fun b => BitVec.getLsbD_zero)
  case testFence =>
    have hfail : ∀ i, (1#16 <<< b.val).getLsbD i = decide (i = b.val) := by
      intro i
      rw [BitVec.getLsbD_shiftLeft, BitVec.getLsbD_one, Bool.eq_iff_iff]
      simp
      omega
    exact ⟨_, exec_ashlarSelfTestEnd ha ht
      (testBanks_fail hp _ (mainOn_of_awake ha) (List.mem_range.2 b.isLt) b.isLt ht' hf hfail), rfl, testFenced_fence _ _, rfl, rfl, rfl, rfl⟩

end Laws
end Sys2Proof
end

section
/-!
O1 and O4: a step is the command in front of the queue, and no command touches the queue.
-/
namespace Sys2Proof
namespace Laws
open Machine

/-- Settles O1: the two branches of `step`. -/
theorem stepRunsTheFrontCommand : Obligations.StepRunsTheFrontCommand := by
  refine ⟨fun i rest s => rfl, fun s h => ?_⟩
  unfold step
  rw [h]

/-- Settles O4: the queue is carried through every command, whatever the state (`kept_exec`). -/
theorem commandsLeaveTheQueueAlone : Obligations.CommandsLeaveTheQueueAlone := by
  intro i s t h
  have ht : Kept ⟨False, s.pending⟩ t := kept_exec i (kept_queue s) t h
  exact ht.pending

end Laws
end Sys2Proof
end

section
/-!
What firing a wake source leaves as it was (R102 to R104), and that an answer given before it stays beside it.
-/
namespace Sys2Proof
namespace Laws
open Machine

variable {s : State} {n : Nat}

/-- A source that fires changes the wake router, the island's record of sources, the forced course and the lane (R104, R116, R121). -/
theorem fire_eq (n : Nat) (s : State) :
    fire n s = { s with pwr := (fire n s).pwr, tie := (fire n s).tie
                        isl := { s.isl with fired := (fire n s).isl.fired }
                        crs := { s.crs with forced := (fire n s).crs.forced } } := by
  unfold fire
  split
  case h_3 | h_1 | h_2 => split <;> rfl
  case h_4 =>
    split
    · rw [wakeFrom_eq]
    · rfl
  case h_5 =>
    split
    · dsimp only
      split
      · rw [wakeAsk_eq]; rfl
      · rfl
    · rfl
  case h_6 | h_7 => unfold fireStarting; split <;> rfl
  case h_8 => rfl

@[simp] theorem fire_rtc : (fire n s).rtc = s.rtc := by rw [fire_eq]

end Laws
end Sys2Proof
end

section
/-!
O57: the calendar's divider, its seconds, LOAD and the capture.
-/
namespace Sys2Proof
namespace Laws
open Machine

variable {s : State} {t : CalTime}

/-! ### One advance of the calendar (R509, R514, R515) -/

theorem calEnd_of_sub (h : t.sub ≠ 1023) : calEnd t = false := by
  rw [calEnd, beq_eq_false_iff_ne.mpr h, Bool.and_false]

theorem nextSub_within (h : t.sub ≠ 1023) : nextSub t = { t with sub := t.sub + 1 } := by
  rw [nextSub, calEnd_of_sub h, if_neg Bool.false_ne_true, if_neg h]

theorem nextSub_second (h : t.sub = 1023) (he : calEnd t = false) : nextSub t = nextSecond t := by
  simp [nextSub, he, h]

@[simp] theorem nextSecond_sub (t : CalTime) : (nextSecond t).sub = 0 := by
  unfold nextSecond
  (repeat' split) <;> rfl

theorem calAdvance_within (h : s.rtc.now.sub ≠ 1023) :
    calAdvance s = { s with rtc.now := { s.rtc.now with sub := s.rtc.now.sub + 1 } } := by
  have hne : ({ s.rtc.now with sub := s.rtc.now.sub + 1 } : CalTime) ≠ s.rtc.now := by
    intro hc
    have := congrArg CalTime.sub hc
    simp at this
  have hz : s.rtc.now.sub + 1 ≠ 0 := by
    intro hc
    apply h
    bv_omega
  simp only [calAdvance, nextSub_within h, if_neg hne, if_neg hz]

theorem calAdvance_end (he : calEnd s.rtc.now = true) : calAdvance s = s := by simp [calAdvance, nextSub, he]

/-- The state at a new second once the alarm has been looked at: ALM is set, and its source fires, where it has become due (R514). -/
def alarmed (s : State) : State :=
  if s.rtc.almEn && almMatch s.rtc && !s.rtc.alm then fire 8 { s with rtc.alm := true } else s

theorem alarmed_disabled (h : s.rtc.almEn = false) : alarmed s = s := by simp [alarmed, h]

theorem alarmed_due (he : s.rtc.almEn = true) (hm : almMatch s.rtc = true) (ha : s.rtc.alm = false) :
    alarmed s = fire 8 { s with rtc.alm := true } := by
  simp [alarmed, he, hm, ha]

@[simp] theorem alarmed_div (s : State) : (alarmed s).rtc.div = s.rtc.div := by
  unfold alarmed
  split
  · rw [fire_rtc]
  · rfl

/-- A second that begins: the calendar's new value, the alarm, and the pulses. -/
theorem calAdvance_second (h : s.rtc.now.sub = 1023) (he : calEnd s.rtc.now = false) :
    ∃ ps, calAdvance s = emit ps (alarmed { s with rtc.now := nextSecond s.rtc.now }) := by
  have hne : nextSecond s.rtc.now ≠ s.rtc.now := by
    intro hc
    have := congrArg CalTime.sub hc
    simp [h] at this
  refine ⟨0x31 :: if (nextSecond s.rtc.now).sec = 0 then [0x32] else [], ?_⟩
  simp only [calAdvance, nextSub_second h he, if_neg hne, nextSecond_sub, if_true, alarmed]

/-! ### The divider and the trim window (R509, R510) -/

theorem exec_calendarTick (s : State) : exec .calendarTick s = execCalendarTick s := rfl

theorem calDivide_below (n : Nat) (h : s.rtc.div < 32) : calDivide n s = s := by
  cases n with
  | zero => rfl
  | succ n => rw [calDivide, if_neg (Nat.not_le.mpr h)]

/-- The divider once the 32 cycles have been taken from it. -/
theorem calDivide_once {n : Nat} {u : State} (hu : s = { u with rtc.div := u.rtc.div + 32 }) (h : (calAdvance u).rtc.div < 32) :
    calDivide (n + 1) s = calAdvance u := by
  subst hu
  rw [calDivide, if_pos (Nat.le_add_left _ _)]
  simp only [Nat.add_sub_cancel]
  exact calDivide_below n h

/-- The state once CALENDAR_TICK has moved the trim window on, the calendar still as it was. -/
def windowMoved (s : State) : State :=
  { s with rtc := { s.rtc with win := if s.crs.onRc then s.rtc.win else if s.rtc.win = 32767 then 0 else s.rtc.win + 1
                               trimWin := if s.crs.onRc ∨ s.rtc.win ≠ 32767 then s.rtc.trimWin else s.rtc.trim } }

/-- A tick without trim: 32 cycles and no more, so one advance of the calendar. -/
def Untrimmed (s : State) : Prop := s.rtc.div < 32 ∧ (s.crs.onRc = false → s.rtc.trimWin = 0 ∧ s.rtc.win < 32768)

theorem exec_calendarTick_untrimmed (h : Untrimmed s) (hd : (calAdvance (windowMoved s)).rtc.div < 32) :
    exec .calendarTick s = .next (calAdvance (windowMoved s)) := by
  obtain ⟨hdiv, htrim⟩ := h
  rw [exec_calendarTick, execCalendarTick]
  congr 1
  by_cases hrc : s.crs.onRc = true
  · rw [if_pos hrc]
    exact calDivide_once (by simp [windowMoved, hrc]) hd
  · obtain ⟨ht, hw⟩ := htrim (Bool.eq_false_iff.mpr hrc)
    rw [if_neg hrc]
    refine calDivide_once ?_ hd
    have hlast : s.rtc.win + 1 ≥ 32768 ↔ s.rtc.win = 32767 := by omega
    have hcyc : trimCycles (s.rtc.trimWin.toInt) s.rtc.win = 0 := by simp [trimCycles, ht]
    simp only [windowMoved, hcyc, hlast, hrc]
    by_cases hl : s.rtc.win = 32767 <;> simp [hl] <;> omega

/-! ### What a tick leaves (R509, R514) -/

/-- The ticked state at calendar value x. -/
def atTime (s : State) (x : CalTime) : State := { windowMoved s with rtc.now := x }

theorem tick_within (hp : Untrimmed s) (h : s.rtc.now.sub ≠ 1023) :
    exec .calendarTick s = .next (atTime s { s.rtc.now with sub := s.rtc.now.sub + 1 }) := by
  have ha := calAdvance_within (s := windowMoved s) h
  rw [exec_calendarTick_untrimmed hp (by rw [ha]; exact hp.1), ha]
  rfl

theorem tick_end (hp : Untrimmed s) (he : calEnd s.rtc.now = true) : exec .calendarTick s = .next (atTime s s.rtc.now) := by
  have ha := calAdvance_end (s := windowMoved s) he
  rw [exec_calendarTick_untrimmed hp (by rw [ha]; exact hp.1), ha]
  rfl

/-- A tick that begins a second: the new value and the alarm, and then the fabric settles. -/
theorem tick_second (hp : Untrimmed s) (h : s.rtc.now.sub = 1023) (he : calEnd s.rtc.now = false) :
    Does .calendarTick s (alarmed (atTime s (nextSecond s.rtc.now))) := by
  obtain ⟨ps, ha⟩ := calAdvance_second (s := windowMoved s) h he
  refine ⟨_, exec_calendarTick_untrimmed hp ?_, ha ▸ emit_settled ps _⟩
  rw [ha, emit_rtc, alarmed_div]
  exact hp.1

theorem tick_second_quiet (hp : Untrimmed s) (h : s.rtc.now.sub = 1023) (he : calEnd s.rtc.now = false) (ha : s.rtc.almEn = false) :
    Does .calendarTick s (atTime s (nextSecond s.rtc.now)) := by
  have hd := tick_second hp h he
  rwa [alarmed_disabled (by exact ha)] at hd

/-- The alarm is due: its seconds alone are enabled, and agree with the second that begins. -/
theorem tick_second_alarm (hp : Untrimmed s) (h : s.rtc.now.sub = 1023) (he : calEnd s.rtc.now = false) (hen : s.rtc.almEn = true)
    (hm : s.rtc.amsk = 1) (hs : ((nextSecond s.rtc.now).sec.setWidth 16 : Word) = s.rtc.alm0 &&& 0x3F) (ha : s.rtc.alm = false) :
    ∃ u, Does .calendarTick s u ∧ u.rtc.alm = true ∧ u.rtc.now = nextSecond s.rtc.now := by
  have hd := tick_second hp h he
  have hsec : (nextSecond s.rtc.now).sec = s.rtc.alm0.setWidth 6 := by
    have hlow : (s.rtc.alm0 &&& 0x3F).toNat = s.rtc.alm0.toNat % 64 := Nat.and_two_pow_sub_one_eq_mod _ 6
    have := congrArg BitVec.toNat hs
    rw [hlow] at this
    bv_omega
  have hmatch : almMatch (atTime s (nextSecond s.rtc.now)).rtc = true := by
    simp [almMatch, atTime, windowMoved, hm, hsec]
  rw [alarmed_due (by exact hen) hmatch (by exact ha)] at hd
  exact ⟨_, hd, by rw [fire_rtc], by rw [fire_rtc]; rfl⟩

/-! ### The second after a second (R509) -/

theorem nextSecond_sec (h : t.sec.toNat < 59) : nextSecond t = { t with sub := 0, sec := t.sec + 1 } := if_pos h

theorem nextSecond_min (hs : t.sec = 59) (h : t.min.toNat < 59) : nextSecond t = { t with sub := 0, sec := 0, min := t.min + 1 } := by
  simp [nextSecond, hs, h]

theorem nextSecond_hour (hs : t.sec = 59) (hm : t.min = 59) (h : t.hour.toNat < 23) :
    nextSecond t = { t with sub := 0, sec := 0, min := 0, hour := t.hour + 1 } := by
  simp [nextSecond, hs, hm, h]

theorem nextSecond_day (hs : t.sec = 59) (hm : t.min = 59) (hh : t.hour = 23) (h : t.day.toNat < monthDays t.year.toNat t.mon.toNat) :
    nextSecond t = { t with sub := 0, sec := 0, min := 0, hour := 0, day := t.day + 1 } := by
  simp [nextSecond, hs, hm, hh, h]

theorem nextSecond_month (hs : t.sec = 59) (hm : t.min = 59) (hh : t.hour = 23)
    (hd : t.day.toNat = monthDays t.year.toNat t.mon.toNat) (h : t.mon.toNat < 12) :
    nextSecond t = { t with sub := 0, sec := 0, min := 0, hour := 0, day := 1, mon := t.mon + 1 } := by
  simp [nextSecond, hs, hm, hh, hd, h]

theorem nextSecond_year (hs : t.sec = 59) (hm : t.min = 59) (hh : t.hour = 23) (hd : t.day = 31) (h : t.mon = 12) :
    nextSecond t = { t with sub := 0, sec := 0, min := 0, hour := 0, day := 1, mon := 1, year := t.year + 1 } := by
  simp [nextSecond, hs, hm, hh, hd, h, monthDays]

/-- The days of a month, as R509 counts them from the Gregorian rules. -/
theorem monthDays_eq (y : BitVec 8) (m : BitVec 4) :
    monthDays y.toNat m.toNat =
      if m = 2 then
        (if (2000 + y.toNat) % 4 = 0 ∧ ((2000 + y.toNat) % 100 ≠ 0 ∨ (2000 + y.toNat) % 400 = 0) then 29 else 28)
      else if m = 4 ∨ m = 6 ∨ m = 9 ∨ m = 11 then 30 else 31 := by
  have hm : ∀ k : BitVec 4, m = k ↔ m.toNat = k.toNat := fun k => BitVec.toNat_inj.symm
  have hy : y.toNat < 256 := y.isLt
  have hleap : (leapYear y.toNat = true) ↔
      ((2000 + y.toNat) % 4 = 0 ∧ ((2000 + y.toNat) % 100 ≠ 0 ∨ (2000 + y.toNat) % 400 = 0)) := by
    simp [leapYear]
    omega
  simp only [monthDays, hleap, hm]
  rfl

/-! ### The trim's cycles (R510) -/

/-- The cycles of the first m steps of a window. -/
theorem sum_trimCycles (n : Int) (m : Nat) : ((List.range m).map (trimCycles n)).sum = n * m / 32768 := by
  induction m with
  | zero => simp
  | succ m ih =>
    rw [List.range_succ, List.map_append, List.sum_append, ih]
    simp only [List.map_cons, List.map_nil, List.sum_cons, List.sum_nil, trimCycles, Nat.cast_succ]
    omega

/-! ### LOAD (R513) -/

theorem limit_eq {lo hi n : Nat} (h : lo ≤ hi) : limit lo hi n = max lo (min hi n) := by
  unfold limit
  (repeat' split) <;> omega

theorem monthDays_bounds (y m : Nat) : 28 ≤ monthDays y m ∧ monthDays y m ≤ 31 := by
  unfold monthDays
  (repeat' split) <;> omega

/-- The corrected values, field by field. -/
theorem calSet_fields (r : Rtc) :
    (calSet r).sec.toNat = min 59 (r.set1.toNat % 64) ∧ (calSet r).min.toNat = min 59 (r.set1.toNat / 256 % 64) ∧
      (calSet r).hour.toNat = min 23 (r.set2.toNat % 32) ∧ (calSet r).mon.toNat = max 1 (min 12 (r.set3.toNat / 256 % 16)) ∧
      (calSet r).year.toNat = min 199 (r.set4.toNat % 256) ∧
      (calSet r).day.toNat = min (monthDays (calSet r).year.toNat (calSet r).mon.toNat) (max 1 (r.set3.toNat % 32)) := by
  have hyear : (calSet r).year.toNat = min 199 (r.set4.toNat % 256) := by simp [calSet, limit_eq]
  have hmon : (calSet r).mon.toNat = max 1 (min 12 (r.set3.toNat / 256 % 16)) := by simp [calSet, limit_eq]
  refine ⟨by simp [calSet, limit_eq], by simp [calSet, limit_eq], by simp [calSet, limit_eq], hmon, hyear, ?_⟩
  rw [hyear, hmon]
  have hb := monthDays_bounds (min 199 (r.set4.toNat % 256)) (max 1 (min 12 (r.set3.toNat / 256 % 16)))
  simp only [calSet, limit_eq (show 0 ≤ 199 by omega), limit_eq (show 1 ≤ 12 by omega), limit_eq (show 1 ≤ 31 by omega), Nat.zero_max]
  generalize monthDays _ _ = d at *
  rw [limit_eq (by omega), BitVec.toNat_ofNat]
  omega

/-! ### The clauses together -/

theorem calEnd_iff (h : t.sub = 1023) :
    calEnd t = true ↔ t.year = 199 ∧ t.mon = 12 ∧ t.day = 31 ∧ t.hour = 23 ∧ t.min = 59 ∧ t.sec = 59 := by
  simp [calEnd, h, and_assoc]

/-- Settles O57: what a tick leaves and `nextSecond` give each carry, `sum_trimCycles` the window's cycles, `calSet_fields` LOAD. -/
theorem calendarCountsLoadsAndCaptures : Obligations.CalendarCountsLoadsAndCaptures := by
  intro s who r t stepped plain leap len ends due
  have hlen : monthDays t.year.toNat t.mon.toNat = len := monthDays_eq t.year t.mon
  have before : t.sub = 1023 → ¬ ends → calEnd t = false := fun hs hn => Bool.eq_false_iff.mpr fun he => hn ((calEnd_iff hs).1 he)
  have early : t.sub = 1023 → t.sec.toNat < 59 → calEnd t = false :=
    fun hs hsec => before hs fun ⟨_, _, _, _, _, h59⟩ => by rw [h59] at hsec; exact absurd hsec (by decide)
  refine ⟨fun hp hs => tick_within hp hs, fun hp hs he => tick_end hp ((calEnd_iff hs).2 he),
    fun hp hs hsec _ => ⟨fun hdue ha => ?alarm, fun ha => ?quiet⟩,
    fun hp hs h59 hne ha _ => ?carry, fun n => ?trim, ⟨calSet r, rfl, rfl, calSet_fields r⟩, rfl⟩
  case alarm =>
    obtain ⟨hen, hm, hsec0⟩ := hdue
    rw [← nextSecond_sec hsec]
    exact tick_second_alarm hp hs (early hs hsec) hen hm (by rw [nextSecond_sec hsec]; exact hsec0) ha
  case quiet =>
    rw [← nextSecond_sec hsec]
    exact tick_second_quiet hp hs (early hs hsec) ha
  case carry =>
    have hq : Does .calendarTick s (atTime s (nextSecond t)) := tick_second_quiet hp hs (before hs hne) ha
    refine ⟨fun hmin => ?_, fun hmin hhour => ?_, fun hmin hhour hday => ?_, fun hmin hhour hday hmon => ?_,
      fun hmin hhour hday hmon => ?_⟩
    · rwa [nextSecond_min h59 hmin] at hq
    · rwa [nextSecond_hour h59 hmin hhour] at hq
    · rwa [nextSecond_day h59 hmin hhour (hlen ▸ hday)] at hq
    · rwa [nextSecond_month h59 hmin hhour (hlen ▸ hday) hmon] at hq
    · rwa [nextSecond_year h59 hmin hhour hday hmon] at hq
  case trim =>
    rw [sum_trimCycles]
    omega

end Laws
end Sys2Proof
end

section
/-!
Rows of bytes that hardware reads from SRAM and stores there, where no bit error is recorded (R284 to R286).
-/
namespace Sys2Proof
namespace Laws
open Machine

variable {s : State} {r : Reader} {a n : Nat} {l : List Byte}

/-- No bit error is recorded for a word that holds one of the n bytes from a on. -/
def CleanRow (s : State) (a n : Nat) : Prop := ∀ k < n, ∀ e ∈ s.mem.errs, e.1 ≠ (a + k) - (a + k) % 2

theorem cleanRow_of_no_errs (h : s.mem.errs = []) : CleanRow s a n := by simp [CleanRow, h]

/-- No error lies between the word before the row and its end. -/
theorem cleanRow_of_outside (h : ∀ e ∈ s.mem.errs, e.1 < a - 1 ∨ a + n ≤ e.1) : CleanRow s a n := by
  intro k hk e he
  have := h e he
  omega

theorem cleanRow_first (h : CleanRow s a (n + 1)) : ∀ e ∈ s.mem.errs, e.1 ≠ a - a % 2 := h 0 (Nat.succ_pos n)

theorem cleanRow_rest (h : CleanRow s a (n + 1)) : CleanRow s (a + 1) n := by
  intro k hk e he
  have := h (k + 1) (by omega) e he
  rwa [show a + (k + 1) = a + 1 + k by omega] at this

@[simp] theorem readN_length (d : Byte) (m : Bytes) (a n : Nat) : (Bytes.readN d m a n).length = n := by simp [Bytes.readN]

theorem readN_succ (d : Byte) (m : Bytes) (a n : Nat) : Bytes.readN d m a (n + 1) = Bytes.read d m a :: Bytes.readN d m (a + 1) n := by
  simp only [Bytes.readN, List.range_succ_eq_map, List.map_cons, List.map_map, Nat.add_zero, List.cons.injEq, true_and]
  refine List.map_congr_left fun k _ => ?_
  simp only [Function.comp, Nat.succ_eq_add_one]
  congr 1
  omega

/-- A clean row is read as it stands, and nothing changes. -/
theorem sramReadL_clean (h : CleanRow s a n) : sramReadL r a n s = (Bytes.readN 0 s.mem.bytes a n, s) := by
  induction n generalizing a with
  | zero => rfl
  | succ n ih =>
    rw [sramReadL, sramReadB, eccTouch_noError (cleanRow_first h)]
    simp only [ih (cleanRow_rest h), readN_succ]

theorem word2_getLsbD (b c : Byte) (i : Nat) : (word2 b c).getLsbD i = if i < 8 then b.getLsbD i else c.getLsbD (i - 8) :=
  BitVec.getLsbD_append

theorem loB_word2 (b c : Byte) : loB (word2 b c) = b := by
  apply BitVec.eq_of_getLsbD_eq
  intro i hi
  simp [loB, word2_getLsbD, hi]

theorem hiB_word2 (b c : Byte) : hiB (word2 b c) = c := by
  apply BitVec.eq_of_getLsbD_eq
  intro i hi
  simp [hiB, word2_getLsbD, hi]

/-- A clean row is stored as it is; errors recorded there are gone, and nothing else changes. -/
theorem sramWriteL_clean (r : Reader) (a : Nat) (l : List Byte) (s : State) (h : CleanRow s a l.length) :
    ∃ errs, errs ⊆ s.mem.errs ∧ sramWriteL r a l s =
      { s with mem := { s.mem with bytes := Bytes.writeL 0 s.mem.bytes a l, errs := errs } } := by
  induction r, a, l, s using sramWriteL.induct with
  | case1 r a s => exact ⟨_, List.Subset.refl _, rfl⟩
  | case2 r a b s =>
    refine ⟨s.mem.errs.filter (fun e => e.1 != a - a % 2), List.filter_sublist.subset, ?_⟩
    rw [sramWriteL, sramWriteB, eccTouch_noError (cleanRow_first h)]
    rfl
  | case3 r a b c l s he ih =>
    have hsub := (List.filter_sublist (l := s.mem.errs) (p := fun e => e.1 != a)).subset
    have hrest : CleanRow (sramWrite a (word2 b c) s) (a + 2) l.length :=
      fun k hk e hm => cleanRow_rest (cleanRow_rest h) k hk e (hsub hm)
    obtain ⟨errs, hs, heq⟩ := ih hrest
    refine ⟨errs, List.Subset.trans hs hsub, ?_⟩
    rw [sramWriteL, if_pos he, heq]
    simp only [sramWrite, loB_word2, hiB_word2, Bytes.writeL]
  | case4 r a b c l s he ih =>
    have hsub := (List.filter_sublist (l := s.mem.errs) (p := fun e => e.1 != a - a % 2)).subset
    have hb : sramWriteB r a b s = { s with mem := { s.mem with bytes := Bytes.write 0 s.mem.bytes a b
                                                                errs := s.mem.errs.filter (fun e => e.1 != a - a % 2) } } := by
      rw [sramWriteB, eccTouch_noError (cleanRow_first h)]
    have hrest : CleanRow (sramWriteB r a b s) (a + 1) (c :: l).length := by
      rw [hb]
      exact fun k hk e hm => cleanRow_rest h k hk e (hsub hm)
    obtain ⟨errs, hs, heq⟩ := ih hrest
    rw [hb] at hs heq
    refine ⟨errs, List.Subset.trans hs hsub, ?_⟩
    rw [sramWriteL, if_neg he, hb, heq]
    simp only [Bytes.writeL]

end Laws
end Sys2Proof
end

section
/-!
O32: VAULT_APPEND and its copy, the GAP record, and the capture of ASEQ.
-/
namespace Sys2Proof
namespace Laws
open Machine

variable {s : State} {c : CoreId} {v : Vault} {x : AppendSet} {n : Nat} {why : BitVec 4}

/-! ### A core's append set written (R382) -/

@[simp] theorem putSet_set : (v.putSet c x).set c = x := by cases c <;> rfl
@[simp] theorem putSet_queue : (v.putSet c x).queue = v.queue := by cases c <;> rfl
@[simp] theorem putSet_seq : (v.putSet c x).seq = v.seq := by cases c <;> rfl
@[simp] theorem putSet_store : (v.putSet c x).store = v.store := by cases c <;> rfl
@[simp] theorem putSet_shed : (v.putSet c x).shed = v.shed := by cases c <;> rfl
@[simp] theorem putSet_gaps : (v.putSet c x).gaps = v.gaps := by cases c <;> rfl

/-! ### An append is one offer (R363, R366) -/

/-- Reason 2 or 3 against an append of n bytes, or 0. -/
def appendBad (x : AppendSet) (n : Nat) : BitVec 4 := if n > 240 || x.type = 0 then 2 else if x.src.toNat + n > 0xD000 then 3 else 0

/-- The offer that VAULT_APPEND makes. -/
def appendOffer (c : CoreId) (n : Nat) (s : State) : Verdict × State :=
  let x := s.vlt.set c
  offer true (x.type.setWidth 8) x.stream (bitAt 8 2 c.isB) (appendBad x n) (8 + n) (List.replicate n 0) true s

/-- The append set once the offer has been decided. -/
def decidedSet (x : AppendSet) : Verdict → AppendSet
  | .accepted n => { x with st := 2, seq := n }
  | .shed => { x with st := 3 }
  | .thinned => { x with st := 4 }
  | .refused w => { x with st := 5, why := w }

theorem exec_vaultAppend (len : BitVec 16) (hp : s.pwr.phase = .awake) :
    exec (.vaultAppend c len) s = .next (append c (len.toNat % 256) s) :=
  congrArg Host.Outcome.next (if_pos (by simp [State.awake, hp]))

/-- While the set is not copying, the offer decides. -/
theorem append_decided (h : (s.vlt.set c).st ≠ 2) {r : Verdict} {u : State} (ho : appendOffer c n s = (r, u)) :
    append c n s = { u with vlt := u.vlt.putSet c (decidedSet { u.vlt.set c with len := n, why := 0 } r) } := by
  have ho' : offer true ((s.vlt.set c).type.setWidth 8) (s.vlt.set c).stream (bitAt 8 2 c.isB)
      (if n > 240 || (s.vlt.set c).type = 0 then 2 else if (s.vlt.set c).src.toNat + n > 0xD000 then 3 else 0) (8 + n)
      (List.replicate n 0) true s = (r, u) := ho
  simp only [append, if_neg h, ho']
  cases r <;> rfl

theorem exec_vaultAppend_copying (len : BitVec 16) (h : (s.vlt.set c).st = 2) : exec (.vaultAppend c len) s = .next s := by
  have ha : append c (len.toNat % 256) s = s := if_pos h
  exact congrArg Host.Outcome.next (by rw [ha, ite_self])

theorem drains_awake (hp : s.pwr.phase = .awake) : drains s = false := by simp [drains, hp]

theorem onlyVault_appendOffer : OnlyVault s (appendOffer c n s).2 := onlyVault_offer _ _ _ _ _ _ _ _ s

/-! ### Taken, or shed for want of room (R362, R371) -/

/-- Nothing forbids the offer (R364). -/
theorem appendOffer_admitted (hp : s.pwr.phase = .awake) (hr : refusal s (s.vlt.set c).stream (appendBad (s.vlt.set c) n) = 0)
    (hg : s.vlt.gaps = []) :
    appendOffer c n s = overload ((s.vlt.set c).type.setWidth 8) (s.vlt.set c).stream (bitAt 8 2 c.isB) (8 + n) (List.replicate n 0) true s := by
  have hw : writeGap s = s := by rw [writeGap, hg]
  simp only [appendOffer, offer, drains_awake hp, hr, hw, Bool.false_eq_true, if_false, if_true]

/-- Without thinning a record takes its place, or is shed where the queue has no room for it. -/
theorem overload_plain {ty : Byte} {k : BitVec 4} {f : Byte} {room : Nat} {body : List Byte} (ht : s.vlt.cfg.thin = false) :
    overload ty k f room body true s =
      if vqFill s.vlt + room ≤ 8064 then (.accepted s.vlt.seq, vAccept ty k f body true false s) else (.shed, shedOffer .shed k s) := by
  simp [overload, ht]

theorem recordBytes_length (ty : Byte) (k : BitVec 4) (f : Byte) (q : BitVec 32) (body : List Byte) :
    (recordBytes ty k f q body).length = 8 + body.length := by
  simp [recordBytes]
  omega

/-- A loss where no gap is pending opens one (R372). -/
theorem shedOffer_opens {cause : GapCause} {k : BitVec 4} (hg : s.vlt.gaps = []) :
    ∃ g, (shedOffer cause k s).vlt.gaps = [g] ∧ g.cause = cause ∧ g.lost = 1 := by
  simp only [shedOffer, addGap, hg, List.any_nil, Bool.false_eq_true, if_false, List.nil_append]
  exact ⟨_, rfl, rfl, rfl⟩

theorem shedOffer_vlt (cause : GapCause) (k : BitVec 4) (s : State) :
    (shedOffer cause k s).vlt.queue = s.vlt.queue ∧ (shedOffer cause k s).vlt.shed = satInc s.vlt.shed := by
  unfold shedOffer addGap
  dsimp only
  split <;> exact ⟨rfl, rfl⟩

/-- A decided append changes the Vault alone. -/
theorem append_onlyVault (h : (s.vlt.set c).st ≠ 2) : OnlyVault s (append c n s) := by
  rw [append_decided h (r := (appendOffer c n s).1) (u := (appendOffer c n s).2) rfl]
  exact onlyVault_trans (onlyVault_appendOffer (c := c) (n := n)) (onlyVault_vlt _ _)

theorem append_takes (hp : s.pwr.phase = .awake) (hx : (s.vlt.set c).st ≠ 2)
    (hr : refusal s (s.vlt.set c).stream (appendBad (s.vlt.set c) n) = 0) (hg : s.vlt.gaps = []) (ht : s.vlt.cfg.thin = false)
    (hf : vqFill s.vlt + (8 + n) ≤ 8064) :
    let t := append c n s
    ∃ r, t.vlt.queue = s.vlt.queue ++ [r] ∧ r.seq = s.vlt.seq ∧ r.bytes.length = 8 + n ∧ r.copying = true ∧
      r.bytes.take 3 = [(s.vlt.set c).type.setWidth 8, (s.vlt.set c).stream.setWidth 8, BitVec.ofNat 8 (8 + n)] ∧
      t.vlt.seq = s.vlt.seq + 1 ∧ (t.vlt.set c).st = 2 ∧ (t.vlt.set c).seq = s.vlt.seq ∧ t.vlt.store = s.vlt.store := by
  have ho := appendOffer_admitted hp hr hg
  rw [overload_plain ht, if_pos hf] at ho
  rw [append_decided hx ho]
  simp only [putSet_queue, putSet_seq, putSet_set, putSet_store, decidedSet, vAccept]
  exact ⟨_, rfl, rfl, by simp [recordBytes_length], rfl, by simp [recordBytes], trivial, trivial, trivial, trivial⟩

theorem append_sheds (hp : s.pwr.phase = .awake) (hx : (s.vlt.set c).st ≠ 2)
    (hr : refusal s (s.vlt.set c).stream (appendBad (s.vlt.set c) n) = 0) (hg : s.vlt.gaps = []) (ht : s.vlt.cfg.thin = false)
    (hf : 8064 < vqFill s.vlt + (8 + n)) :
    let t := append c n s
    (t.vlt.set c).st = 3 ∧ t.vlt.queue = s.vlt.queue ∧ t.vlt.shed = satInc s.vlt.shed ∧
      ∃ g, t.vlt.gaps = [g] ∧ g.cause = .shed ∧ g.lost = 1 := by
  have ho := appendOffer_admitted hp hr hg
  rw [overload_plain ht, if_neg (Nat.not_le.mpr hf)] at ho
  obtain ⟨hq, hs⟩ := shedOffer_vlt .shed (s.vlt.set c).stream s
  rw [append_decided hx ho]
  simp only [putSet_queue, putSet_set, putSet_shed, putSet_gaps, decidedSet]
  exact ⟨trivial, hq, hs, shedOffer_opens hg⟩

/-! ### Refused (R364) -/

/-- A reason that stands against a core's offer, the full queue apart, is answered and changes nothing else. -/
theorem append_refuses (hp : s.pwr.phase = .awake) (hx : (s.vlt.set c).st ≠ 2)
    (hr : refusal s (s.vlt.set c).stream (appendBad (s.vlt.set c) n) = why) (h0 : why ≠ 0) (h5 : why ≠ 5) :
    let t := append c n s
    (t.vlt.set c).st = 5 ∧ (t.vlt.set c).why = why ∧ t.vlt.queue = s.vlt.queue ∧ t.vlt.seq = s.vlt.seq := by
  have ho : appendOffer c n s = (.refused why, s) := by
    simp only [appendOffer, offer, drains_awake hp, hr, Bool.false_eq_true, if_false, if_neg h0, if_neg h5, Bool.not_true,
      Bool.and_false]
  rw [append_decided hx ho]
  simp [decidedSet]

/-- An append's length, type and source are allowed (R366). -/
def AppendFits (x : AppendSet) (n : Nat) : Prop := n ≤ 240 ∧ x.type ≠ 0 ∧ x.src.toNat + n ≤ 0xD000

theorem appendBad_shape (h : ¬ (n ≤ 240 ∧ x.type ≠ 0)) : appendBad x n = 2 := by
  refine if_pos ?_
  rw [Bool.or_eq_true, decide_eq_true_eq, decide_eq_true_eq]
  by_cases hn : n ≤ 240
  · exact .inr (not_not.mp fun ht => h ⟨hn, ht⟩)
  · exact .inl (Nat.not_le.mp hn)

/-- The length and the type are allowed: only the source is left to test. -/
theorem appendBad_shaped (hn : n ≤ 240) (ht : x.type ≠ 0) : appendBad x n = if x.src.toNat + n > 0xD000 then 3 else 0 := by
  refine if_neg ?_
  rw [Bool.or_eq_true, decide_eq_true_eq, decide_eq_true_eq]
  exact fun h => h.elim (Nat.not_lt.mpr hn) ht

theorem appendBad_source (hn : n ≤ 240) (ht : x.type ≠ 0) (hs : 0xD000 < x.src.toNat + n) : appendBad x n = 3 :=
  (appendBad_shaped hn ht).trans (if_pos hs)

theorem appendBad_fits (h : AppendFits x n) : appendBad x n = 0 :=
  (appendBad_shaped h.1 h.2.1).trans (if_neg (Nat.not_lt.mpr h.2.2))

theorem refusal_stream {k bad : BitVec 4} (h : s.vlt.cfg.strm.getLsbD k.toNat = false) : refusal s k bad = 1 := by simp [refusal, h]

theorem refusal_bad {k bad : BitVec 4} (h : s.vlt.cfg.strm.getLsbD k.toNat = true) (hb : bad ≠ 0) : refusal s k bad = bad := by
  have : (bad != 0) = true := bne_iff_ne.mpr hb
  simp only [refusal, h, this, Bool.not_true, Bool.false_eq_true, if_false, if_true]

theorem refusal_wear {k : BitVec 4} (h : s.vlt.cfg.strm.getLsbD k.toNat = true) (hw : 2 ≤ s.vlt.wear.toNat) : refusal s k 0 = 4 := by
  simp [refusal, h, hw]

theorem refusal_none {k : BitVec 4} (h : s.vlt.cfg.strm.getLsbD k.toNat = true) (hw : s.vlt.wear.toNat < 2)
    (hs : ¬ (s.vlt.cfg.stop = true ∧ freePages s.vlt ≤ 1)) (hm : s.vlt.mounting = false) (hl : s.por.lgActive = false)
    (hp : s.vlt.present = true) : refusal s k 0 = 0 := by
  simp [refusal, h, Nat.not_le.mpr hw, hm, hl, hp]
  grind

/-! ### The copy ends (R366) -/

theorem exec_vaultAppendCopyDone (c : CoreId) (s : State) : exec (.vaultAppendCopyDone c) s = execVaultAppendCopyDone c s := rfl

/-- The body as data space holds it is put in the record, and ST reads DONE. -/
theorem exec_copyDone_clean (hx : (s.vlt.set c).st = 2) (hm : s.mainOn = true)
    (hc : CleanRow s (s.vlt.set c).src.toNat (s.vlt.set c).len) :
    exec (.vaultAppendCopyDone c) s = .next { s with
      vlt := (vPatch (s.vlt.set c).seq 8 (Bytes.readN 0 s.mem.bytes (s.vlt.set c).src.toNat (s.vlt.set c).len) s.vlt).putSet c
        { s.vlt.set c with st := 1 } } := by
  simp [exec_vaultAppendCopyDone, execVaultAppendCopyDone, hx, hm, sramReadL_clean hc]

/-! ### The GAP record (R372) -/

theorem gapBody_length (g : Gap) : (gapBody g).length = 20 := by simp [gapBody]

theorem writeGap_none (h : s.vlt.gaps = []) : writeGap s = s := by rw [writeGap, h]

theorem writeGap_first {g : Gap} {l : List Gap} (hg : s.vlt.gaps = g :: l) (ha : s.vlt.gapAt = none) (hp : s.vlt.present = true)
    (hm : s.vlt.mounting = false) (haw : s.awake = true) (hw : s.vlt.wear.toNat < 2) (hi : s.vlt.gasp = .idle)
    (hf : vqFill s.vlt + 28 ≤ 8192) :
    writeGap s =
      let t := vAccept 0x80 0 0 (gapBody g) false false { s with vlt.gaps := l }
      { t with vlt.gapAt := some s.now16, vlt.gapCnt := satInc s.vlt.gapCnt } := by
  rw [writeGap, hg]
  simp only [ha, hp, hm, haw, hi]
  exact if_pos (by simp [hw, hf])

/-- Settles O32: an append is one offer, decided by `append_takes`, `append_sheds` and `append_refuses`; a copy fills the record
and a gap is written by one engine command each. -/
theorem vaultAppendsAreTakenOrRefused : Obligations.VaultAppendsAreTakenOrRefused := by
  unfold Obligations.VaultAppendsAreTakenOrRefused
  intro c len s x n fits
  refine ⟨fun hp hx => ⟨fun hstrm hfits hw hs hm hl hpr hg ht => ?_, fun why hwhy => ?_⟩,
    exec_vaultAppend_copying len, fun hx hm he => ?_, fun g l hg ha hp hm haw hw hi hf => ?_,
    fun hg => congrArg Host.Outcome.next (writeGap_none hg), rfl⟩
  · have hr : refusal s x.stream (appendBad x n) = 0 := by
      rw [appendBad_fits hfits]
      exact refusal_none hstrm hw hs hm hl hpr
    refine ⟨fun hf => ?_, fun hf => ⟨_, exec_vaultAppend len hp, append_onlyVault hx, append_sheds hp hx hr hg ht hf⟩⟩
    obtain ⟨r, h⟩ := append_takes hp hx hr hg ht hf
    exact ⟨_, r, exec_vaultAppend len hp, append_onlyVault hx, h⟩
  · obtain ⟨hr, h0, h5⟩ : refusal s x.stream (appendBad x n) = why ∧ why ≠ 0 ∧ why ≠ 5 := by
      rcases hwhy with ⟨hstrm, rfl⟩ | ⟨hstrm, ⟨hsh, rfl⟩ | ⟨hn, ht, hsrc, rfl⟩ | ⟨hfits, hw, rfl⟩⟩
      · exact ⟨refusal_stream hstrm, by decide, by decide⟩
      · rw [appendBad_shape hsh]
        exact ⟨refusal_bad hstrm (by decide), by decide, by decide⟩
      · rw [appendBad_source hn ht hsrc]
        exact ⟨refusal_bad hstrm (by decide), by decide, by decide⟩
      · rw [appendBad_fits hfits]
        exact ⟨refusal_wear hstrm hw, by decide, by decide⟩
    exact ⟨_, exec_vaultAppend len hp, append_onlyVault hx, append_refuses hp hx hr h0 h5⟩
  · refine ⟨_, exec_copyDone_clean hx hm (cleanRow_of_outside he), rfl, by simp, ?_⟩
    simp only [putSet_queue, vPatch, patchBytes, readN_length, x]
  · refine ⟨_, _, congrArg Host.Outcome.next (writeGap_first hg ha hp hm haw hw hi hf), rfl, rfl, rfl, rfl, ?_, rfl, rfl⟩
    rw [recordBytes_length, gapBody_length]

end Laws
end Sys2Proof
end

section
/-!
O33: page programs, their ends, the flush age, the release, the mount and the late faults of the Vault.
-/
namespace Sys2Proof
namespace Laws
open Machine

variable {s : State} {g : Prog} {v : Vault} {p : BitVec 14} {l : List VRec}

/-! ### A program starts (R367) -/

theorem exec_vaultPageProgramStart (s : State) : exec .vaultPageProgramStart s = execVaultPageProgramStart s := rfl

/-- No last-gasp sequence runs. -/
theorem gaspOn_off (h : s.por.lgActive = false) : gaspOn s = false := by simp [gaspOn, h]

theorem gaspAdvance_off (h : s.por.lgActive = false) : gaspAdvance s = s := by simp [gaspAdvance, gaspOn_off h]

theorem awake_of_phase (hp : s.pwr.phase = .awake) : s.awake = true := by simp [State.awake, hp]

theorem phase_of_awake (h : s.awake = true) : s.pwr.phase = .awake := by simpa [State.awake] using h

theorem mayProgram_shut (ha : s.awake = true) (hl : s.por.lgActive = false) (hw : s.crs.winVault = false) : mayProgram s = false := by
  simp [mayProgram, flushing, drains_awake (phase_of_awake ha), gaspOn_off hl, hw]

theorem mayProgram_open (hp : s.pwr.phase = .awake) (hpr : s.vlt.present = true) (hm : s.vlt.mounting = false)
    (hf : s.vlt.flight.length < 4) (hw : s.crs.winVault = true) (ht : s.vlt.cfg.ppt = 0) (hd : s.pwr.drainOver = false) :
    mayProgram s = true := by
  simp [mayProgram, mainOn_of_awake (awake_of_phase hp), hpr, hm, hf, hw, ht, hd]

/-- A page is next once no re-placement and no table copy waits. -/
theorem nextProg_page (hr : s.vlt.replaces = []) (ht : s.vlt.tblTodo = []) (h : pageReady s = some l) : nextProg s = some (.page l) := by
  simp [nextProg, hr, ht, h]

theorem exec_programStart_shut (ha : s.awake = true) (hl : s.por.lgActive = false) (hw : s.crs.winVault = false) :
    exec .vaultPageProgramStart s = .next s := by
  simp [exec_vaultPageProgramStart, execVaultPageProgramStart, gaspAdvance_off hl, mayProgram_shut ha hl hw]

/-- Where a page may be programmed, leave is asked for, then used. -/
theorem exec_programStart_page (hl : s.por.lgActive = false) (hm : mayProgram s = true) (hn : nextProg s = some (.page l)) :
    (s.vlt.leave = .none → exec .vaultPageProgramStart s = .next { s.ask 1 .vault with vlt.leave := .asked }) ∧
    (s.vlt.leave = .granted → exec .vaultPageProgramStart s = .next (startProg (.page l) s)) := by
  constructor <;> intro h <;>
    simp [exec_vaultPageProgramStart, execVaultPageProgramStart, gaspAdvance_off hl, hm, hn, h, gaspClass, gaspOn_off hl]

theorem tailOn_keeps (v : Vault) : (tailOn v).leave = v.leave ∧ (tailOn v).flight = v.flight ∧ (tailOn v).started = v.started ∧
    (tailOn v).store = v.store := by
  unfold tailOn
  dsimp only
  repeat' split
  all_goals exact ⟨rfl, rfl, rfl, rfl⟩

/-- A page in flight: its records' bytes, padded with 0xFF to 256. -/
theorem startProg_page (hl : s.por.lgActive = false) :
    let t := startProg (.page l) s
    ∃ g, t = { s with vlt := t.vlt } ∧ t.vlt.flight = s.vlt.flight ++ [g] ∧
      g.bytes = (l.flatMap (·.bytes)) ++ List.replicate (256 - (l.flatMap (·.bytes)).length) 0xFF ∧ g.recs = l.length ∧ g.cls = 1 ∧
      t.vlt.leave = .none ∧ t.vlt.started = s.vlt.started + 1 ∧ t.vlt.store = s.vlt.store := by
  simp only [startProg]
  refine ⟨_, trivial, (tailOn_keeps _).2.1, rfl, rfl, ?_, (tailOn_keeps _).1, (tailOn_keeps _).2.2.1, (tailOn_keeps _).2.2.2⟩
  simp [gaspClass, gaspOn_off hl]

/-! ### A program ends (R368 to R370) -/

theorem exec_vaultProgramEnd (id : Nat) (a : BitVec 2) (ok : Bool) (s : State) :
    exec (.vaultProgramEnd id a ok) s = execVaultProgramEnd id a ok s := rfl

/-- The end counts in one of the VAULT_RETRY counters. -/
theorem retryCount_eq (a : BitVec 2) (ok : Bool) (v : Vault) : ∃ r0 r1 r2 r3 r4,
    retryCount a ok v = { v with retry0 := r0, retry1 := r1, retry2 := r2, retry3 := r3, retry4 := r4 } := by
  unfold retryCount
  repeat' split
  all_goals exact ⟨_, _, _, _, _, rfl⟩

theorem readOnlyCheck_early (h : s.vlt.wear.toNat < 2) : readOnlyCheck s = s := by
  have hw : s.vlt.wear ≠ 2 := fun e => by simp [e] at h
  have hd : decide (s.vlt.wear = 2) = false := decide_eq_false hw
  rw [readOnlyCheck, hd, Bool.false_and, if_neg Bool.false_ne_true]

theorem chainDue_early (h : s.vlt.chainPages < 16) : chainDue s = s := by
  simp [chainDue, Nat.not_le.mpr h]

/-- The flight's only program, of class 1, has ended: it has left the flight, is counted, and its hold is released. -/
def programOver (a : BitVec 2) (ok : Bool) (s : State) : State :=
  { s with vlt := retryCount a ok { s.vlt with flight := [], pgCnt := satInc s.vlt.pgCnt } }.fin 1 .vault

theorem exec_programEnd_only {a : BitVec 2} {ok : Bool} (hf : s.vlt.flight = [g]) (hc : g.cls = 1) (hm : s.mainOn = true) :
    exec (.vaultProgramEnd g.id a ok) s =
      .next (readOnlyCheck (if ok then progVerified g (programOver a ok s) else progFailed g (programOver a ok s))) := by
  rw [exec_vaultProgramEnd]
  simp only [execVaultProgramEnd, hf, List.find?_cons, beq_self_eq_true, hm, if_true, hc]
  simp [programOver]

/-- A verified page is in the store, and its records are out of the queue. -/
theorem progVerified_page (hk : g.kind = .page p) (h : s.vlt.chainPages < 15) :
    progVerified g s = { s with vlt := { s.vlt with
      store := Bytes.writeL 0xFF s.vlt.store (pageAt s.vlt.tbl p) g.bytes
      queue := s.vlt.queue.filter (fun r => r.prog != some g.id), chainPages := s.vlt.chainPages + 1 } } := by
  simp only [progVerified, hk]
  exact chainDue_early (Nat.succ_lt_succ h)

/-- A failed page waits for the first free spare that no re-placement holds. -/
theorem progFailed_page {n : Nat} (hk : g.kind = .page p) (hf : s.vlt.flight = [])
    (hn : pickSpare s.vlt.tbl (s.vlt.replaces.map (·.spare)) = some n) :
    progFailed g s = { s with vlt.replaces := s.vlt.replaces ++
      [{ id := g.id, page := p, spare := n, bytes := g.bytes, firstSeq := g.firstSeq, recs := g.recs }] } := by
  simp only [progFailed, hk, hf, List.filterMap_nil, List.append_nil, hn]

theorem exec_programEnd_verified (a : BitVec 2) (hs : s.vlt.sound) (hm : s.mainOn = true) (hf : s.vlt.flight = [g]) (hk : g.kind = .page p)
    (hc : g.cls = 1) (hw : s.vlt.wear.toNat < 2) (hn : s.vlt.chainPages < 15) :
    ∃ t, exec (.vaultProgramEnd g.id a true) s = .next t ∧ t = { s with vlt := t.vlt, tie := t.tie } ∧ t.vlt.flight = [] ∧
      t.tie.lane = s.tie.lane ++ [.fin 1 .vault] ∧ t.vlt.pgCnt = satInc s.vlt.pgCnt ∧
      t.vlt.queue = s.vlt.queue.filter (fun r => r.prog != some g.id) ∧
      ∀ b, Bytes.read 0xFF t.vlt.store b = if pageAt s.vlt.tbl p ≤ b ∧ b < pageAt s.vlt.tbl p + g.bytes.length
        then g.bytes.getD (b - pageAt s.vlt.tbl p) 0 else Bytes.read 0xFF s.vlt.store b := by
  obtain ⟨r0, r1, r2, r3, r4, hr⟩ := retryCount_eq a true { s.vlt with flight := [], pgCnt := satInc s.vlt.pgCnt }
  rw [exec_programEnd_only hf hc hm, if_pos rfl, programOver, hr, progVerified_page hk (by exact hn), readOnlyCheck_early (by exact hw)]
  refine ⟨_, rfl, rfl, rfl, rfl, rfl, rfl, fun b => ?_⟩
  show Bytes.read 0xFF (Bytes.writeL 0xFF s.vlt.store (pageAt s.vlt.tbl p) g.bytes) b = _
  rw [read_writeL hs]
  split
  · next h =>
    have hlt : b - pageAt s.vlt.tbl p < g.bytes.length := by omega
    rw [List.getD_eq_getElem _ _ hlt, List.getD_eq_getElem _ _ hlt]
  · rfl

theorem exec_programEnd_failed {n : Nat} (a : BitVec 2) (hm : s.mainOn = true) (hf : s.vlt.flight = [g]) (hk : g.kind = .page p)
    (hc : g.cls = 1) (hw : s.vlt.wear.toNat < 2) (hn : pickSpare s.vlt.tbl (s.vlt.replaces.map (·.spare)) = some n) :
    ∃ t, exec (.vaultProgramEnd g.id a false) s = .next t ∧ t = { s with vlt := t.vlt, tie := t.tie } ∧ t.vlt.flight = [] ∧
      t.vlt.store = s.vlt.store ∧ t.vlt.queue = s.vlt.queue ∧
      ∃ r, t.vlt.replaces = s.vlt.replaces ++ [r] ∧ r.page = p ∧ r.spare = n ∧ r.bytes = g.bytes := by
  obtain ⟨r0, r1, r2, r3, r4, hr⟩ := retryCount_eq a false { s.vlt with flight := [], pgCnt := satInc s.vlt.pgCnt }
  rw [exec_programEnd_only hf hc hm, if_neg Bool.false_ne_true, programOver, hr, progFailed_page hk rfl (by exact hn),
    readOnlyCheck_early (by exact hw)]
  exact ⟨_, rfl, rfl, rfl, rfl, rfl, _, rfl, rfl, rfl, rfl⟩

/-! ### Flush age, release, mount (R359, R367, R378) -/

theorem exec_vaultFlushAgeExpiry (s : State) : exec .vaultFlushAgeExpiry s = execVaultFlushAgeExpiry s := rfl

theorem exec_flushAge {r : VRec} (h : waitingRecs s.vlt = r :: l) :
    (s.vlt.cfg.flush ≠ 0 → r.tick.toNat + s.vlt.cfg.flush.toNat ≤ s.crs.tick.toNat →
      exec .vaultFlushAgeExpiry s = .next { s with vlt.aged := true }) ∧
    (s.vlt.cfg.flush = 0 ∨ s.crs.tick.toNat < r.tick.toNat + s.vlt.cfg.flush.toNat → exec .vaultFlushAgeExpiry s = .next s) := by
  have he : exec .vaultFlushAgeExpiry s = .next (if s.vlt.cfg.flush != 0 &&
      decide (r.tick.toNat + s.vlt.cfg.flush.toNat ≤ s.crs.tick.toNat) then { s with vlt.aged := true } else s) := by
    rw [exec_vaultFlushAgeExpiry, execVaultFlushAgeExpiry, h]
  refine ⟨fun h0 hd => he.trans (congrArg _ (if_pos ?_)), fun hd => he.trans (congrArg _ (if_neg ?_))⟩
  · rw [bne_iff_ne.mpr h0, decide_eq_true hd]
    rfl
  · rw [Bool.and_eq_true, bne_iff_ne, decide_eq_true_eq]
    exact fun ⟨h0, hle⟩ => hd.elim h0 (Nat.not_lt.mpr hle)

theorem exec_vaultRelease_awake (who : Who) (n : BitVec 16) (h : s.awake = true) :
    exec (.vaultRelease who n) s = .next (vaultRelease (n.setWidth 14) s) := congrArg Host.Outcome.next (if_pos h)

/-- With pages free and no table change waiting the head moves by what the log holds at most. -/
theorem vaultRelease_eq (n : BitVec 14) (hb : s.vlt.brim = false) (ht : s.vlt.tblTodo = []) :
    vaultRelease n s = { s with vlt := { s.vlt with
      tbl := { s.vlt.tbl with head := s.vlt.tbl.head + BitVec.ofNat 14 (min n.toNat (s.vlt.tail - s.vlt.tbl.head).toNat) }
      tblTodo := [false, true] } } := by
  simp [vaultRelease, tableDirty, hb, ht, Nat.min_def]

theorem offerEngine_keeps (type : Byte) (body : List Byte) (s : State) :
    let t := offerEngine type body s
    OnlyVault s t ∧ t.vlt.mounting = s.vlt.mounting ∧ t.vlt.tbl = s.vlt.tbl ∧ t.vlt.store = s.vlt.store ∧ t.vlt.wear = s.vlt.wear := by
  unfold offerEngine
  split
  · exact ⟨rfl, rfl, rfl, rfl, rfl⟩
  · split
    · exact ⟨rfl, rfl, rfl, rfl, rfl⟩
    · refine ⟨onlyVault_shedOffer _ _ s, ?_⟩
      unfold shedOffer addGap
      dsimp only
      split <;> exact ⟨rfl, rfl, rfl, rfl⟩

theorem exec_vaultMountEnd (s : State) : exec .vaultMountEnd s = execVaultMountEnd s := rfl

/-- The mount takes the newer copy of the table, and is READ-ONLY with at most four spares. -/
theorem vaultMount_keeps (s : State) :
    let t := vaultMount s
    t = { s with vlt := t.vlt } ∧ t.vlt.mounting = false ∧
      t.vlt.tbl = (if s.vlt.tbl1.version ≤ s.vlt.tbl0.version then s.vlt.tbl0 else s.vlt.tbl1) ∧ t.vlt.store = s.vlt.store ∧
      (t.vlt.wear = 3 ↔ freeSpares t.vlt.tbl ≤ 4) := by
  unfold vaultMount
  extract_lets v t v1 pages recs tail last after chain wear v2 lastNo
  obtain ⟨ho, hm, ht, hs, hw⟩ := offerEngine_keeps 0x87 ([s.isl.rstCause.setWidth 8, 0] ++ leBytes 2 tail.toNat ++ leBytes 4 lastNo ++
    leBytes 4 (s.crs.tick.toNat % 2 ^ 32) ++ [0, 0, 0, 0]) { s with vlt := v2 }
  refine ⟨onlyVault_trans (onlyVault_vlt v2 s) ho, hm, ht, hs, ?_⟩
  rw [hw, ht]
  show wear = 3 ↔ freeSpares t ≤ 4
  by_cases hf : freeSpares t ≤ 4
  · simp [wear, hf]
  · simp only [wear, hf, if_false, iff_false]
    split <;> decide

/-! ### The obligation -/

/-- Settles O33: a page is started by `exec_programStart_page`, ends by `exec_programEnd_verified` or `exec_programEnd_failed`; the
store's bytes are those of `read_writeL`. -/
theorem vaultProgramsPagesOnce : Obligations.VaultProgramsPagesOnce := by
  unfold Obligations.VaultProgramsPagesOnce
  refine fun s => ⟨fun hl hp hpr hm hf hw ht hd hr htb p hp' => ?_, exec_programStart_shut,
    fun g p a hs hm hf hk hc hw hn => ⟨exec_programEnd_verified a hs hm hf hk hc hw hn,
      fun n hsp => exec_programEnd_failed a hm hf hk hc hw hsp⟩,
    fun r l h => exec_flushAge h, fun who v ha hb ht => ?_, fun hmt hm => ?_, fun hm => ?_, rfl⟩
  · obtain ⟨hask, hgo⟩ := exec_programStart_page hl (mayProgram_open hp hpr hm hf hw ht hd) (nextProg_page hr htb hp')
    refine ⟨fun h => hask h, fun h => ?_⟩
    obtain ⟨g, hg⟩ := startProg_page (l := p) hl
    exact ⟨_, g, hgo h, hg⟩
  · rw [exec_vaultRelease_awake who v ha, vaultRelease_eq _ hb ht, BitVec.toNat_setWidth]
  · refine ⟨_, ?_, vaultMount_keeps s⟩
    rw [exec_vaultMountEnd, execVaultMountEnd, hmt, hm]
    rfl
  · simp [exec_vaultMountEnd, execVaultMountEnd, hm]

end Laws
end Sys2Proof
end

section
/-!
O48: port C on the bus, its owner's registers, and the VIO banks.
-/
namespace Sys2Proof
namespace Laws
open Machine

variable {s : State} {f : CanFrame} {own : Bool} {sub : BitVec 10} {who : Who} {v : BitVec 16} {tec rxe : BitVec 8} {n : BitVec 4}

/-- A command that settles the Mortar after a change takes the state to that change. -/
theorem does_of_emit {i : Instr} {ps : List (BitVec 8)} {u : State} (h : exec i s = .next (emit ps u)) : Does i s u :=
  ⟨_, h, emit_settled ps u⟩

/-! ### States of port C (R401 to R403) -/

theorem leaveBus_eq (p : PortC) : p.leaveBus =
    { p with fsm := if p.fsm = .busOff then .busOff else .integrating, job := p.job.map fun j => { j with sending := false } } := by
  simp [PortC.leaveBus, PortC.loseBus]

theorem getLsbD_seven (x : BitVec 8) : x.getLsbD 7 = decide (128 ≤ x.toNat) := by
  rw [show x.getLsbD 7 = x.msb from (BitVec.msb_eq_getLsbD_last x).symm, BitVec.msb_eq_decide]

/-- Error-passive from a counter of 128 on. -/
theorem canState_eq (tec rxe : BitVec 8) : canState tec rxe = if 128 ≤ tec.toNat ∨ 128 ≤ rxe.toNat then .passive else .active := by
  simp only [canState, getLsbD_seven, Bool.or_eq_true, decide_eq_true_eq]

/-! ### Frames (R402, R404) -/

theorem exec_canFrameAccept (f : CanFrame) (own : Bool) (sub : BitVec 10) (s : State) :
    exec (.canFrameAccept f own sub) s = execCanFrameAccept f own sub s := rfl

theorem exec_canFrameAccept_taken (hb : pcOnBus s = true) (hf : f.fdf = false ∨ pcFd s = true) :
    exec (.canFrameAccept f false sub) s = .next { s.atSub sub with pc := { s.pc with
      job := s.pc.job.map fun j => { j with sending := false }, rxcnt := satInc s.pc.rxcnt
      rxlost := if 4 ≤ s.pc.rxq.length then satInc s.pc.rxlost else s.pc.rxlost
      rxq := if 4 ≤ s.pc.rxq.length then s.pc.rxq else s.pc.rxq ++ [{ f with tick := s.crs.tick, us := sub }] } } := by
  have hg : (false || !pcOnBus (s.atSub sub) || (f.fdf && !pcFd (s.atSub sub))) = false := by
    change (false || !pcOnBus s || (f.fdf && !pcFd s)) = false
    rcases hf with hf | hf <;> simp [hb, hf]
  rw [exec_canFrameAccept, execCanFrameAccept]
  dsimp only
  rw [hg]
  by_cases h4 : 4 ≤ s.pc.rxq.length <;> simp [h4, PortC.loseBus, State.atSub]

theorem exec_canFrameAccept_other (h : own = true ∨ pcOnBus s = false ∨ (f.fdf = true ∧ pcFd s = false)) :
    exec (.canFrameAccept f own sub) s = .next (s.atSub sub) := by
  refine congrArg Host.Outcome.next (if_pos ?_)
  change (own || !pcOnBus s || (f.fdf && !pcFd s)) = true
  rcases h with h | h | ⟨h1, h2⟩
  · simp [h]
  · simp [h]
  · simp [h1, h2]

theorem does_canFdfIgnore (hb : pcOnBus s = true) (hf : pcFd s = false) :
    Does .canFdfIgnore s { s with pc := { s.pc.leaveBus with fdign := satInc s.pc.fdign } } :=
  does_of_emit (congrArg Host.Outcome.next (if_pos (by simp [hb, hf])))

/-! ### Integration, errors and bus-off (R401, R403, R408) -/

theorem does_canBusIntegration (hu : pcUp s = true) (hr : s.pc.refBad = false) (hi : s.pc.fsm = .integrating) :
    Does .canBusIntegration s { s with pc.fsm := canState s.pc.tec s.pc.rxe } :=
  does_of_emit (congrArg Host.Outcome.next (if_pos (by simp [hu, hr, hi])))

theorem does_canBusError (hb : pcOnBus s = true) (hl : pcListens s = false) :
    Does (.canBusError tec rxe false) s { s with pc := { s.pc.leaveBus with fsm := canState tec rxe, tec := tec, rxe := rxe } } ∧
    Does (.canBusError tec rxe true) s { s with pc := { s.pc.leaveBus with
      fsm := .busOff, tec := tec, rxe := rxe, recovering := false, boffcnt := satInc s.pc.boffcnt } } :=
  have hg : (pcOnBus s && !pcListens s) = true := by simp [hb, hl]
  ⟨does_of_emit (congrArg Host.Outcome.next (if_pos hg)), does_of_emit (congrArg Host.Outcome.next (if_pos hg))⟩

theorem exec_canBusError_off {b : Bool} (h : pcListens s = true ∨ pcOnBus s = false) : exec (.canBusError tec rxe b) s = .next s :=
  congrArg Host.Outcome.next (if_neg (by rcases h with h | h <;> simp [h]))

theorem does_canBusOffRecoveryEnd (hu : pcUp s = true) (hr : s.pc.refBad = false) (hb : s.pc.fsm = .busOff)
    (hh : s.pc.recovering = true ∨ s.pc.cfg.getLsbD 5 = false) :
    Does .canBusOffRecoveryEnd s { s with pc := { s.pc with fsm := .active, recovering := false, tec := 0, rxe := 0 } } :=
  have hg : (s.pc.recovering || !s.pc.cfg.getLsbD 5) = true := by
    rcases hh with hh | hh <;> rw [hh]
    · rfl
    · exact Bool.or_true _
  does_of_emit (congrArg Host.Outcome.next (if_pos (by rw [hg, hu, hr, hb]; rfl)))

theorem exec_canBusOffRecoveryEnd_held (hr : s.pc.recovering = false) (hh : s.pc.cfg.getLsbD 5 = true) :
    exec .canBusOffRecoveryEnd s = .next s :=
  congrArg Host.Outcome.next (if_neg (by simp [hr, hh]))

/-! ### The reference and the banks (R403, R414, R550) -/

theorem does_btrefLoss (hp : s.powered = true) (he : pcExt s = true) : Does .btrefLoss s { s with pc := { s.pc.leaveBus with refBad := true } } :=
  does_of_emit (congrArg Host.Outcome.next (if_pos (by simp [hp, he])))

theorem exec_btrefLoss_int (he : pcExt s = false) : exec .btrefLoss s = .next s := congrArg Host.Outcome.next (if_neg (by simp [he]))

theorem exec_btrefRecover_up (hp : s.powered = true) (hv : s.pin.vioOk.getLsbD 0 = true) :
    exec .btrefRecover s = .next { s with pc.refBad := false } := congrArg Host.Outcome.next (if_pos (by simp [hp, hv]))

/-- The loss of VIOA takes port C off the bus; that of the others does not. -/
theorem does_vioLoss (s : State) :
    Does (.vioLoss .a) s { s with pin.vioOk := setBit s.pin.vioOk 0 false, pc := { s.pc.leaveBus with refBad := s.pc.refBad || pcExt s } } ∧
    Does (.vioLoss .b) s { s with pin.vioOk := setBit s.pin.vioOk 1 false } ∧ Does (.vioLoss .c) s { s with pin.vioOk := setBit s.pin.vioOk 2 false } :=
  ⟨does_of_emit rfl, does_of_emit rfl, does_of_emit rfl⟩

theorem does_vioReturn (s : State) :
    Does (.vioReturn .a) s { s with pin.vioOk := setBit s.pin.vioOk 0 true } ∧ Does (.vioReturn .b) s { s with pin.vioOk := setBit s.pin.vioOk 1 true } ∧
    Does (.vioReturn .c) s { s with pin.vioOk := setBit s.pin.vioOk 2 true } :=
  ⟨does_of_emit rfl, does_of_emit rfl, does_of_emit rfl⟩

/-! ### The owner's registers (R227, R401, R405, R406, R408) -/

theorem pcOwned_by_owner {g : State → State} (ha : s.awake = true) (ho : pcOwner s = some (s.actsAs who)) : pcOwned who g s = g s :=
  if_pos (by simp [ha, ho])

theorem pcOwned_by_other {g : State → State} (ho : pcOwner s ≠ some (s.actsAs who)) : pcOwned who g s = s :=
  if_neg (by simp [ho])

/-- ARMED and DISARM are not both written: nothing is left open. -/
theorem pcSlotPut_eq {k : Fin 16} (h : v.getLsbD 8 = false ∨ v.getLsbD 9 = false) :
    pcSlotPut k v s = { s with pc.rs := s.pc.rs.set k { off := v.setWidth 7, keep := v.getLsbD 10
                                                        armed := ((s.pc.rs.get k).armed || v.getLsbD 8) && !v.getLsbD 9 } } := by
  have hb : (v.getLsbD 8 && v.getLsbD 9) = false := Bool.and_eq_false_iff.mpr h
  simp only [pcSlotPut, hb, Bool.false_eq_true, if_false]

theorem exec_canListenWrite (s : State) : exec (.canListenWrite who v) s =
    .next (pcOwned who (fun s => { s with pc := pcModePut v s.pc }) s) := rfl

theorem exec_canBusOffRecover (s : State) : exec (.canBusOffRecover who v) s =
    .next (pcOwned who (fun s => { s with pc := pcModePut v s.pc }) s) := rfl

theorem exec_canInConsume (s : State) : exec (.canInConsume who v) s =
    .next (pcOwned who (fun s => { s with pc := pcReadPut v s.pc }) s) := rfl

theorem exec_canReplySlotArm (s : State) : exec (.canReplySlotArm who n v) s = .next (pcOwned who (pcSlotPut n.toFin v) s) := rfl

theorem exec_canReplySlotDisarm (s : State) : exec (.canReplySlotDisarm who n v) s = .next (pcOwned who (pcSlotPut n.toFin v) s) := rfl

/-- Settles O48: each command of the bus has one condition; `leaveBus_eq`, `canState_eq` and `pcOwned_by_owner` say the rest. -/
theorem portCFollowsTheBus : Obligations.PortCFollowsTheBus := by
  unfold Obligations.PortCFollowsTheBus
  intro s f own b sub who v tec rxe n s1 p left onBus
  have hleft : left = PortC.leaveBus := funext fun p => (leaveBus_eq p).symm
  clear_value left
  subst hleft
  refine ⟨exec_canFrameAccept_taken, exec_canFrameAccept_other, does_canFdfIgnore, fun hu hr hi => ?_, fun hb hl => ?_,
    exec_canBusError_off, does_canBusOffRecoveryEnd, fun _ => exec_canBusOffRecoveryEnd_held, does_btrefLoss, exec_btrefLoss_int,
    exec_btrefRecover_up, (does_vioLoss s).1, (does_vioLoss s).2.1, (does_vioLoss s).2.2, (does_vioReturn s).1, (does_vioReturn s).2.1,
    (does_vioReturn s).2.2, fun ha ho => ⟨?_, ?_, ?_, fun hv => ⟨?_, ?_⟩⟩, fun ho => ⟨?_, ?_, ?_⟩⟩
  · rw [← canState_eq]
    exact does_canBusIntegration hu hr hi
  · rw [← canState_eq]
    exact does_canBusError hb hl
  · rw [exec_canListenWrite, pcOwned_by_owner ha ho]
    rfl
  · rw [exec_canBusOffRecover, pcOwned_by_owner ha ho]
    rfl
  · rw [exec_canInConsume, pcOwned_by_owner ha ho]
    rfl
  · rw [exec_canReplySlotArm, pcOwned_by_owner ha ho, pcSlotPut_eq hv]
  · rw [exec_canReplySlotDisarm, pcOwned_by_owner ha ho, pcSlotPut_eq hv]
  · rw [exec_canListenWrite, pcOwned_by_other ho]
  · rw [exec_canInConsume, pcOwned_by_other ho]
  · rw [exec_canReplySlotArm, pcOwned_by_other ho]

end Laws
end Sys2Proof
end

section
/-!
O51: the sentinel's scans, and touch decisions under debouncing.
-/
namespace Sys2Proof
namespace Laws
open Machine

variable {s : State} {raw : List (BitVec 16)} {noise : BitVec 12} {c : SentinelCfg} {now : Nat} {x : SentSensor} {th d : Int}

/-! ### A scan is due (R451) -/

theorem sentinelOn_iff (s : State) : sentinelOn s = true ↔
    s.powered = true ∧ 3 ≤ s.tch.cfg.sent.sensors.length ∧ s.tch.cfg.sent.sensors.length ≤ 5 := by
  simp [sentinelOn, and_assoc]

theorem exec_sentinelScanDue_on (h : sentinelOn s = true) (hr : s.sent.running = false) :
    exec .sentinelScanDue s = .next (sentinelGo { s with sent.due := true }) :=
  congrArg Host.Outcome.next (if_pos (by simp [h, hr]))

theorem exec_sentinelScanDue_off (h : s.powered = false ∨ s.tch.cfg.sent.sensors.length < 3 ∨ s.sent.running = true) :
    exec .sentinelScanDue s = .next s := by
  refine congrArg Host.Outcome.next (if_neg ?_)
  rw [Bool.and_eq_true, sentinelOn_iff]
  rintro ⟨⟨hp, h3, -⟩, hr⟩
  rcases h with h | h | h
  · simp [h] at hp
  · omega
  · simp [h] at hr

/-! ### What becomes of a scan without a touch (R452 to R454) -/

theorem sentTrack_keeps (b supp : Bool) (th : Int) (x : SentSensor) (r : Int) :
    (sentTrack b supp th x r).touched = x.touched ∧ (sentTrack b supp th x r).qualified = x.qualified := by
  unfold sentTrack
  cases b <;> dsimp only [Bool.false_eq_true, if_false, if_true]
  all_goals repeat' split
  all_goals exact ⟨rfl, rfl⟩

/-- No tap completes without a new touch of the key. -/
theorem tapStep_noKey (c : SentinelCfg) (now : Nat) (down others : Bool) (t : TapSt) : (tapStep c now false down others t).2 = false := by
  unfold tapStep
  simp only [Bool.false_and, Bool.false_eq_true, if_false]
  repeat' split
  all_goals rfl

/-- No swipe completes without a new touch. -/
theorem swipeStep_none (c : SentinelCfg) (now : Nat) (l : List Nat) (t : Nat) : (swipeStep c now [] l t).2.2 = none := by
  unfold swipeStep
  split <;> rfl

/-- A delta below 7/8 of a threshold that is not negative is below it. -/
theorem not_touched (hth : 0 ≤ th) (h : 8 * d < 7 * th) : (decide (d ≥ th) || (x.touched && decide (8 * d ≥ 7 * th))) = false := by
  have h1 : ¬ d ≥ th := by omega
  have h2 : ¬ 8 * d ≥ 7 * th := by omega
  simp [h1, h2]

/-- A sensor as the scan finds it: one that has not been scanned has no baseline. -/
def scannedSensor (s : State) (i : Nat) : SentSensor :=
  s.sent.sensors.getD i { baseA := none, baseB := none, negA := 0, touched := false, qualified := false }

/-- Every sensor is below 7/8 of STH in this scan. -/
def QuietScan (raw : List (BitVec 16)) (s : State) : Prop :=
  ∀ i, i < s.tch.cfg.sent.sensors.length →
    8 * sentDelta s.sent.useB (scannedSensor s i) ((raw.getD i 0).toNat : Int) < 7 * (s.tch.cfg.sent.sth.toNat : Int)

theorem exec_sentinelScanEnd (raw : List (BitVec 16)) (noise : BitVec 12) (s : State) :
    exec (.sentinelScanEnd raw noise) s = execSentinelScanEnd raw noise s := rfl

theorem exec_scanEnd_noisy (hr : s.sent.running = true) (hn : s.tch.cfg.chgTh.toNat < noise.toNat) :
    exec (.sentinelScanEnd raw noise) s =
      .next { s with sent := { s.sent with running := false, snoise := satInc s.sent.snoise, useB := !s.sent.useB } } := by
  simp only [exec_sentinelScanEnd, execSentinelScanEnd, hr, if_true]
  rw [if_pos hn]

theorem exec_scanEnd_quiet (hr : s.sent.running = true) (hn : noise.toNat ≤ s.tch.cfg.chgTh.toNat) (hp : 1 ≤ s.tch.cfg.sent.spalmN.toNat)
    (hq : QuietScan raw s) :
    ∃ t, exec (.sentinelScanEnd raw noise) s = .next t ∧ t = { s with sent := t.sent } ∧ t.sent.running = false ∧ t.sent.supp = false ∧
      t.sent.sensors.length = s.tch.cfg.sent.sensors.length ∧ (∀ e ∈ t.sent.sensors, e.touched = false ∧ e.qualified = false) ∧
      t.sent.gest = s.sent.gest ∧ t.sent.new = s.sent.new ∧ t.sent.sdrop = s.sent.sdrop ∧ t.sent.snoise = s.sent.snoise ∧
      t.sent.miss = s.sent.miss + 1 ∧ t.sent.burst = (s.sent.burst && decide (s.sent.miss + 1 < 64)) := by
  rw [exec_sentinelScanEnd, execSentinelScanEnd, if_pos hr]
  extract_lets q0 s1 c q1 th b xs rs ds touched n supp nb drops qual was newly key now anyQ others xs' miss
  rw [if_neg (show ¬ noise.toNat > s1.tch.cfg.chgTh.toNat from Nat.not_lt.mpr hn)]
  have htouched : ∀ t ∈ touched, t = false := by
    simp only [touched, ds, rs, xs, List.zip_map', List.map_map, List.mem_map]
    rintro t ⟨a, ha, rfl⟩
    exact not_touched (Int.natCast_nonneg _) (hq a.2 (List.snd_lt_of_mem_zipIdx ha))
  have hdrops : ∀ e ∈ drops, e = false := by
    simp only [drops, List.mem_map]
    rintro e ⟨⟨a, t⟩, ha, rfl⟩
    simp [htouched t (List.of_mem_zip ha).2]
  have hqual : ∀ q ∈ qual, q = false := by
    simp only [qual, List.mem_map]
    rintro q ⟨⟨t, d⟩, ha, rfl⟩
    simp [htouched t (List.of_mem_zip ha).1]
  have hnone : n = 0 := by
    rw [List.length_eq_zero_iff, List.filter_eq_nil_iff]
    exact fun t ht => by simp [htouched t ht]
  have hsupp : supp = false := by
    simp [supp, hnone]
    exact Nat.pos_iff_ne_zero.mp hp
  have hnewly : newly = [] := by
    rw [List.filterMap_eq_nil_iff]
    rintro ⟨⟨q, w⟩, i⟩ ha
    simp [hqual q (List.of_mem_zip (List.fst_mem_of_mem_zipIdx ha)).1]
  have hany : anyQ = false := List.any_eq_false.mpr fun q h => by simp [hqual q h]
  have hdrop : drops.any id = false := List.any_eq_false.mpr fun q h => by simp [hdrops q h]
  have hkey : newly.contains key = false := by rw [hnewly]; rfl
  have hlen : xs'.length = c.sensors.length := by simp [xs', qual, drops, touched, ds, rs, xs]
  have hsens : ∀ e ∈ xs', e.touched = false ∧ e.qualified = false := by
    simp only [xs', List.mem_map]
    rintro e ⟨⟨⟨x, r⟩, t, q⟩, ha, rfl⟩
    obtain ⟨ht, hq⟩ := List.of_mem_zip (List.of_mem_zip ha).2
    obtain ⟨h1, h2⟩ := sentTrack_keeps b supp th { x with touched := t, qualified := q } r
    exact ⟨h1.trans (htouched t ht), h2.trans (hqual q hq)⟩
  have htap := tapStep_noKey c now (touched.getD key false) others (if supp then .none else s1.sent.tap)
  have hswipe := swipeStep_none c now (if supp then [] else s1.sent.swipe) s1.sent.swipeT
  rw [hkey, hnewly]
  generalize tapStep c now false (touched.getD key false) others (if supp then .none else s1.sent.tap) = tap' at htap ⊢
  generalize swipeStep c now [] (if supp then [] else s1.sent.swipe) s1.sent.swipeT = swipe' at hswipe ⊢
  obtain ⟨tap, tapped⟩ := tap'
  obtain ⟨sw, swT, swiped⟩ := swipe'
  obtain rfl : tapped = false := htap
  obtain rfl : swiped = none := hswipe
  refine ⟨_, rfl, rfl, rfl, hsupp, hlen, hsens, rfl, rfl, ?_, rfl, ?_, ?_⟩
  · exact if_neg (by simp [hdrop])
  · exact if_neg (by simp [hany])
  · show (anyQ || (s.sent.burst && decide (miss < 64))) = _
    rw [hany, Bool.false_or, show miss = s.sent.miss + 1 from if_neg (by simp [hany])]

theorem exec_scanEnd_idle (hr : s.sent.running = false) : exec (.sentinelScanEnd raw noise) s = .next s :=
  congrArg Host.Outcome.next (if_neg (by simp [hr]))

/-! ### Debouncing (R440) -/

theorem decideTouch_touched_low {deb : Nat} {drop : Bool} {r : Reading} (ht : r.touched = true) (hd : 8 * r.delta < 7 * th) :
    (decideTouch deb th drop now r).1 = if r.off + 1 ≥ deb then { r with touched := false, on := 0, off := 0 } else { r with off := r.off + 1 } := by
  rw [decideTouch, if_pos ht, if_pos hd]
  split <;> rfl

theorem decideTouch_free_high {deb : Nat} {r : Reading} (ht : r.touched = false) (hd : th ≤ r.delta) :
    (decideTouch deb th false now r).1 =
      if r.on + 1 ≥ deb then { r with touched := true, on := 0, off := 0, since := now } else { r with on := r.on + 1 } := by
  have hg : (decide (r.delta ≥ th) && !false) = true := by simp [hd]
  rw [decideTouch, if_neg (by simp [ht]), if_pos hg]
  split <;> rfl

theorem decideTouch_drop {deb : Nat} {r : Reading} (ht : r.touched = false) : (decideTouch deb th true now r).1 = { r with on := 0 } := by
  rw [decideTouch, if_neg (by simp [ht]), if_neg (by simp)]

/-- Settles O51: in a scan below 7/8 of STH no sensor is touched (`not_touched`), so nothing else comes of it (`exec_scanEnd_quiet`);
a decision takes the third frame in a row. -/
theorem sentinelScansQualifyTouches : Obligations.SentinelScansQualifyTouches := by
  unfold Obligations.SentinelScansQualifyTouches
  intro s raw noise c old
  refine ⟨fun hp h3 h5 hr => ?_, exec_sentinelScanDue_off, exec_scanEnd_noisy, exec_scanEnd_quiet, exec_scanEnd_idle,
    fun r d th now hd => ?_⟩
  · rw [exec_sentinelScanDue_on ((sentinelOn_iff s).mpr ⟨hp, h3, h5⟩) hr]
    constructor <;> intro ht <;> simp [sentinelGo, ht]
  · subst hd
    refine ⟨fun ht hl ho => ?_, fun ht hl ho => ?_, fun ht hl ho => ?_, fun ht hl ho => ?_, fun ht _ => decideTouch_drop ht⟩
    · rw [decideTouch_touched_low ht hl, if_pos (by omega)]
    · rw [decideTouch_touched_low ht hl, if_neg (by omega)]
    · rw [decideTouch_free_high ht hl, if_pos (by omega)]
    · rw [decideTouch_free_high ht hl, if_neg (by omega)]

end Laws
end Sys2Proof
end

section
/-!
O53: frames of the Pane, their lines, their ends with the derate steps, and regulation.
-/
namespace Sys2Proof
namespace Laws
open Machine

variable {s : State} {p : Pane} {f : PaneFrame} {n : BitVec 2} {k : Nat}

/-! ### A frame starts (R466) -/

/-- A frame may start, leave apart. -/
def frameReady (s : State) : Bool := s.pane.due && s.crs.winPane && !s.pane.freeze && s.pane.frame.isNone && paneDraws s.pane

theorem exec_paneFrameStart_ready (h : frameReady s = true) : exec .paneFrameStart s = .next (match s.pane.leave with
    | .none => { s.ask 2 .pane with pane.leave := .asked }
    | .granted => { s with pane := { s.pane with
        due := false, leave := .none, negNext := !s.pane.negNext, oorFrame := s.pane.oor
        frame := some { clear := s.pane.st != .lit, negative := s.pane.negNext, line := 0 } } }
    | _ => s) :=
  congrArg Host.Outcome.next (if_pos h)

theorem exec_paneFrameStart_not (h : frameReady s = false) : exec .paneFrameStart s = .next s :=
  congrArg Host.Outcome.next (if_neg (Bool.not_eq_true _ ▸ h))

theorem frameReady_false (h : s.pane.due = false ∨ s.crs.winPane = false ∨ s.pane.freeze = true ∨ s.pane.frame ≠ none ∨ paneDraws s.pane = false) :
    frameReady s = false := by
  rcases h with h | h | h | h | h <;> simp [frameReady, h]

/-! ### Its lines (R461, R464) -/

theorem exec_paneLineStart (s : State) : exec .paneLineStart s = execPaneLineStart s := rfl

theorem exec_paneLineStart_row (hf : s.pane.frame = some f) (hm : s.pane.cfg.mode = .matrix) (hl : f.line < s.pane.cfg.rows.toNat) :
    exec .paneLineStart s = .next { s with pane := { s.pane with
      frame := some { f with line := f.line + 1 }
      rowWords := [paneWord s.pane (4 * f.line), paneWord s.pane (4 * f.line + 1), paneWord s.pane (4 * f.line + 2), paneWord s.pane (4 * f.line + 3)] } } := by
  simp [exec_paneLineStart, execPaneLineStart, hf, paneLines, hm, hl, List.range_succ]

/-- The negative phase of a common reads no words. -/
theorem exec_paneLineStart_phase (hf : s.pane.frame = some f) (hm : s.pane.cfg.mode = .segment) (hl : f.line < 2 * s.pane.cfg.coms.toNat)
    (h1 : f.line % 2 = 1) : exec .paneLineStart s = .next { s with pane := { s.pane with frame := some { f with line := f.line + 1 } } } := by
  simp [exec_paneLineStart, execPaneLineStart, hf, paneLines, hm, hl, h1]

theorem exec_paneLineStart_over (hf : s.pane.frame = some f) (hl : paneLines s.pane.cfg ≤ f.line) : exec .paneLineStart s = .next s := by
  simp [exec_paneLineStart, execPaneLineStart, hf, Nat.not_lt.mpr hl]

theorem exec_paneLineStart_none (hf : s.pane.frame = none) : exec .paneLineStart s = .next s := by
  simp [exec_paneLineStart, execPaneLineStart, hf]

/-! ### Derate steps (R482) -/

/-- The code of a sink after a frame's end. -/
def deratedCode (p : Pane) (k : Nat) (e : BitVec 8) : BitVec 8 :=
  if p.cfg.derate.getLsbD k = true ∧ p.oorFrame.getLsbD k = true ∧ e ≠ 0 then e - 1 else e

theorem vat_eq_get {α : Type} {m : Nat} (d : α) (v : Vector α m) (i : Fin m) : vat d v i = v.get i := by
  simp [vat, Vector.get]

/-- A derate step concerns the codes alone. -/
theorem derate_keeps (p : Pane) (k : Nat) : ∃ a b, derate p k = { p with lsEff := a, lsMin := b } := by
  unfold derate
  split <;> exact ⟨_, _, rfl⟩

theorem get_set! {α : Type} {m : Nat} (v : Vector α m) (i : Fin m) (e : α) : (v.set! i e).get i = e := by
  simp [Vector.get_eq_getElem, Vector.set!_eq_setIfInBounds]

theorem get_set!_other {α : Type} {m k : Nat} {i : Fin m} (v : Vector α m) (e : α) (h : i.val ≠ k) : (v.set! k e).get i = v.get i := by
  simp [Vector.get_eq_getElem, Vector.set!_eq_setIfInBounds, h.symm]

theorem derate_get (p : Pane) (k : Nat) (i : Fin 4) :
    (derate p k).lsEff.get i = if i.val = k then deratedCode p k (p.lsEff.get i) else p.lsEff.get i := by
  unfold derate deratedCode
  by_cases hg : (p.cfg.derate.getLsbD k && p.oorFrame.getLsbD k) = true
  · obtain ⟨hd, ho⟩ := Bool.and_eq_true_iff.mp hg
    rw [if_pos hg]
    split
    · next hi =>
      subst hi
      simp only [vat_eq_get, get_set!, hd, ho, true_and]
      by_cases he : p.lsEff.get i = 0 <;> simp [he]
    · next hi => exact get_set!_other _ _ hi
  · have hn : ∀ e : BitVec 8, ¬ (p.cfg.derate.getLsbD k = true ∧ p.oorFrame.getLsbD k = true ∧ e ≠ 0) :=
      fun e ⟨hd, ho, _⟩ => hg (Bool.and_eq_true_iff.mpr ⟨hd, ho⟩)
    rw [if_neg hg, if_neg (hn _), ite_self]

theorem deratedCode_derate (p : Pane) (j k : Nat) (e : BitVec 8) : deratedCode (derate p j) k e = deratedCode p k e := by
  obtain ⟨a, b, h⟩ := derate_keeps p j
  rw [h]
  rfl

/-- The derate steps of all four sinks. -/
def derateAll (p : Pane) : Pane := derate (derate (derate (derate p 0) 1) 2) 3

theorem derateAll_keeps (p : Pane) : ∃ a b, derateAll p = { p with lsEff := a, lsMin := b } := by
  obtain ⟨a0, b0, h0⟩ := derate_keeps p 0
  obtain ⟨a1, b1, h1⟩ := derate_keeps (derate p 0) 1
  obtain ⟨a2, b2, h2⟩ := derate_keeps (derate (derate p 0) 1) 2
  obtain ⟨a3, b3, h3⟩ := derate_keeps (derate (derate (derate p 0) 1) 2) 3
  exact ⟨a3, b3, by rw [derateAll, h3, h2, h1, h0]⟩

theorem derateAll_get (p : Pane) (i : Fin 4) : (derateAll p).lsEff.get i = deratedCode p i (p.lsEff.get i) := by
  simp only [derateAll, derate_get, deratedCode_derate]
  obtain h | h | h | h : i.val = 0 ∨ i.val = 1 ∨ i.val = 2 ∨ i.val = 3 := by omega
  all_goals simp [h]

/-- Without a sink out of regulation no code changes. -/
theorem derate_none (h : p.oorFrame = 0) (k : Nat) : derate p k = p := if_neg (by simp [h])

theorem derateAll_none (h : p.oorFrame = 0) : derateAll p = p := by
  rw [derateAll, derate_none h, derate_none h, derate_none h, derate_none h]

/-! ### A frame ends (R466, R467, R482) -/

theorem exec_paneFrameEnd (s : State) : exec .paneFrameEnd s = execPaneFrameEnd s := rfl

/-- The state after the last line of frame f. -/
def frameOver (f : PaneFrame) (s : State) : State :=
  { s with pane := paneAdvance f.clear { derateAll s.pane with frame := none, frm := (derateAll s.pane).frm + 1, oorFrame := 0 } }.fin 2 .pane

theorem exec_paneFrameEnd_over (hf : s.pane.frame = some f) (hl : paneLines s.pane.cfg ≤ f.line) :
    exec .paneFrameEnd s = .next (frameOver f s) := by
  simp only [exec_paneFrameEnd, execPaneFrameEnd, hf]
  exact congrArg Host.Outcome.next (if_pos hl)

theorem exec_paneFrameEnd_early (hf : s.pane.frame = some f) (hl : f.line < paneLines s.pane.cfg) : exec .paneFrameEnd s = .next s := by
  simp only [exec_paneFrameEnd, execPaneFrameEnd, hf]
  exact congrArg Host.Outcome.next (if_neg (Nat.not_le.mpr hl))

theorem exec_paneFrameEnd_none (hf : s.pane.frame = none) : exec .paneFrameEnd s = .next s := by
  simp [exec_paneFrameEnd, execPaneFrameEnd, hf]

/-- Outside the clear frames of CLEAR and DOWN a frame's end leaves the state of the Pane. -/
theorem paneAdvance_keeps {b : Bool} (h : b = false ∨ (p.st ≠ .clear ∧ p.st ≠ .down)) : paneAdvance b p = p := by
  unfold paneAdvance
  rcases h with h | ⟨h1, h2⟩
  · simp [h]
  · cases b
    · rfl
    · split <;> simp_all

/-- The second clear frame of CLEAR leads to LIT. -/
theorem paneAdvance_clear (h : p.st = .clear) : paneAdvance true p =
    { p with clrDone := if p.clrDone = 0 then 1 else 2, st := if p.clrDone = 0 then .clear else .lit } := by
  simp only [paneAdvance, h, Bool.not_true, Bool.false_eq_true, if_false]
  by_cases h0 : p.clrDone = 0
  · rw [if_neg (by simp [h0]), if_pos h0, if_pos h0, h0, ← h]
    rfl
  · have h1 : 1 ≤ p.clrDone.toNat := Nat.one_le_iff_ne_zero.mpr fun e => h0 (BitVec.eq_of_toNat_eq e)
    rw [if_pos (show p.clrDone.toNat + 1 ≥ 2 by omega), if_neg h0, if_neg h0]

/-! ### Regulation (R468, R481) -/

theorem exec_outOfRegulation (h : s.pane.st = .lit) (hd : s.pane.dark = false) : exec (.ledSinkOutOfRegulation n) s =
    .next { s with pane := { s.pane with
      oor := setBit s.pane.oor n.toNat true, headroom := setBit s.pane.headroom n.toNat true
      oorFrame := if s.pane.frame.isSome then setBit s.pane.oorFrame n.toNat true else s.pane.oorFrame } } :=
  congrArg Host.Outcome.next (if_pos (by simp [h, hd]))

theorem exec_outOfRegulation_dark (h : s.pane.st ≠ .lit ∨ s.pane.dark = true) : exec (.ledSinkOutOfRegulation n) s = .next s :=
  congrArg Host.Outcome.next (if_neg (by rcases h with h | h <;> simp [h]))

/-- Settles O53: `exec_paneFrameStart_ready` starts a frame, `frameOver` ends it, with `paneAdvance_clear` and `derateAll_get`. -/
theorem paneFramesAreDrawnUnderLeave : Obligations.PaneFramesAreDrawnUnderLeave := by
  unfold Obligations.PaneFramesAreDrawnUnderLeave
  intro s n p
  refine ⟨fun hd hw hz hf hdr => ?_, fun h => exec_paneFrameStart_not (frameReady_false h), fun f hf => ?_,
    fun hf => ⟨exec_paneLineStart_none hf, exec_paneFrameEnd_none hf⟩, exec_outOfRegulation, exec_outOfRegulation_dark, rfl⟩
  · have hr : frameReady s = true := by
      simp only [p] at hd hz hf hdr
      simp [frameReady, hd, hw, hz, hf, hdr]
    rw [exec_paneFrameStart_ready hr]
    exact ⟨fun h => by rw [h]; rfl, fun h => by rw [h], fun h => by rw [h]⟩
  · refine ⟨exec_paneLineStart_row hf, exec_paneLineStart_phase hf, exec_paneLineStart_over hf, exec_paneFrameEnd_early hf,
      fun hl ho => ?_, fun hl hc => ?_⟩
    · rw [exec_paneFrameEnd_over hf hl, frameOver, derateAll_none ho]
      refine ⟨fun h => ?_, fun hc hst => ?_⟩
      · rw [paneAdvance_keeps (by exact h)]
        rfl
      · rw [hc, paneAdvance_clear (by exact hst)]
        rfl
    · obtain ⟨a, b, hk⟩ := derateAll_keeps s.pane
      have hget := derateAll_get s.pane n.toFin
      refine ⟨_, exec_paneFrameEnd_over hf hl, ?_⟩
      rw [frameOver, hc, paneAdvance_keeps (.inl rfl)]
      rw [hk] at hget ⊢
      exact ⟨rfl, rfl, rfl, hget⟩

end Laws
end Sys2Proof
end

section
/-!
O58: instants, landed samples, thresholds, SILL_CTL and the captures of the Sill.
-/
namespace Sys2Proof
namespace Laws
open Machine

variable {s : State} {x : Sill} {b : SillBurst} {who : Who} {sub : BitVec 10} {v w : Word} {clip : Option Bool}

/-! ### Instants (R488, R490, R494) -/

/-- Instants are taken in this state (R494). -/
def InstantsTaken (s : State) : Prop := s.awake = true ∧ s.sill.cfg.per ≠ 0 ∧ s.sill.run = true

theorem instantsTaken_iff (s : State) : (s.awake && s.sill.instants) = true ↔ InstantsTaken s := by
  simp [InstantsTaken, Sill.instants, Sill.present]

theorem exec_sampleInstant_taken (h : InstantsTaken s) : exec (.sillSampleInstant sub) s = .next
    (if s.sill.burst.isSome then { s.atSub sub with sill := sillMiss s.sill } else { s.atSub sub with sill := sillStart s.crs.tick sub s.sill }) :=
  congrArg Host.Outcome.next (if_pos ((instantsTaken_iff s).mpr h))

theorem exec_sampleInstant_not (h : ¬ InstantsTaken s) : exec (.sillSampleInstant sub) s = .next (s.atSub sub) :=
  congrArg Host.Outcome.next (if_neg fun hc => h ((instantsTaken_iff s).mp hc))

theorem auxFrom_nil (n : Nat) : auxFrom [] n = none := rfl

/-- A burst of a shunt sample alone, with the range of autoranging. -/
theorem sillStart_shunt (tick : BitVec 48) (hs : x.cfg.shOn = true) (ha : x.cfg.aux = []) (hauto : x.auto = true) :
    sillStart tick sub x = { x with
      burst := some { range := x.range, seq := x.seq, settle := x.settle || x.resume, resume := x.resume, shunt := true, aux := none, temp := x.tempDue }
      tempDue := false, seq := x.seq + 1, resume := false, settle := false, rseq := if x.resume then x.seq else x.rseq
      rtick := if x.resume then tick.setWidth 32 else x.rtick, rsub := if x.resume then sub else x.rsub } := by
  simp only [sillStart, hauto, hs, ha, auxFrom_nil, if_true]
  cases x.resume <;> rfl

/-! ### The queue and the range (R493, R495, R496) -/

theorem shPush_room {code tag : Word} (h : x.queue.length < 64) : shPush code tag x = { x with queue := x.queue ++ [(code, tag)] } :=
  if_neg (Nat.not_le.mpr h)

theorem shPush_full {code tag : Word} (h : 64 ≤ x.queue.length) : shPush code tag x = { x with lost := satInc x.lost, ovf := true } :=
  if_pos h

/-- A push concerns the queue and what counts its losses. -/
theorem shPush_keeps (code tag : Word) (x : Sill) : ∃ q l o, shPush code tag x = { x with queue := q, lost := l, ovf := o } := by
  unfold shPush
  split <;> exact ⟨_, _, _, rfl⟩

theorem bitAt_false (n : Nat) : bitAt 16 n false = 0#16 := rfl

theorem shTag_miss (r : BitVec 3) (q : BitVec 32) :
    shTag r false false true false q = fieldAt 16 0 r ||| bitAt 16 5 true ||| fieldAt 16 7 (q.setWidth 9) := by
  simp only [shTag, bitAt_false, BitVec.or_zero]

theorem shTag_sample (r : BitVec 3) (st c re : Bool) (q : BitVec 32) :
    shTag r st c false re q = fieldAt 16 0 r ||| bitAt 16 3 st ||| bitAt 16 4 c ||| bitAt 16 6 re ||| fieldAt 16 7 (q.setWidth 9) := by
  simp only [shTag, bitAt_false, BitVec.or_zero]

/-- Autoranging concerns the range, its run of low samples, SETTLE and the count of switches. -/
theorem autorange_keeps (m c st : Bool) (code : Int) (x : Sill) :
    ∃ l r e n, autorange m c st code x = { x with low := l, range := r, settle := e, swcnt := n } := by
  unfold autorange
  repeat' split
  all_goals exact ⟨_, _, _, _, rfl⟩

theorem autorange_miss (code : Int) (x : Sill) : ∃ l, autorange true false false code x = { x with low := l } := by
  simp only [autorange]
  split
  · exact ⟨_, rfl⟩
  · exact ⟨_, if_pos trivial⟩

theorem autorange_clip {st : Bool} {code : Int} (ha : x.auto = true) (h : x.range.toNat < x.cfg.rmax.toNat) :
    autorange false true st code x = { x with low := 0, range := x.cfg.rmax, settle := true, swcnt := satInc x.swcnt } := by
  simp [autorange, ha, h]

/-- The eighth low sample in a row takes the range down. -/
theorem autorange_eighth {code : Int} (ha : x.auto = true) (hc : code.natAbs < 4096) (hl : x.low = 7) (h : x.cfg.rmin.toNat < x.range.toNat) :
    autorange false false false code x = { x with low := 0, range := x.range - 1, settle := true, swcnt := satInc x.swcnt } := by
  simp [autorange, ha, hc, hl, h]

theorem autorange_low {code : Int} (ha : x.auto = true) (hc : code.natAbs < 4096) (hl : x.low ≠ 7) :
    autorange false false false code x = { x with low := x.low + 1 } := by
  simp [autorange, ha, hc, hl]

theorem autorange_high {st : Bool} {code : Int} (ha : x.auto = true) (hc : 4096 ≤ code.natAbs) :
    autorange false false st code x = { x with low := 0 } := by
  simp [autorange, ha, Nat.not_lt.mpr hc]

theorem sillMiss_shunt (hs : x.cfg.shOn = true) :
    ∃ l, sillMiss x = { shPush 0 (shTag x.range false false true false x.seq) x with
      misscnt := satInc x.misscnt, miss := true, seq := x.seq + 1, low := l } := by
  unfold sillMiss
  dsimp only
  rw [if_pos hs]
  obtain ⟨l, hl⟩ := autorange_miss 0 { shPush 0 (shTag x.range false false true false x.seq) { x with misscnt := satInc x.misscnt, miss := true } with seq := x.seq + 1 }
  refine ⟨l, hl.trans ?_⟩
  unfold shPush
  dsimp only
  split <;> rfl

/-! ### Thresholds (R501, R502) -/

theorem get_vgen {α : Type} {n : Nat} (f : Nat → α) (i : Fin n) : (vgen n f).get i = f i := by
  simp [vgen, Vector.get_eq_getElem]

theorem thrAll_get (ch : BitVec 4) (sg cl : Bool) (f : ThrCfg → SampleRange) (x : Sill) (i : Fin 8) :
    (thrAll ch sg cl f x).thr.get i =
      if (x.cfg.thr.get i).ch = some ch then thrStep (x.cfg.thr.get i) sg cl (f (x.cfg.thr.get i)) (x.thr.get i) else x.thr.get i := by
  simp only [thrAll, get_vgen, vat_eq_get]

/-- A sample of a channel that no threshold names changes none. -/
theorem thrAll_none {ch : BitVec 4} {sg cl : Bool} {f : ThrCfg → SampleRange} (h : ∀ i : Fin 8, (x.cfg.thr.get i).ch ≠ some ch) :
    thrAll ch sg cl f x = x := by
  have ht : (thrAll ch sg cl f x).thr = x.thr := by
    ext i hi
    exact (thrAll_get ch sg cl f x ⟨i, hi⟩).trans (if_neg (h _))
  calc thrAll ch sg cl f x = { x with thr := (thrAll ch sg cl f x).thr } := rfl
    _ = x := by rw [ht]

/-- A code in its own range. -/
theorem shScale_same (v : Word) (r : Nat) : shScale v.toInt r r = { inf := v.toInt, sup := v.toInt, den := 1 } := by
  have h1 : -32768 ≤ v.toInt := BitVec.le_toInt v
  have h2 : v.toInt < 32768 := BitVec.toInt_lt
  have hc : clampInt (-32768) 32767 v.toInt = v.toInt := by
    rw [clampInt, if_neg (by omega), if_neg (by omega)]
  simp [shScale, hc]

theorem thrStep_beyond {c : ThrCfg} {t : Thr} {z : Int} (ha : c.above = true) (h : c.level.toInt ≤ z) :
    thrStep c true false { inf := z, sup := z, den := 1 } t =
      { t with back := 0, beyond := t.beyond + 1, on := t.on || decide (c.count.toNat ≤ t.beyond) } := by
  simp [thrStep, thrBeyond, ha, h]

theorem thrStep_back {c : ThrCfg} {t : Thr} {z : Int} (ha : c.above = true) (h : z < c.level.toInt - c.hyst.toNat) :
    thrStep c true false { inf := z, sup := z, den := 1 } t =
      { t with beyond := 0, back := t.back + 1, on := t.on && decide (t.back < c.count.toNat) } := by
  have h1 : ¬ c.level.toInt ≤ z := by omega
  simp [thrStep, thrBeyond, thrBack, ha, h, h1]

/-! ### A shunt sample lands (R491 to R496) -/

/-- The mean of one conversion is its code. -/
theorem roundMean_single (z : Int) : roundMean [z] = z := by simp [roundMean]

/-- The code a sample of one conversion gives. -/
def landedCode (v : Word) : Option Bool → Word
  | some true => 0x7FFF
  | some false => 0x8000
  | none => v

/-- Its value as a signed number. -/
def landedValue (v : Word) : Option Bool → Int
  | some true => 32767
  | some false => -32768
  | none => v.toInt

/-- The Sill once the sample is queued. -/
def queued (b : SillBurst) (v : Word) (clip : Option Bool) (x : Sill) : Sill :=
  shPush (landedCode v clip) (shTag b.range b.settle clip.isSome false b.resume b.seq) { x with burst := none, lastRange := b.range }

/-- Once its range is chosen too. -/
def ranged (b : SillBurst) (v : Word) (clip : Option Bool) (x : Sill) : Sill :=
  autorange false clip.isSome b.settle (landedValue v clip) (queued b v clip x)

/-- The values it stands for in the terms of threshold c. -/
def landedRange (b : SillBurst) (v : Word) (clip : Option Bool) (c : ThrCfg) : SampleRange :=
  let r := shScale (landedValue v clip) b.range.toNat c.trange.toNat
  if clip.isSome then shClipRange r (clip.getD true) else r

theorem shLand_single (b : SillBurst) (v : Word) (clip : Option Bool) (x : Sill) :
    shLand b [v] clip false { x with burst := none } = thrAll 0xF true clip.isSome (landedRange b v clip) (ranged b v clip x) := by
  unfold ranged queued shLand landedRange
  rcases clip with _ | ⟨_ | _⟩
  · simp only [landedCode, landedValue, Option.isSome_none, Bool.or_false, Bool.false_eq_true, if_false, List.map_cons,
      List.map_nil, roundMean_single, BitVec.ofInt_toInt]
  · simp only [landedCode, landedValue, Bool.or_false]
    rfl
  · simp only [landedCode, landedValue, Bool.or_false]
    rfl

/-- What a landed sample leaves as it was: all but the queue, the range and the thresholds. -/
theorem ranged_keeps (b : SillBurst) (v : Word) (clip : Option Bool) (x : Sill) :
    ∃ q l o lw r e n, ranged b v clip x = { x with
      burst := none, lastRange := b.range, queue := q, lost := l, ovf := o, low := lw, range := r, settle := e, swcnt := n } := by
  unfold ranged queued
  obtain ⟨q, l, o, hq⟩ := shPush_keeps (landedCode v clip) (shTag b.range b.settle clip.isSome false b.resume b.seq)
    { x with burst := none, lastRange := b.range }
  rw [hq]
  obtain ⟨lw, r, e, n, hr⟩ := autorange_keeps false clip.isSome b.settle (landedValue v clip)
    { x with burst := none, lastRange := b.range, queue := q, lost := l, ovf := o }
  exact ⟨q, l, o, lw, r, e, n, hr⟩

theorem ranged_queue (b : SillBurst) (v : Word) (clip : Option Bool) (x : Sill) :
    (ranged b v clip x).queue = (queued b v clip x).queue ∧ (ranged b v clip x).ovf = (queued b v clip x).ovf := by
  obtain ⟨lw, r, e, n, hr⟩ := autorange_keeps false clip.isSome b.settle (landedValue v clip) (queued b v clip x)
  rw [ranged, hr]
  exact ⟨rfl, rfl⟩

theorem queued_room (h : x.queue.length < 64) :
    (queued b v clip x).queue = x.queue ++ [(landedCode v clip, shTag b.range b.settle clip.isSome false b.resume b.seq)] := by
  rw [queued, shPush_room (by exact h)]

theorem queued_full (h : 64 ≤ x.queue.length) : (queued b v clip x).queue = x.queue ∧ (queued b v clip x).ovf = true := by
  rw [queued, shPush_full (by exact h)]
  exact ⟨rfl, rfl⟩

/-- Queueing leaves what autoranging looks at. -/
theorem queued_keeps (b : SillBurst) (v : Word) (clip : Option Bool) (x : Sill) :
    (queued b v clip x).auto = x.auto ∧ (queued b v clip x).cfg = x.cfg ∧ (queued b v clip x).range = x.range ∧
      (queued b v clip x).low = x.low ∧ (queued b v clip x).swcnt = x.swcnt := by
  obtain ⟨q, l, o, hq⟩ := shPush_keeps (landedCode v clip) (shTag b.range b.settle clip.isSome false b.resume b.seq)
    { x with burst := none, lastRange := b.range }
  rw [queued, hq]
  exact ⟨rfl, rfl, rfl, rfl, rfl⟩

/-! #### The next range (R496) -/

theorem ranged_clip (ha : x.auto = true) (hc : clip.isSome = true) (hr : x.range.toNat < x.cfg.rmax.toNat) :
    let y := ranged b v clip x
    y.range = x.cfg.rmax ∧ y.settle = true ∧ y.swcnt = satInc x.swcnt ∧ y.low = 0 := by
  obtain ⟨ka, kc, kr, -, ks⟩ := queued_keeps b v clip x
  rw [ranged, hc, autorange_clip (by rw [ka, ha]) (by rw [kr, kc]; exact hr)]
  exact ⟨congrArg SillCfg.rmax kc, rfl, congrArg satInc ks, rfl⟩

theorem ranged_eighth (ha : x.auto = true) (hs : b.settle = false) (hv : v.toInt.natAbs < 4096) (hl : x.low = 7)
    (hr : x.cfg.rmin.toNat < x.range.toNat) :
    let y := ranged b v none x
    y.range = x.range - 1 ∧ y.settle = true ∧ y.low = 0 := by
  obtain ⟨ka, kc, kr, kl, -⟩ := queued_keeps b v none x
  rw [ranged, hs, Option.isSome_none, autorange_eighth (by rw [ka, ha]) (by exact hv) (by rw [kl, hl]) (by rw [kr, kc]; exact hr)]
  exact ⟨congrArg (· - 1) kr, rfl, rfl⟩

theorem ranged_low (ha : x.auto = true) (hs : b.settle = false) (hv : v.toInt.natAbs < 4096) (hl : x.low ≠ 7) :
    let y := ranged b v none x
    y.range = x.range ∧ y.low = x.low + 1 := by
  obtain ⟨ka, -, kr, kl, -⟩ := queued_keeps b v none x
  rw [ranged, hs, Option.isSome_none, autorange_low (by rw [ka, ha]) (by exact hv) (by rw [kl]; exact hl)]
  exact ⟨kr, congrArg (· + 1) kl⟩

theorem ranged_high (ha : x.auto = true) (hv : 4096 ≤ v.toInt.natAbs) :
    let y := ranged b v none x
    y.range = x.range ∧ y.low = 0 := by
  obtain ⟨ka, -, kr, -, -⟩ := queued_keeps b v none x
  rw [ranged, Option.isSome_none, autorange_high (by rw [ka, ha]) (by exact hv)]
  exact ⟨kr, rfl⟩

/-! #### The burst lands -/

/-- The Sill after a burst of one shunt conversion. -/
def landed (b : SillBurst) (v : Word) (clip : Option Bool) (x : Sill) : Sill :=
  thrAll 0xF true clip.isSome (landedRange b v clip) (ranged b v clip x)

theorem landed_run (hr : x.run = true) : (landed b v clip x).run = true := by
  obtain ⟨q, l, o, lw, r, e, n, h⟩ := ranged_keeps b v clip x
  show (ranged b v clip x).run = true
  rw [h]
  exact hr

theorem exec_sillBurstLand (sh : List Word) (clip : Option Bool) (cm : Bool) (aux : List Word) (t : Option Word) (s : State) :
    exec (.sillBurstLand sh clip cm aux t) s = execSillBurstLand sh clip cm aux t s := rfl

theorem exec_burstLand_none (hb : s.sill.burst = none) : exec (.sillBurstLand [v] none false [] none) s = .next s := by
  simp [exec_sillBurstLand, execSillBurstLand, hb]

theorem does_burstLand_shunt (ha : s.awake = true) (hb : s.sill.burst = some b) (hs : b.shunt = true) (hx : b.aux = none)
    (ht : b.temp = false) (hr : s.sill.run = true) :
    Does (.sillBurstLand [v] clip false [] none) s { s with sill := landed b v clip s.sill } := by
  refine does_of_emit (ps := []) ?_
  rw [exec_sillBurstLand, execSillBurstLand, hb]
  simp only [mainOn_of_awake ha, hs, hx, ht, if_true, Bool.false_eq_true, if_false, shLand_single]
  rw [← landed, landed_run hr]
  rfl

theorem landed_thr (i : Fin 8) (hc : (x.cfg.thr.get i).ch = some 0xF) (ht : (x.cfg.thr.get i).trange = b.range) :
    (landed b v none x).thr.get i =
      thrStep (x.cfg.thr.get i) true false { inf := v.toInt, sup := v.toInt, den := 1 } (x.thr.get i) := by
  obtain ⟨q, l, o, lw, r, e, n, h⟩ := ranged_keeps b v none x
  have hs : landedRange b v none (x.cfg.thr.get i) = { inf := v.toInt, sup := v.toInt, den := 1 } := by
    simp only [landedRange, landedValue, ht]
    exact shScale_same v _
  rw [landed, thrAll_get, h]
  dsimp only
  rw [if_pos hc, hs]
  rfl

/-! ### TEMP alone (R500) -/

theorem does_sillTempLand (ha : s.awake = true) (ht : s.sill.tempDue = true) (hr : s.sill.run = false)
    (h : ∀ i : Fin 8, (s.sill.cfg.thr.get i).ch ≠ some 9) :
    Does (.sillTempLand v) s { s with sill := { s.sill with tempDue := false, temp := v, tempValid := true } } := by
  have hg : (s.mainOn && s.sill.tempDue && !s.sill.instants) = true := by
    simp [mainOn_of_awake ha, ht, Sill.instants, hr]
  have hl : tempLand v { s.sill with tempDue := false } = { s.sill with tempDue := false, temp := v, tempValid := true } :=
    thrAll_none h
  rw [← hl]
  exact does_of_emit (congrArg Host.Outcome.next (if_pos hg))

theorem exec_sillTempLand_not (h : s.sill.tempDue = false) : exec (.sillTempLand v) s = .next s :=
  congrArg Host.Outcome.next (if_neg (by simp [h]))

/-! ### SILL_CTL and the captures (R494, R495, R498, R499, R504) -/

theorem does_sillCtlWrite (h : sillOwner s = some (s.actsAs who)) : Does (.sillCtlWrite who v) s { s with sill := sillCtl v s.sill } :=
  does_of_emit (congrArg Host.Outcome.next (if_pos h))

theorem exec_sillCtlWrite_other (h : sillOwner s ≠ some (s.actsAs who)) : exec (.sillCtlWrite who v) s = .next s :=
  congrArg Host.Outcome.next (if_neg h)

theorem sillOwner_a (h : s.sill.cfg.owner = 1) : sillOwner s = some .a := if_pos h

theorem sillOwner_none (h : s.sill.cfg.owner = 0) : sillOwner s = none := by
  rw [sillOwner, h]
  rfl

theorem sillCtl_run (h : v.getLsbD 0 = true) : (sillCtl v x).thr = x.thr := by
  unfold sillCtl
  dsimp only
  rw [if_pos h]

theorem sillCtl_stop (h : v.getLsbD 0 = false) (i : Fin 8) : ((sillCtl v x).thr.get i).on = false := by
  unfold sillCtl
  dsimp only
  rw [if_neg (by rw [h]; exact Bool.false_ne_true)]
  simp [thrClear, Vector.get_eq_getElem]

theorem sillCtl_eq (v : Word) (x : Sill) : ∃ t, sillCtl v x = { x with
    run := v.getLsbD 0, auto := v.getLsbD 1, rangeCtl := (v >>> 2).setWidth 3, thr := t
    settle := x.settle || v.getLsbD 1 != x.auto || (v >>> 2).setWidth 3 != x.rangeCtl
    resume := x.resume || (v.getLsbD 0 != x.run) } := by
  unfold sillCtl
  dsimp only
  split <;> exact ⟨_, rfl⟩

theorem exec_sillShuntPop (s : State) : exec .sillShuntPop s = execSillShuntPop s := rfl

theorem set!_eq_set {α : Type} {m : Nat} (v : Vector α m) (i : Fin m) (e : α) : v.set! i e = v.set i e := by
  ext k hk
  simp [Vector.set!_eq_setIfInBounds, Vector.getElem_setIfInBounds, Vector.getElem_set]

theorem exec_sillAuxCapture (n : BitVec 3) (s : State) : exec (.sillAuxCapture n) s = .next { s with
    out := .word (s.sill.aux.get n.toFin)
    sill.auxT := s.sill.auxT.set n.toFin (fieldAt 16 0 (s.sill.cfg.aux.getD n.toNat 0) ||| fieldAt 16 4 (s.sill.auxCnt.get n.toFin)) } := by
  have ha : vat 0 s.sill.aux n.toNat = s.sill.aux.get n.toFin := vat_eq_get 0 s.sill.aux n.toFin
  have hc : vat 0 s.sill.auxCnt n.toNat = s.sill.auxCnt.get n.toFin := vat_eq_get 0 s.sill.auxCnt n.toFin
  show Host.Outcome.next (State.reply { s with sill := auxCapture n.toNat s.sill } (.word (vat 0 s.sill.aux n.toNat))) = _
  have hset : ∀ w, s.sill.auxT.set! n.toNat w = s.sill.auxT.set n.toFin w := fun w => set!_eq_set s.sill.auxT n.toFin w
  rw [ha, auxCapture, hc, hset]
  rfl

/-! ### The obligation -/

/-- Settles O58: `sillStart_shunt` and `sillMiss_shunt` are the instants, `landed` the landed sample, whose range, queue entry and
thresholds have a lemma per case. -/
theorem sillSamplesQueueAndRange : Obligations.SillSamplesQueueAndRange := by
  unfold Obligations.SillSamplesQueueAndRange
  intro s who sub v hi n x s1 on tag
  refine ⟨fun hon hb hs hx ha => ?_, fun hon hb hs => ?_, exec_sampleInstant_not, fun b clip haw hb hsh hx ht hr ha hrg => ?_,
    exec_burstLand_none, does_sillTempLand, exec_sillTempLand_not, ?_, fun ho hw => ?_, fun ho hw => ?_, fun ho => ?_,
    exec_sillAuxCapture n s, ?_, ?_⟩
  · rw [exec_sampleInstant_taken hon, if_neg (by simp only [x] at hb; simp [hb]), sillStart_shunt _ hs hx ha]
    rfl
  · obtain ⟨l, hl⟩ := sillMiss_shunt hs
    obtain ⟨q, lo, ov, hp⟩ := shPush_keeps 0 (shTag x.range false false true false x.seq) x
    refine ⟨_, exec_sampleInstant_taken hon, ?_⟩
    rw [if_pos hb, hl]
    refine ⟨rfl, rfl, rfl, rfl, by rw [hp], by rw [hp], by rw [hp], fun h => ?_, fun h => ?_⟩
    · rw [shPush_room h, shTag_miss]
    · rw [shPush_full h]
      exact ⟨rfl, rfl, rfl⟩
  · have hcode : (match clip with | some true => 0x7FFF | some false => 0x8000 | none => v) = landedCode v clip := by
      rcases clip with _ | ⟨_ | _⟩ <;> rfl
    intro code
    obtain ⟨q, l, o, lw, r, e, m, hk⟩ := ranged_keeps b v clip s.sill
    obtain ⟨hq, hov⟩ := ranged_queue b v clip s.sill
    have hkept : (landed b v clip x).burst = none ∧ (landed b v clip x).lastRange = b.range ∧ (landed b v clip x).seq = x.seq := by
      rw [landed, hk]
      exact ⟨rfl, rfl, rfl⟩
    obtain ⟨hburst, hlast, hseq⟩ := hkept
    refine ⟨_, does_burstLand_shunt haw hb hsh hx ht hr, rfl, hburst, hlast, hseq, fun h => ?_, fun h => ?_,
      fun hc h => ranged_clip ha hc h, fun hc hs hv hl h => ?_, fun hc hs hv hl => ?_, fun hc hv => ?_, fun i hch hab htr hc => ?_⟩
    · have hqueue := hq.trans (queued_room h)
      rw [← hcode, shTag_sample] at hqueue
      exact hqueue
    · exact ⟨hq.trans (queued_full h).1, hov.trans (queued_full h).2⟩
    · subst hc
      exact ranged_eighth ha hs hv hl h
    · subst hc
      exact ranged_low ha hs hv hl
    · subst hc
      exact ranged_high ha hv
    · subst hc
      have hthr := landed_thr (v := v) i hch htr
      refine ⟨fun h => ?_, fun h => ?_⟩
      · simp only [hthr, thrStep_beyond hab h, x, and_self]
      · simp only [hthr, thrStep_back hab h, x, and_self]
  · rw [exec_sillShuntPop, execSillShuntPop, shPop]
    cases hq : s.sill.queue <;> simp only [x, hq] <;> rfl
  · obtain ⟨t, ht⟩ := sillCtl_eq v s.sill
    refine ⟨_, does_sillCtlWrite ((sillOwner_a ho).trans (congrArg some hw.symm)), ?_, ?_, ?_, sillCtl_run, sillCtl_stop⟩
    · rw [ht]
    · rw [ht]
      simp [x]
    · rw [ht]
      simp [x, or_assoc]
  · exact exec_sillCtlWrite_other (by rw [sillOwner_a ho, hw]; decide)
  · exact exec_sillCtlWrite_other (by rw [sillOwner_none ho]; exact nofun)
  · cases hi <;> rfl
  · cases hi <;> rfl

end Laws
end Sys2Proof
end

section
/-!
O59: OTP words and the version floor, the engines' jobs, the random source and the fetch counts.
-/
namespace Sys2Proof
namespace Laws
open Machine

variable {s : State} {x : Sec} {c : CoreId} {who : Who} {v w : Word} {j : JobSet} {i o off n : Nat}

/-! ### OTP words (R520) -/

theorem otpProgram_keeps (x : Sec) (off : Nat) (w : Word) : ∃ l, otpProgram x off w = { x with otp := l } := by
  unfold otpProgram
  split <;> exact ⟨_, rfl⟩

/-- A word that is not programmed takes its value; no other changes. -/
theorem otpWord_program (h : otpWord x off = none) : otpWord (otpProgram x off w) o = if o = off then some w else otpWord x o := by
  rw [otpProgram, h]
  simp only [Option.isSome_none, Bool.false_eq_true, if_false]
  rw [otpWord, List.find?_append]
  by_cases ho : o = off
  · subst ho
    have hf : x.otp.find? (fun e => e.1 == o) = none := by simpa [otpWord] using h
    simp [hf]
  · have hne : (off == o) = false := beq_false_of_ne (Ne.symm ho)
    simp [otpWord, ho, hne]

/-- In a field without a programmed word every word is unprogrammed. -/
theorem otpWord_none (h : otpAny x off n = false) (h1 : off ≤ o) (h2 : o < off + n) : otpWord x o = none := by
  rw [otpWord, Option.map_eq_none_iff, List.find?_eq_none]
  intro e he heq
  have heq : e.1 = o := by simpa using heq
  have := List.any_eq_false.mp h e he
  simp [heq, h1, h2] at this

theorem otpAny_of_word (h : otpWord x o = some w) (h1 : off ≤ o) (h2 : o < off + n) : otpAny x off n = true := by
  rw [← Bool.not_eq_false]
  intro hn
  rw [otpWord_none hn h1 h2] at h
  cases h

/-! ### The version floor (R524) -/

theorem exec_floorRaise (who : Who) (v : Word) (s : State) : exec (.floorRaise who v) s = .next (floorCmd v s) := rfl

theorem floorCmd_ignored (h : v ≠ 0xF1A3 ∨ s.sec.flrBusy.isSome = true) : floorCmd v s = s := if_pos h

theorem floorCmd_same (hb : s.sec.flrBusy = none) (h : s.img.secVer.toNat ≤ (verFloor s.sec).toNat) :
    floorCmd 0xF1A3 s = { s with sec.flr := 2 } := by
  rw [floorCmd, if_neg (by simp [hb]), if_pos h]

theorem floorCmd_takes (hb : s.sec.flrBusy = none) (h : (verFloor s.sec).toNat < s.img.secVer.toNat) (hf : floorFree s.sec = some i) :
    floorCmd 0xF1A3 s = { s with sec.flrBusy := some (i, s.img.secVer) } := by
  rw [floorCmd, if_neg (by simp [hb]), if_neg (Nat.not_le.mpr h), hf]

theorem floorCmd_full (hb : s.sec.flrBusy = none) (h : (verFloor s.sec).toNat < s.img.secVer.toNat) (hf : floorFree s.sec = none) :
    floorCmd 0xF1A3 s = { s with sec.flr := 3 } := by
  rw [floorCmd, if_neg (by simp [hb]), if_neg (Nat.not_le.mpr h), hf]

theorem floorFree_none (h : ∀ i < 16, (floorEntry x i).isSome = true) : floorFree x = none :=
  List.find?_range_eq_none.mpr fun i hi => by simp [h i hi]

theorem floorFree_some (hi : i < 16) (hn : floorEntry x i = none) (h : ∀ k < i, (floorEntry x k).isSome = true) : floorFree x = some i :=
  List.find?_range_eq_some.mpr ⟨by simp [hn], List.mem_range.mpr hi, fun k hk => by simp [h k hk]⟩

/-- The four bytes of two words of a field. -/
theorem ofLe_words (f : BitVec 32) :
    ofLe [loB (f.setWidth 16), hiB (f.setWidth 16), loB ((f >>> 16).setWidth 16), hiB ((f >>> 16).setWidth 16)] = f.toNat := by
  simp only [ofLe, loB, hiB, BitVec.toNat_setWidth, BitVec.toNat_ushiftRight, Nat.shiftRight_eq_div_pow]
  have := f.isLt
  omega

/-- An entry whose two words are programmed. -/
theorem floorEntry_words {f : BitVec 32} (h0 : otpWord x (0x080 + 4 * i) = some (f.setWidth 16))
    (h1 : otpWord x (0x082 + 4 * i) = some ((f >>> 16).setWidth 16)) : floorEntry x i = some f := by
  have h1' : otpWord x (0x080 + 4 * i + 2) = some ((f >>> 16).setWidth 16) := by
    rw [show 0x080 + 4 * i + 2 = 0x082 + 4 * i by omega]
    exact h1
  have hf : otpField x (0x080 + 4 * i) 4 =
      [loB (f.setWidth 16), hiB (f.setWidth 16), loB ((f >>> 16).setWidth 16), hiB ((f >>> 16).setWidth 16)] := by
    simp [otpField, List.range_succ, h0, h1']
  rw [floorEntry, if_pos (otpAny_of_word h0 (Nat.le_refl _) (by omega)), hf, ofLe_words, BitVec.ofNat_toNat, BitVec.setWidth_eq]

theorem exec_floorProgramEnd (s : State) : exec .floorProgramEnd s = execFloorProgramEnd s := rfl

theorem exec_floorProgramEnd_idle (h : s.sec.flrBusy = none) : exec .floorProgramEnd s = .next s := by
  rw [exec_floorProgramEnd, execFloorProgramEnd, h]

theorem exec_floorProgramEnd_busy {f : BitVec 32} (h : s.sec.flrBusy = some (i, f)) (hn : floorEntry s.sec i = none) :
    ∃ t, exec .floorProgramEnd s = .next t ∧ t = { s with sec := t.sec } ∧ t.sec = { s.sec with otp := t.sec.otp, flrBusy := none, flr := 1 } ∧
      floorEntry t.sec i = some f ∧ ∀ o, o ≠ 0x080 + 4 * i → o ≠ 0x082 + 4 * i → otpWord t.sec o = otpWord s.sec o := by
  have hany : otpAny s.sec (0x080 + 4 * i) 4 = false := by
    rw [← Bool.not_eq_true]
    intro ha
    rw [floorEntry, if_pos ha] at hn
    cases hn
  have h0 : otpWord s.sec (0x080 + 4 * i) = none := otpWord_none hany (by omega) (by omega)
  have h2 : otpWord (otpProgram s.sec (0x080 + 4 * i) (f.setWidth 16)) (0x082 + 4 * i) = none := by
    rw [otpWord_program h0, if_neg (by omega)]
    exact otpWord_none hany (by omega) (by omega)
  obtain ⟨l0, e0⟩ := otpProgram_keeps s.sec (0x080 + 4 * i) (f.setWidth 16)
  obtain ⟨l1, e1⟩ := otpProgram_keeps (otpProgram s.sec (0x080 + 4 * i) (f.setWidth 16)) (0x082 + 4 * i) ((f >>> 16).setWidth 16)
  have hword : ∀ o, otpWord { s.sec with otp := l1, flrBusy := none, flr := 1 } o =
      if o = 0x082 + 4 * i then some ((f >>> 16).setWidth 16) else if o = 0x080 + 4 * i then some (f.setWidth 16) else otpWord s.sec o := by
    intro o
    rw [← otpWord_program (w := f.setWidth 16) h0, ← otpWord_program (w := (f >>> 16).setWidth 16) h2, e1]
    rfl
  refine ⟨{ s with sec := { s.sec with otp := l1, flrBusy := none, flr := 1 } }, ?_, rfl, rfl, floorEntry_words ?_ ?_, fun o ho0 ho2 => ?_⟩
  · rw [exec_floorProgramEnd, execFloorProgramEnd, h]
    dsimp only
    rw [e1, e0]
  · rw [hword, if_neg (by omega), if_pos rfl]
  · rw [hword, if_pos rfl]
  · rw [hword, if_neg ho2, if_neg ho0]

theorem exec_otpProgEnd (s : State) : exec .otpProgEnd s = execOtpProgEnd s := rfl

theorem exec_otpProgEnd_busy (h : s.sec.otpBusy = some (o, w)) (hn : otpWord s.sec o = none) :
    ∃ t, exec .otpProgEnd s = .next t ∧ t = { s with sec := { s.sec with otp := t.sec.otp, otpBusy := none } } ∧
      otpWord t.sec o = some w ∧ ∀ p, p ≠ o → otpWord t.sec p = otpWord s.sec p := by
  obtain ⟨l, hl⟩ := otpProgram_keeps s.sec o w
  have hword : ∀ p, otpWord { s.sec with otp := l, otpBusy := none } p = if p = o then some w else otpWord s.sec p := by
    intro p
    rw [← otpWord_program hn, hl]
    rfl
  refine ⟨{ s with sec := { s.sec with otp := l, otpBusy := none } }, ?_, rfl, ?_, fun p hp => ?_⟩
  · rw [exec_otpProgEnd, execOtpProgEnd, h]
    dsimp only
    rw [hl]
  · exact (hword o).trans (if_pos rfl)
  · exact (hword p).trans (if_neg hp)

/-! ### A job starts (R525 to R527) -/

@[simp] theorem setJobs_engine : (x.setJobs c j).engine = x.engine := by cases c <;> rfl
@[simp] theorem setJobs_waiters : (x.setJobs c j).waiters = x.waiters := by cases c <;> rfl

theorem setSt_engUser (st : BitVec 4) : (x.setJobs c j).setSt (engUser c) st = x.setJobs c { j with st := st } := by cases c <;> rfl

theorem exec_cryptoJobStart (c : CoreId) (v : Word) (s : State) : exec (.cryptoJobStart c v) s = .next (cryOpWrite c v s) := rfl

theorem cryOpWrite_noGo (h : v.getLsbD 15 = false) :
    cryOpWrite c v s = { s with sec := s.sec.setJobs c { s.sec.jobs c with op := v.setWidth 3 } } := if_neg (by rw [h]; exact Bool.false_ne_true)

theorem cryOpWrite_go (h : v.getLsbD 15 = true) : cryOpWrite c v s = jobStart c v s := if_pos h

/-- Every buffer of the job lies in the SRAM (R525). -/
def jobFits (op : Nat) (j : JobSet) : Bool :=
  !(jobBuffers op j.src.toNat j.len.toNat j.dst.toNat j.key.toNat).any fun b => decide (b.1 + b.2 > 0xD000)

theorem jobFits_iff (op : Nat) (j : JobSet) :
    jobFits op j = true ↔ ∀ b ∈ jobBuffers op j.src.toNat j.len.toNat j.dst.toNat j.key.toNat, b.1 + b.2 ≤ 0xD000 := by
  simp [jobFits]

/-- The LEN rule, as the table gives it (R525). -/
theorem jobLenOk_iff (op len : Nat) : jobLenOk op len = true ↔
    (op ≤ 1 → len ≤ 4096) ∧ ((op = 2 ∨ op = 3) → 16 ≤ len ∧ len ≤ 4096 ∧ len % 16 = 0) := by
  unfold jobLenOk
  split
  · next h =>
    have : ¬ (op = 2 ∨ op = 3) := by omega
    simp [h, this]
  · next h =>
    split
    · next h3 =>
      have : op = 2 ∨ op = 3 := by omega
      simp [h, this, and_assoc]
    · next h3 =>
      have : ¬ (op = 2 ∨ op = 3) := by omega
      simp [h, this]

/-- A job set whose job waits or runs takes OP alone. -/
theorem jobStart_busy (h : (s.sec.jobs c).st = 1 ∨ (s.sec.jobs c).st = 2) :
    jobStart c v s = { s with sec := s.sec.setJobs c { s.sec.jobs c with op := v.setWidth 3 } } := by
  refine if_pos ?_
  rw [Bool.or_eq_true, decide_eq_true_eq, decide_eq_true_eq]
  exact h

/-- The job's answer once its set is free. -/
theorem jobStart_free (h1 : (s.sec.jobs c).st ≠ 1) (h2 : (s.sec.jobs c).st ≠ 2) :
    let j := { s.sec.jobs c with op := v.setWidth 3 }
    let op := v.toNat % 8
    jobStart c v s =
      if 4 < op then { s with sec := s.sec.setJobs c { j with st := 8 } }
      else if jobFits op j = false ∧ jobLenOk op j.len.toNat = false then
        { s with free := s.free + 1, sec := s.sec.setJobs c { j with st := if Config.freeBit s.free then 6 else 7 } }
      else if jobFits op j = false then { s with sec := s.sec.setJobs c { j with st := 6 } }
      else if jobLenOk op j.len.toNat = false then { s with sec := s.sec.setJobs c { j with st := 7 } }
      else { s with sec := engAsk (engUser c) (s.sec.setJobs c { j with job := some (j.op, j.src, j.len, j.dst, j.key) }) } := by
  have hst : ¬ (decide ((s.sec.jobs c).st = 1) || decide ((s.sec.jobs c).st = 2)) = true := by
    rw [Bool.or_eq_true, decide_eq_true_eq, decide_eq_true_eq]
    exact fun h => h.elim h1 h2
  have hop : (BitVec.setWidth 3 v).toNat = v.toNat % 8 := BitVec.toNat_setWidth 3 v
  rw [jobStart, if_neg hst]
  simp only [hop, jobFits, Bool.and_eq_true, Bool.not_eq_eq_eq_not, Bool.not_true, Bool.not_false]

theorem engAsk_idle_core (h : x.engine = none) :
    engAsk (engUser c) (x.setJobs c j) = { x.setJobs c { j with st := 2 } with engine := some (engUser c) } := by
  simp only [engAsk, setJobs_engine, h, setSt_engUser]

theorem engAsk_busy_core (h : x.engine.isSome = true) :
    engAsk (engUser c) (x.setJobs c j) = { x.setJobs c { j with st := 1 } with waiters := x.waiters ++ [engUser c] } := by
  obtain ⟨u, hu⟩ := Option.isSome_iff_exists.mp h
  simp only [engAsk, setJobs_engine, hu, setSt_engUser, setJobs_waiters]

/-! ### A job ends (R526, R527) -/

theorem exec_cryptoJobEnd (s : State) : exec .cryptoJobEnd s = execCryptoJobEnd s := rfl

theorem exec_cryptoJobEnd_idle (h : s.sec.engine = none) : exec .cryptoJobEnd s = .next s := by
  rw [exec_cryptoJobEnd, execCryptoJobEnd, h]
  simp

/-- The job of core c ends, and the engines are released. -/
theorem exec_cryptoJobEnd_core (ha : s.awake = true) (h : s.sec.engine = some (engUser c)) :
    exec .cryptoJobEnd s = .next { coreJobEnd c s with sec := engDone (coreJobEnd c s).sec } := by
  have hg : ¬ (!s.mainOn) = true := by simp [mainOn_of_awake ha]
  rw [exec_cryptoJobEnd, execCryptoJobEnd, if_neg hg, h]
  cases c <;> rfl

theorem engDone_alone (h : x.waiters = []) : engDone x = { x with engine := none } := by
  have hn : engNext x.waiters = none := by rw [h]; rfl
  simp only [engDone, hn]

theorem jobB_takes (h : x.waiters = [.coreB]) :
    engDone x = { x with jobB := { x.jobB with st := 2 }, engine := some .coreB, waiters := [] } := by
  have hn : engNext [.coreB] = some .coreB := rfl
  simp only [engDone, h, hn]
  rfl

theorem coreJobEnd_none (h : (s.sec.jobs c).job = none) : coreJobEnd c s = s := by rw [coreJobEnd, h]

/-- A core's job with a result for DST: its bytes are stored there, and CRY_ST reads DONE. -/
theorem coreJobEnd_result {op : BitVec 3} {src len dst key : Word} {l kb : List Byte} (he : s.mem.errs = [])
    (hj : (s.sec.jobs c).job = some (op, src, len, dst, key)) (hop : op ≠ 4)
    (hkb : kb = Bytes.readN 0 s.mem.bytes key.toNat (if op = 0 then 0 else if op = 1 then 32 else 16))
    (hr : jobResult op.toNat (Bytes.readN 0 s.mem.bytes src.toNat len.toNat) kb [] = (some l, 3)) :
    coreJobEnd c s = { s with mem.bytes := Bytes.writeL 0 s.mem.bytes dst.toNat l
                              sec := s.sec.setJobs c { s.sec.jobs c with st := 3, job := none } } := by
  have hclean : ∀ a n, CleanRow s a n := fun _ _ => cleanRow_of_no_errs he
  obtain ⟨errs, hs, hw⟩ := sramWriteL_clean (.core c) dst.toNat l s (hclean _ _)
  rw [he, List.subset_nil] at hs
  have hr0 : Bytes.readN 0 s.mem.bytes dst.toNat 0 = [] := rfl
  simp only [coreJobEnd, hj, if_neg hop, sramReadL_clean (hclean _ _), hr0, ← hkb, hr, hw]
  rw [hs, ← he]

theorem jobResult_verify (src key dst : List Byte) : jobResult 4 src key dst = (none,
    if ecdsaVerify (ofLe (key.take 32)) (ofLe (key.drop 32)) (ofLe (dst.take 32)) (ofLe (dst.drop 32)) src then 4 else 5) := by
  simp [jobResult]

/-- A signature check writes nothing: CRY_ST says whether the signature is valid. -/
theorem coreJobEnd_verify {src len dst key : Word} (he : s.mem.errs = [])
    (hj : (s.sec.jobs c).job = some (4, src, len, dst, key)) :
    let rd := fun (a : Word) n => Bytes.readN 0 s.mem.bytes a.toNat n
    coreJobEnd c s = { s with sec := s.sec.setJobs c { s.sec.jobs c with
      st := if ecdsaVerify (ofLe ((rd key 64).take 32)) (ofLe ((rd key 64).drop 32)) (ofLe ((rd dst 64).take 32))
        (ofLe ((rd dst 64).drop 32)) (rd src 32) then 4 else 5
      job := none } } := by
  have hclean : ∀ a n, CleanRow s a n := fun _ _ => cleanRow_of_no_errs he
  have h0 : (4 : BitVec 3) ≠ 0 := by decide
  have h1 : (4 : BitVec 3) ≠ 1 := by decide
  have h4 : (4 : BitVec 3).toNat = 4 := rfl
  simp only [coreJobEnd, hj, if_true, if_neg h0, if_neg h1, sramReadL_clean (hclean _ _), h4, jobResult_verify]

/-- The job set once its job has ended with status st, the engines free. -/
def jobOver (c : CoreId) (st : BitVec 4) (x : Sec) : Sec :=
  { x.setJobs c { x.jobs c with st := st, job := none } with engine := none }

/-- What DST receives of a job 0 to 3. -/
def jobOutput (o : BitVec 3) (src : List Byte) (key : Nat → List Byte) : List Byte :=
  if o = 0 then sha256 src else if o = 1 then hmac (key 32) src
  else if o = 2 then aesEcb aesEnc (key 16) src else aesEcb aesDec (key 16) src

theorem op_cases : ∀ o : BitVec 3, o.toNat < 4 → o = 0 ∨ o = 1 ∨ o = 2 ∨ o = 3 := by decide

theorem jobResult_output {o : BitVec 3} (ho : o.toNat < 4) (src : List Byte) (key : Nat → List Byte) :
    jobResult o.toNat src (key (if o = 0 then 0 else if o = 1 then 32 else 16)) [] = (some (jobOutput o src key), 3) := by
  rcases op_cases o ho with rfl | rfl | rfl | rfl <;> simp [jobResult, jobOutput]

theorem exec_jobEnd_result {o : BitVec 3} {src len dst key : Word} (ha : s.awake = true) (hs : s.mem.sound) (he : s.mem.errs = [])
    (hc : s.sec.engine = some (engUser c)) (hj : (s.sec.jobs c).job = some (o, src, len, dst, key)) (hw : s.sec.waiters = [])
    (ho : o.toNat < 4) :
    let out := jobOutput o (Bytes.readN 0 s.mem.bytes src.toNat len.toNat) (Bytes.readN 0 s.mem.bytes key.toNat)
    ∃ t, exec .cryptoJobEnd s = .next t ∧ t = { s with mem.bytes := t.mem.bytes, sec := jobOver c 3 s.sec } ∧
      ∀ a, Bytes.read 0 t.mem.bytes a =
        if dst.toNat ≤ a ∧ a < dst.toNat + out.length then out.getD (a - dst.toNat) 0 else Bytes.read 0 s.mem.bytes a := by
  intro out
  have h4 : o ≠ 4 := fun h => by simp [h] at ho
  have hend := coreJobEnd_result he hj h4 rfl (jobResult_output ho _ (Bytes.readN 0 s.mem.bytes key.toNat))
  refine ⟨_, exec_cryptoJobEnd_core ha hc, ?_⟩
  rw [hend, engDone_alone (by simp [hw])]
  exact ⟨rfl, fun a => read_writeL hs⟩

theorem exec_jobEnd_verify {src len dst key : Word} (ha : s.awake = true) (he : s.mem.errs = [])
    (hc : s.sec.engine = some (engUser c)) (hj : (s.sec.jobs c).job = some (4, src, len, dst, key)) (hw : s.sec.waiters = []) :
    let rd := fun (a : Word) n => Bytes.readN 0 s.mem.bytes a.toNat n
    exec .cryptoJobEnd s = .next { s with sec := jobOver c (if ecdsaVerify (ofLe ((rd key 64).take 32)) (ofLe ((rd key 64).drop 32))
      (ofLe ((rd dst 64).take 32)) (ofLe ((rd dst 64).drop 32)) (rd src 32) then 4 else 5) s.sec } := by
  intro rd
  rw [exec_cryptoJobEnd_core ha hc, coreJobEnd_verify he hj, engDone_alone (by simp [hw])]
  rfl

/-! ### The random source (R528) -/

theorem rngTake_ready (h : x.rngReady = true) (hh : x.rngHalt = false) : rngTake x = (x.rngHeld, { x with rngReady := false }) :=
  if_pos (by simp [h, hh])

theorem rngTake_none (h : x.rngReady = false ∨ x.rngHalt = true) : rngTake x = (0, x) :=
  if_neg (by rcases h with h | h <;> simp [h])

theorem exec_rngRead (s : State) : exec .rngRead s = .next (({ s with sec := (rngTake s.sec).2 } : State).reply (.word (rngTake s.sec).1)) := rfl

theorem exec_rngRestart (who : Who) (s : State) :
    exec (.rngRestart who) s = .next { s with sec.rngRestart := s.sec.rngRestart || s.sec.rngHalt } := by
  show Host.Outcome.next (rngStatWrite 4 s) = _
  rw [rngStatWrite, show (!(4 : Word).getLsbD 1) = true from rfl, show (4 : Word).getLsbD 2 = true from rfl, Bool.and_true, Bool.true_and]

theorem exec_rngRefillEnd_fresh (ha : s.awake = true) (hr : s.sec.rngReady = false) (h : s.sec.rngHalt = false ∨ s.sec.rngRestart = true) :
    exec (.rngRefillEnd v) s = .next { s with sec := { s.sec with rngReady := true, rngHeld := v, rngHalt := false, rngRestart := false } } :=
  congrArg Host.Outcome.next (if_pos (by rcases h with h | h <;> simp [mainOn_of_awake ha, hr, h]))

theorem exec_rngRefillEnd_not (h : s.sec.rngReady = true ∨ (s.sec.rngHalt = true ∧ s.sec.rngRestart = false)) :
    exec (.rngRefillEnd v) s = .next s :=
  congrArg Host.Outcome.next (if_neg (by rcases h with h | ⟨h, h'⟩ <;> simp [*]))

/-! ### The obligation -/

/-- Settles O59: `otpWord_program` says what a programmed word changes, `jobStart_free` decides a job, `exec_jobEnd_result` and
`exec_jobEnd_verify` end it. -/
theorem enginesFloorRandomAndOtp : Obligations.EnginesFloorRandomAndOtp := by
  unfold Obligations.EnginesFloorRandomAndOtp
  intro s who c v x j op fits lenOk put
  have hfits : jobFits op { j with op := v.setWidth 3 } = true ↔ fits := jobFits_iff op { j with op := v.setWidth 3 }
  have hlen : jobLenOk op j.len.toNat = true ↔ lenOk := jobLenOk_iff op j.len.toNat
  have hfitsOk : fits → jobFits op { j with op := v.setWidth 3 } ≠ false := fun h => by rw [hfits.mpr h]; decide
  have hlenOk : lenOk → jobLenOk op j.len.toNat ≠ false := fun h => by rw [hlen.mpr h]; decide
  have hnofit : ¬ fits → jobFits op { j with op := v.setWidth 3 } = false := fun h => by rw [← Bool.not_eq_true, hfits]; exact h
  have hnolen : ¬ lenOk → jobLenOk op j.len.toNat = false := fun h => by rw [← Bool.not_eq_true, hlen]; exact h
  refine ⟨fun h => by rw [exec_floorRaise, floorCmd_ignored h], fun hv hb => ?_, exec_floorProgramEnd_idle,
    fun i f => exec_floorProgramEnd_busy, fun h => by rw [exec_cryptoJobStart, cryOpWrite_noGo h],
    fun h => ⟨fun hst => by rw [exec_cryptoJobStart, cryOpWrite_go h, jobStart_busy hst], fun h1 h2 => ?_⟩,
    fun o src len dst key ha hs he hc hj hw => ⟨fun ho => exec_jobEnd_result ha hs he hc hj hw ho, fun ho => ?_⟩,
    fun ha hc hj hw => ?_, exec_cryptoJobEnd_idle, fun h hh => ?_, fun h => ?_, rfl, exec_rngRestart who s, exec_rngRefillEnd_fresh,
    exec_rngRefillEnd_not, fun h => ?_, fun o w => exec_otpProgEnd_busy, rfl⟩
  · subst hv
    refine ⟨fun h => by rw [exec_floorRaise, floorCmd_same hb h], fun h => ⟨fun hall => ?_, fun i hi hn hk => ?_⟩⟩
    · rw [exec_floorRaise, floorCmd_full hb h (floorFree_none hall)]
    · rw [exec_floorRaise, floorCmd_takes hb h (floorFree_some hi hn hk)]
  · rw [exec_cryptoJobStart, cryOpWrite_go h, jobStart_free h1 h2]
    refine ⟨fun ho => ?_, fun ho hf hl => ?_, fun ho hf hl => ?_, fun ho hf hl => ?_, fun ho hf hl => ?_⟩
    · rw [if_pos ho]
    · rw [if_neg (Nat.not_lt.mpr ho), if_neg (fun h => hlenOk hl h.2), if_pos (hnofit hf)]
    · rw [if_neg (Nat.not_lt.mpr ho), if_neg (fun h => hfitsOk hf h.1), if_neg (hfitsOk hf), if_pos (hnolen hl)]
    · rw [if_neg (Nat.not_lt.mpr ho), if_pos ⟨hnofit hf, hnolen hl⟩]
      refine ⟨if Config.freeBit s.free then 6 else 7, ?_, rfl⟩
      cases Config.freeBit s.free
      · exact .inr rfl
      · exact .inl rfl
    · rw [if_neg (Nat.not_lt.mpr ho), if_neg (fun h => hfitsOk hf h.1), if_neg (hfitsOk hf), if_neg (hlenOk hl)]
      exact ⟨fun he => by rw [engAsk_idle_core he], fun he => by rw [engAsk_busy_core he]⟩
  · subst ho
    exact exec_jobEnd_verify ha he hc hj hw
  · rw [exec_cryptoJobEnd_core (c := .a) ha hc, coreJobEnd_none (c := .a) hj, jobB_takes hw]
  · rw [exec_rngRead, rngTake_ready h hh]
    rfl
  · rw [exec_rngRead, rngTake_none h]
    rfl
  · rw [exec_otpProgEnd, execOtpProgEnd, h]

end Laws
end Sys2Proof
end

section
/-!
Ports S, Q and U: a command on a port that answers, a port's record, the rows of a mailbox's halves; and O46.
-/
namespace Sys2Proof
namespace Laws
open Machine

variable {s : State} {p : PortId} {k : PortSt} {r : Reply} {b : Byte} {n a : Nat}

/-! ### A port's record (R384) -/

@[simp] theorem putPort_img : (s.putPort p k).img = s.img := by cases p <;> rfl
theorem putPort_reply : (s.reply r).putPort p k = (s.putPort p k).reply r := by cases p <;> rfl

theorem putPort_mem_comm (m : Memory) : ({ s with mem := m } : State).putPort p k = { s.putPort p k with mem := m } := by cases p <;> rfl

/-! ### A command reaches a port (R385, R391) -/

/-- The port answers, and port U discards nothing. -/
def PortAnswers (p : PortId) (s : State) : Prop := portUp p s = true ∧ (p = .u → s.prt.u.discLeft = 0)

theorem onPort_answers {f : State → State} (h : PortAnswers p s) : onPort p n f s = f (s.reply .none) := by
  obtain ⟨hup, hd⟩ := h
  have h1 : ¬ (!portUp p (s.reply .none)) = true := by
    show ¬ (!portUp p s) = true
    simp [hup]
  have h2 : ¬ (p == .u && (s.reply .none).prt.u.discLeft != 0) = true := by
    show ¬ (p == .u && s.prt.u.discLeft != 0) = true
    cases p <;> simp
    exact hd rfl
  rw [onPort, if_neg h1, if_neg h2]

theorem onPort_down {f : State → State} (h : portUp p s = false) : onPort p n f s = { s with out := .none } := by
  refine if_pos ?_
  show (!portUp p s) = true
  simp [h]

theorem exec_portPoll (p : PortId) (s : State) : exec (.portPoll p) s = .next (onPort p 1 (fun s => s.reply (.bytes (wireWord (porchWord p s)))) s) := rfl

theorem exec_portRead (p : PortId) (w : Bool) (s : State) : exec (.portRead p w) s = .next (onPort p 1 (readNow p w) s) := rfl

theorem exec_portStatus (p : PortId) (s : State) : exec (.portStatus p) s = execPortStatus p s := rfl

theorem exec_portUnknownCommand (p : PortId) (b : Byte) (s : State) : exec (.portUnknownCommand p b) s = execPortUnknownCommand p b s := rfl

theorem porchFirst_eq (p : PortId) (s : State) : porchFirst p s = if p = .s then wireWord (porchWord p s) else [] := by
  simp [porchFirst]

/-- What a command that says nothing of its own has sent: port S its porch word (R396). -/
def firstSent (p : PortId) (s : State) : Reply := if p = .s then .bytes (wireWord (porchWord p s)) else .none

/-- Port S sends its porch word beside the command's effect, the others nothing. -/
theorem reply_first (t : State) (ht : t.out = .none) :
    (if p == .s then t.reply (.bytes (porchFirst p s)) else t) = { t with out := firstSent p s } := by
  cases p
  · simp [State.reply, firstSent, porchFirst]
  · simp [firstSent, ← ht]
  · simp [firstSent, ← ht]

theorem exec_portStatus_up (h : PortAnswers p s) : exec (.portStatus p) s =
    .next { s.putPort p { s.prt.get p with errCode := 0, errOp := 0, errTag := 0, errMore := 0, errSet := false } with
      out := .bytes ((if p = .s then wireWord (porchWord p s) else []) ++ (s.prt.get p).record) } := by
  rw [exec_portStatus, execPortStatus, onPort_answers h, ← porchFirst_eq]
  cases p <;> rfl

theorem exec_portUnknownCommand_up (h : PortAnswers p s) (hb : p = .u ∨ b.toNat < 0xA0 ∨ 0xA3 < b.toNat) :
    exec (.portUnknownCommand p b) s = .next { s.putPort p ((s.prt.get p).status 8 b 0) with out := firstSent p s } := by
  have hg : (p == .u || !(decide (0xA0 ≤ b.toNat ∧ b.toNat ≤ 0xA3))) = true := by
    rcases hb with hb | hb | hb
    · simp [hb]
    · simp [Nat.not_le.mpr hb]
    · simp [Nat.not_le.mpr hb]
  rw [exec_portUnknownCommand, execPortUnknownCommand, onPort_answers h]
  dsimp only
  rw [if_pos hg]
  exact congrArg Host.Outcome.next ((reply_first _ (by cases p <;> rfl)).trans (by cases p <;> rfl))

theorem exec_portUFramingError (h : PortAnswers .u s) :
    exec .portUFramingError s = .next { s.putPort .u ((s.prt.get .u).status 9 0 0) with out := .none } :=
  congrArg Host.Outcome.next (onPort_answers h)

/-! ### Rows of a half (R282) -/

/-- No bit error is recorded from the word before a half to its end. -/
def QuietHalf (h : Nat) (s : State) : Prop := ∀ e ∈ s.mem.errs, e.1 + 1 < h ∨ h + 512 ≤ e.1

theorem cleanRow_of_quietHalf {h : Nat} (hq : QuietHalf h s) (ha : h ≤ a) (hn : a + n ≤ h + 512) : CleanRow s a n := by
  intro k hk e he
  have := hq e he
  omega

/-- The header of the message in the out half, and the length it names. -/
def outHead (p : PortId) (s : State) (n : Nat) : Byte := Bytes.read 0 s.mem.bytes (outHalf (portIdx p) + n)

def outLen (p : PortId) (s : State) : Nat := (outHead p s 2).toNat + 256 * (outHead p s 3).toNat

theorem readN_head (p : PortId) (s : State) : Bytes.readN 0 s.mem.bytes (outHalf (portIdx p)) 4 =
    [outHead p s 0, outHead p s 1, outHead p s 2, outHead p s 3] := by
  simp [Bytes.readN, List.range_succ, outHead]

theorem ofLe_head (p : PortId) (s : State) : ofLe ([outHead p s 0, outHead p s 1, outHead p s 2, outHead p s 3].drop 2) = outLen p s := by
  simp [ofLe, outLen]

/-- The bytes a message in the out half is sent as. -/
def outBytes (p : PortId) (s : State) : List Byte :=
  wireMessage (outHead p s 0) (outHead p s 1) ((List.range (min 508 (outLen p s))).map fun n => outHead p s (4 + n))

theorem outMessage_quiet (hq : QuietHalf (outHalf (portIdx p)) s) : outMessage p s = (outBytes p s, s) := by
  have hhead : CleanRow s (outHalf (portIdx p)) 4 := cleanRow_of_quietHalf hq (Nat.le_refl _) (by omega)
  have hbody : CleanRow s (outHalf (portIdx p) + 4) (min 508 (outLen p s)) := cleanRow_of_quietHalf hq (by omega) (by omega)
  have hread : Bytes.readN 0 s.mem.bytes (outHalf (portIdx p) + 4) (min 508 (outLen p s)) =
      (List.range (min 508 (outLen p s))).map fun n => outHead p s (4 + n) := by
    simp only [Bytes.readN, outHead, Nat.add_assoc]
  simp only [outMessage, sramReadL_clean hhead, readN_head, ofLe_head, sramReadL_clean hbody, hread]
  rfl

/-! ### READ (R394) -/

theorem outMsg_none (hp : (s.prt.get p).posted = false) (hs : (s.prt.get p).svc = false) : outMsg p s = false := by
  simp [outMsg, hp, hs]

theorem outMsg_some (hr : portReady s = true) (h : (s.prt.get p).posted = true ∨ (s.prt.get p).svc = true) : outMsg p s = true := by
  rcases h with h | h <;> simp [outMsg, hr, h]

theorem exec_portRead_empty {w : Bool} (h : PortAnswers p s) (hr : portReady s = true) (hp : (s.prt.get p).posted = false)
    (hs : (s.prt.get p).svc = false) :
    exec (.portRead p w) s = .next { s with out := .bytes ((if p = .s then wireWord (porchWord p s) else []) ++ wireMessage 0 0 []) } := by
  have hr' : portReady (s.reply .none) = true := hr
  have ho : outMsg p (s.reply .none) = false := outMsg_none hp hs
  rw [exec_portRead, onPort_answers h, ← porchFirst_eq]
  simp only [readNow, hr', ho, if_true, Bool.false_eq_true, if_false]
  rfl

theorem readNow_message {w : Bool} (hr : portReady s = true) (hm : (s.prt.get p).posted = true ∨ (s.prt.get p).svc = true)
    (hq : QuietHalf (outHalf (portIdx p)) s) :
    readNow p w (s.reply .none) =
      let t : State := { s with out := .bytes (porchFirst p s ++ outBytes p s) }
      if w then outTaken p t else t := by
  have hr' : portReady (s.reply .none) = true := hr
  have ho : outMsg p (s.reply .none) = true := outMsg_some hr hm
  have hq' : QuietHalf (outHalf (portIdx p)) (s.reply .none) := hq
  simp only [readNow, hr', ho, if_true, outMessage_quiet hq']
  rfl

theorem exec_portRead_message (h : PortAnswers p s) (hr : portReady s = true) (hm : (s.prt.get p).posted = true ∨ (s.prt.get p).svc = true)
    (hq : QuietHalf (outHalf (portIdx p)) s) :
    let answer := Reply.bytes ((if p = .s then wireWord (porchWord p s) else []) ++ outBytes p s)
    exec (.portRead p false) s = .next { s with out := answer } ∧
    Does (.portRead p true) s { s.putPort p { s.prt.get p with posted := false, svc := false, txcnt := satInc (s.prt.get p).txcnt } with
      out := answer } := by
  rw [← porchFirst_eq]
  constructor
  · rw [exec_portRead, onPort_answers h, readNow_message hr hm hq]
    rfl
  · refine does_of_emit (ps := [BitVec.ofNat 8 (2 * (portIdx p) + 2)]) ?_
    rw [exec_portRead, onPort_answers h, readNow_message hr hm hq]
    cases p <;> rfl

/-! ### The core's side and the service (R394, R395) -/

theorem exec_mailboxInRelease_awake (ha : s.awake = true) :
    exec (.mailboxInRelease p) s = .next (s.putPort p { s.prt.get p with held := false }) := congrArg Host.Outcome.next (if_pos ha)

theorem exec_mailboxOutPost_awake (ha : s.awake = true) : exec (.mailboxOutPost p) s = .next (outPost p s) :=
  congrArg Host.Outcome.next (if_pos ha)

theorem outPost_quiet (hq : QuietHalf (outHalf (portIdx p)) s) : outPost p s =
    if !(s.prt.get p).posted && !(s.prt.get p).svc && decide (outLen p s ≤ 508) then s.putPort p { s.prt.get p with posted := true }
    else s.putPort p { s.prt.get p with refused := true } := by
  have hhead : CleanRow s (outHalf (portIdx p)) 4 := cleanRow_of_quietHalf hq (Nat.le_refl _) (by omega)
  simp only [outPost, sramReadL_clean hhead, readN_head, ofLe_head]

theorem exec_storeServiceReply (p : PortId) (s : State) : exec (.storeServiceReply p) s = execStoreServiceReply p s := rfl

theorem exec_storeServiceReply_none (h : (∀ m ∈ s.img.replies, m.port ≠ p) ∨ (s.prt.get p).posted = true ∨ (s.prt.get p).svc = true ∨ portReady s = false) :
    exec (.storeServiceReply p) s = .next s := by
  rw [exec_storeServiceReply, execStoreServiceReply]
  cases hf : s.img.replies.find? (fun m => m.port == p) with
  | none => rfl
  | some m =>
    refine congrArg Host.Outcome.next (if_neg ?_)
    rcases h with h | h | h | h
    · have hp : m.port = p := by simpa using List.find?_some hf
      exact absurd hp (h m (List.mem_of_find?_eq_some hf))
    all_goals simp [h]

/-- The bytes a message is placed as: its header with LEN in the half's order, then the payload. -/
def placedBytes (op tag : Byte) (l : List Byte) : List Byte := [op, tag, BitVec.ofNat 8 l.length, BitVec.ofNat 8 (l.length / 256)] ++ l

theorem placedBytes_eq (op tag : Byte) (l : List Byte) : [op, tag] ++ leBytes 2 l.length ++ l = placedBytes op tag l := rfl

theorem placedBytes_length (op tag : Byte) (l : List Byte) : (placedBytes op tag l).length = 4 + l.length := by
  simp [placedBytes]
  omega

theorem exec_storeServiceReply_placed {m : SvcMsg} {rest : List SvcMsg} (hm : s.img.replies = m :: rest) (hp : m.port = p)
    (hrest : ∀ x ∈ rest, x.port ≠ p) (hk : (s.prt.get p).posted = false) (hs : (s.prt.get p).svc = false) (hr : portReady s = true)
    (hq : QuietHalf (outHalf (portIdx p)) s) (hl : m.payload.length ≤ 508) (hw : Bytes.wf 0 s.mem.bytes = true) :
    ∃ t, exec (.storeServiceReply p) s = .next t ∧
      t = { s.putPort p { s.prt.get p with svc := true } with mem := t.mem, img := { s.img with replies := rest } } ∧
      ∀ a, Bytes.read 0 t.mem.bytes a = if outHalf (portIdx p) ≤ a ∧ a < outHalf (portIdx p) + 4 + m.payload.length
        then (placedBytes m.opcode m.tag m.payload).getD (a - outHalf (portIdx p)) 0 else Bytes.read 0 s.mem.bytes a := by
  have hrow : CleanRow s (outHalf (portIdx p)) (placedBytes m.opcode m.tag m.payload).length :=
    cleanRow_of_quietHalf hq (Nat.le_refl _) (by rw [placedBytes_length]; omega)
  obtain ⟨errs, -, hwr⟩ := sramWriteL_clean .port _ _ s hrow
  have hfind : s.img.replies.find? (fun m => m.port == p) = some m := by simp [hm, hp]
  have hfilter : s.img.replies.filter (fun m => m.port != p) = rest := by
    rw [hm, List.filter_cons_of_neg (by simp [hp])]
    exact List.filter_eq_self.mpr fun x hx => by simpa using hrest x hx
  have hg : (portReady s && !(s.prt.get p).posted && !(s.prt.get p).svc) = true := by simp [hr, hk, hs]
  refine ⟨{ s.putPort p { s.prt.get p with svc := true } with
    mem := { s.mem with bytes := Bytes.writeL 0 s.mem.bytes (outHalf (portIdx p)) (placedBytes m.opcode m.tag m.payload), errs := errs }
    img := { s.img with replies := rest } }, ?_, rfl, fun a => ?_⟩
  · simp only [exec_storeServiceReply, execStoreServiceReply, hfind, hg, if_true, placedBytes_eq, hwr, putPort_mem_comm, putPort_img, hfilter]
  · rw [Nat.add_assoc, ← placedBytes_length m.opcode m.tag m.payload]
    exact read_writeL hw

/-- Settles O46: a command on a port that answers is its function on the state (`onPort_answers`); the halves are read and written as
clean rows (`outMessage_quiet`, `exec_storeServiceReply_placed`). -/
theorem portsPollReadAndPost : Obligations.PortsPollReadAndPost := by
  unfold Obligations.PortsPollReadAndPost
  intro s p k up first out noted i quiet h len
  refine ⟨fun hu => ?_, exec_portStatus_up, fun hd => ⟨?_, ?_, ?_⟩, fun b hu hb => ?_, fun hu => ?_, fun hp hu => ?_,
    fun hu hr hk hs w => exec_portRead_empty hu hr hk hs, fun hu hr hm hq => exec_portRead_message hu hr hm hq,
    exec_mailboxInRelease_awake, fun ha hq => ⟨fun hk hs hl => ?_, fun hl => ?_⟩, exec_storeServiceReply_none,
    fun m rest hm hp hrest hk hs hr hq hl hw => exec_storeServiceReply_placed hm hp hrest hk hs hr hq hl hw⟩
  · rw [exec_portPoll, onPort_answers hu]
    rfl
  · rw [exec_portPoll, onPort_down hd]
  · rw [exec_portStatus, execPortStatus, onPort_down hd]
  · rw [exec_portRead, onPort_down hd]
  · rw [exec_portUnknownCommand_up hu hb, show firstSent p s = out by cases p <;> rfl]
    rfl
  · exact congrArg Host.Outcome.next (if_pos hu)
  · subst hp
    exact exec_portUFramingError hu
  · rw [exec_mailboxOutPost_awake ha, outPost_quiet hq, if_pos]
    simp only [k] at hk hs
    simp [hk, hs, show outLen p s ≤ 508 from hl]
  · rw [exec_mailboxOutPost_awake ha, outPost_quiet hq, if_neg]
    simp only [k] at hl
    rcases hl with hl | hl | hl
    · simp [hl]
    · simp [hl]
    · simp [Nat.not_le.mpr (show 508 < outLen p s from hl)]

end Laws
end Sys2Proof
end

section
/-!
O47: a message written to port S, Q or U is judged, and placed, given to the store service, or turned away.
-/
namespace Sys2Proof
namespace Laws
open Machine

variable {s t : State} {p : PortId} {r : Reply} {op tag : Byte} {payload rest : List Byte} {ok : Bool} {n : Nat} {w : Word}

/-! ### An answer beside a fired source and a settled fabric -/

theorem ite_reply {c : Prop} [Decidable c] (a b : State) : (if c then a else b).reply r = if c then a.reply r else b.reply r :=
  apply_ite (State.reply · r) c a b

theorem wakeAsk_reply (n : Nat) (r : Reply) (s : State) : wakeAsk n (s.reply r) = (wakeAsk n s).reply r := by
  rw [wakeAsk_eq, wakeAsk_eq]
  rfl

theorem wakeFrom_reply (z : Sleep) (n : Nat) (r : Reply) (s : State) : wakeFrom z n (s.reply r) = (wakeFrom z n s).reply r := by
  rw [wakeFrom_eq, wakeFrom_eq]
  rfl

/-- A source fires the same way whatever was answered before. -/
theorem fire_reply (n : Nat) (r : Reply) (s : State) : fire n (s.reply r) = (fire n s).reply r := by
  rw [fire, fire, show (s.reply r).pwr.phase = s.pwr.phase from rfl]
  split
  case h_1 | h_2 | h_3 =>
    rw [ite_reply]
    rfl
  case h_4 =>
    rw [ite_reply, wakeFrom_reply]
    rfl
  case h_5 =>
    rw [ite_reply, ite_reply, ← wakeAsk_reply]
    rfl
  case h_6 | h_7 =>
    rw [fireStarting, fireStarting, ite_reply]
    rfl
  case h_8 => rfl

theorem settled_reply (h : Settled s t) : Settled (s.reply r) (t.reply r) := by
  obtain ⟨h1, h2, h3, h4, h5, h6, h7, h8⟩ := h
  exact ⟨congrArg (State.reply · r) h1, h2, h3, h4, h5, h6, h7, h8⟩

/-! ### Words on the wire (R388, R390) -/

theorem wireWord_injective {v : Word} (h : wireWord v = wireWord w) : v = w := by
  simp only [wireWord, List.cons.injEq, and_true] at h
  obtain ⟨hh, hl⟩ := h
  have hh := congrArg BitVec.toNat hh
  have hl := congrArg BitVec.toNat hl
  simp only [hiB, loB, BitVec.toNat_setWidth, BitVec.toNat_ushiftRight, Nat.shiftRight_eq_div_pow] at hh hl
  apply BitVec.eq_of_toNat_eq
  omega

theorem wireWord_ofNat (h : n < 65536) : wireWord (BitVec.ofNat 16 n) = [BitVec.ofNat 8 (n / 256), BitVec.ofNat 8 n] := by
  simp only [wireWord, hiB, loB, List.cons.injEq, and_true]
  constructor <;> apply BitVec.eq_of_toNat_eq <;>
    simp only [BitVec.toNat_setWidth, BitVec.toNat_ushiftRight, BitVec.toNat_ofNat, Nat.shiftRight_eq_div_pow] <;> omega

theorem wireWord_length (v : Word) : (wireWord v).length = 2 := rfl

/-! ### A message is judged (R391, R392) -/

theorem satAdd_zero {k : Nat} (v : BitVec k) : satAdd v 0 = v := by
  rw [satAdd, if_neg (show ¬ v.toNat + 0 ≥ 2 ^ k from Nat.not_le.mpr v.isLt)]
  simp

theorem discard_zero (p : PortId) (s : State) : s.discard p 0 = s := by
  rw [State.discard, satAdd_zero]
  cases p <;> rfl

/-- A message whose check sum is right (R392, from OPCODE on). -/
def goodMessage (p : PortId) (op tag : Byte) (payload : List Byte) (s : State) : State :=
  if opcodeReserved op then s.status p 0x06 op tag
  else if opcodeService op then placeService p op tag payload s
  else if s.pwr.phase == .noImage then placeNoImage p op tag payload s
  else if (ownerOf (s.prt.get p).cfg).isNone then s.status p 0x07 op tag
  else emit [BitVec.ofNat 8 (2 * (portIdx p) + 1)] (placeMessage p op tag payload s)

/-- The check sum of a message. -/
def messageSum (op tag : Byte) (payload : List Byte) : Word :=
  porchCrc ([op, tag, BitVec.ofNat 8 (payload.length / 256), BitVec.ofNat 8 payload.length] ++ payload)

theorem judgeMessage_short {len : Nat} (h : rest.length < len + 2) : judgeMessage p op tag len rest ok s = s.status p 0x03 op tag := by
  have hd : (if p == .u then s else s.discard p (rest.length - (len + 2))) = s := by
    rw [show rest.length - (len + 2) = 0 by omega, discard_zero, ite_self]
  simp only [judgeMessage]
  rw [hd, if_pos h]

/-- A message of exactly its length: the frame, then the check sum, then what it says. -/
theorem judgeMessage_whole (hn : payload.length < 65536) :
    judgeMessage p op tag payload.length (payload ++ wireWord w) ok s =
      if p = .u ∧ ok = false then s.status p 0x09 op tag
      else if w ≠ messageSum op tag payload then s.status p 0x02 op tag else goodMessage p op tag payload s := by
  have hlen : (payload ++ wireWord w).length = payload.length + 2 := by simp [wireWord_length]
  have hd : (if p == .u then s else s.discard p ((payload ++ wireWord w).length - (payload.length + 2))) = s := by
    rw [hlen, Nat.sub_self, discard_zero, ite_self]
  have htake : (payload ++ wireWord w).take payload.length = payload := List.take_left
  have hdrop : ((payload ++ wireWord w).drop payload.length).take 2 = wireWord w := by rw [List.drop_left]; rfl
  have hsum : porchCrc ([op, tag] ++ wireWord (BitVec.ofNat 16 payload.length) ++ payload) = messageSum op tag payload := by
    rw [wireWord_ofNat hn]
    rfl
  have hne : (wireWord w != wireWord (messageSum op tag payload)) = true ↔ w ≠ messageSum op tag payload := by
    rw [bne_iff_ne]
    exact ⟨fun h e => h (congrArg wireWord e), fun h e => h (wireWord_injective e)⟩
  have hu : (p == .u && !ok) = true ↔ p = .u ∧ ok = false := by simp
  simp only [judgeMessage]
  rw [hd, if_neg (by omega), htake, hdrop, hsum]
  simp only [hu, hne]
  rfl

/-! ### A good message (R392, R394, R395) -/

theorem opcodeReserved_iff (op : Byte) : opcodeReserved op = true ↔ op = 0x00 ∨ op = 0xF0 ∨ 0xF8 ≤ op.toNat := by
  simp [opcodeReserved, or_assoc]

theorem not_reserved (h1 : 0x01 ≤ op.toNat) (h2 : op.toNat ≤ 0xEF ∨ (0xF1 ≤ op.toNat ∧ op.toNat ≤ 0xF7)) : ¬ opcodeReserved op = true := by
  rw [opcodeReserved_iff]
  rintro (rfl | rfl | h)
  · exact absurd h1 (by decide)
  · exact absurd h2 (by decide)
  · omega

theorem goodMessage_reserved (h : op = 0x00 ∨ op = 0xF0 ∨ 0xF8 ≤ op.toNat) : goodMessage p op tag payload s = s.status p 0x06 op tag :=
  if_pos ((opcodeReserved_iff op).mpr h)

theorem goodMessage_service (h1 : 0xF1 ≤ op.toNat) (h2 : op.toNat ≤ 0xF7) :
    goodMessage p op tag payload s = placeService p op tag payload s := by
  rw [goodMessage, if_neg (not_reserved (by omega) (.inr ⟨h1, h2⟩)), if_pos (by simp [opcodeService, h1, h2])]

/-- An ordinary message while the image runs. -/
theorem goodMessage_ordinary (h1 : 0x01 ≤ op.toNat) (h2 : op.toNat ≤ 0xEF) (hp : s.pwr.phase = .awake) :
    goodMessage p op tag payload s = if (ownerOf (s.prt.get p).cfg).isNone then s.status p 0x07 op tag
      else emit [BitVec.ofNat 8 (2 * (portIdx p) + 1)] (placeMessage p op tag payload s) := by
  have hs : ¬ opcodeService op = true := by
    simp [opcodeService]
    omega
  rw [goodMessage, if_neg (not_reserved h1 (.inl h2)), if_neg hs, if_neg (by simp [hp])]

/-- A message placed in a half without bit errors. -/
theorem placeMessage_clean (he : s.mem.errs = []) : placeMessage p op tag payload s =
    { s.putPort p { s.prt.get p with held := true, rxcnt := satInc (s.prt.get p).rxcnt } with
      mem.bytes := Bytes.writeL 0 s.mem.bytes (inHalf (portIdx p)) (placedBytes op tag payload) } := by
  obtain ⟨errs, hs, hw⟩ := sramWriteL_clean .port (inHalf (portIdx p)) (placedBytes op tag payload) s (cleanRow_of_no_errs he)
  rw [he, List.subset_nil] at hs
  rw [placeMessage, placedBytes_eq, hw, hs, ← he]
  cases p <;> rfl

theorem placeService_clean (he : s.mem.errs = []) : placeService p op tag payload s =
    { s.putPort p { s.prt.get p with held := false, rxcnt := satInc (s.prt.get p).rxcnt } with
      mem.bytes := Bytes.writeL 0 s.mem.bytes (inHalf (portIdx p)) (placedBytes op tag payload)
      img.svc := s.img.svc ++ [{ port := p, opcode := op, tag := tag, payload := payload }] } := by
  rw [placeService, placeMessage_clean he]
  cases p <;> rfl

theorem placed_read {a : Nat} (hw : Bytes.wf 0 s.mem.bytes = true) :
    Bytes.read 0 (Bytes.writeL 0 s.mem.bytes (inHalf (portIdx p)) (placedBytes op tag payload)) a =
      if inHalf (portIdx p) ≤ a ∧ a < inHalf (portIdx p) + 4 + payload.length
      then (placedBytes op tag payload).getD (a - inHalf (portIdx p)) 0 else Bytes.read 0 s.mem.bytes a := by
  rw [Nat.add_assoc, ← placedBytes_length op tag payload]
  exact read_writeL hw

/-! ### The command (R391, R392, R396) -/

theorem exec_portWrite (p : PortId) (op tag : Byte) (len : Word) (rest : List Byte) (ok : Bool) (s : State) :
    exec (.portWrite p op tag len rest ok) s = execPortWrite p op tag len rest ok s := rfl

/-- The command's effect with port S's porch word beside it. -/
theorem exec_portWrite_up (h : PortAnswers p s) (hn : n < 65536) (ht : writeNow p op tag n rest ok (s.reply .none) = t) (ho : t.out = .none) :
    exec (.portWrite p op tag (BitVec.ofNat 16 n) rest ok) s = .next { t with out := firstSent p s } := by
  have hlen : (BitVec.ofNat 16 n).toNat = n := Nat.mod_eq_of_lt hn
  rw [exec_portWrite, execPortWrite, onPort_answers h]
  dsimp only
  rw [hlen, ht]
  exact congrArg Host.Outcome.next (reply_first t ho)

theorem writeNow_judged (hn : n ≤ 508) (hr : portReady s = true) (hi : inSpace p s = true) :
    writeNow p op tag n rest ok s = judgeMessage p op tag n rest ok s := by
  simp [writeNow, hr, hi, Nat.not_lt.mpr hn]

theorem writeNow_full (hn : n ≤ 508) (hp : p ≠ .q) (hr : portReady s = true) (hi : inSpace p s = false) :
    writeNow p op tag n rest ok s = s.status p 0x04 op tag := by
  simp [writeNow, hr, hi, Nat.not_lt.mpr hn, hp]

theorem writeNow_asleep (hn : n ≤ 508) (hp : p ≠ .q) (hr : portReady s = false) :
    writeNow p op tag n rest ok s = fire (portSource p) (s.status p 0x05 op tag) := by
  simp [writeNow, hr, Nat.not_lt.mpr hn, hp]

/-- A message turned away: the reason stands in the port's record. -/
theorem exec_portWrite_status {c : Byte} (h : PortAnswers p s) (hn : n < 65536)
    (hw : writeNow p op tag n rest ok (s.reply .none) = (s.reply .none).status p c op tag) :
    exec (.portWrite p op tag (BitVec.ofNat 16 n) rest ok) s =
      .next { s.putPort p ((s.prt.get p).status c op tag) with out := firstSent p s } := by
  rw [exec_portWrite_up h hn hw (by cases p <;> rfl)]
  cases p <;> rfl

/-- A whole message on a port that is ready and has room. -/
theorem writeNow_whole (hn : payload.length ≤ 508) (hr : portReady s = true) (hi : inSpace p s = true) :
    writeNow p op tag payload.length (payload ++ wireWord w) ok (s.reply .none) =
      if p = .u ∧ ok = false then (s.reply .none).status p 0x09 op tag
      else if w ≠ messageSum op tag payload then (s.reply .none).status p 0x02 op tag
      else goodMessage p op tag payload (s.reply .none) := by
  rw [writeNow_judged (s := s.reply .none) hn hr hi, judgeMessage_whole (by omega)]

/-- A message with its check sum and without framing errors. -/
theorem writeNow_good (hn : payload.length ≤ 508) (hr : portReady s = true) (hi : inSpace p s = true) :
    writeNow p op tag payload.length (payload ++ wireWord (messageSum op tag payload)) true (s.reply .none) =
      goodMessage p op tag payload (s.reply .none) := by
  rw [writeNow_whole hn hr hi, if_neg (by simp), if_neg (not_not.mpr rfl)]

/-- A good ordinary message lies in the in half of its owner. -/
theorem exec_portWrite_placed (h : PortAnswers p s) (hn : payload.length ≤ 508) (hr : portReady s = true) (hi : inSpace p s = true)
    (he : s.mem.errs = []) (h1 : 0x01 ≤ op.toNat) (h2 : op.toNat ≤ 0xEF) (hp : s.pwr.phase = .awake)
    (ho : ownerOf (s.prt.get p).cfg ≠ none) :
    let u : State := { s.putPort p { s.prt.get p with held := true, rxcnt := satInc (s.prt.get p).rxcnt } with
      mem.bytes := Bytes.writeL 0 s.mem.bytes (inHalf (portIdx p)) (placedBytes op tag payload), out := firstSent p s }
    ∃ t, exec (.portWrite p op tag (BitVec.ofNat 16 payload.length) (payload ++ wireWord (messageSum op tag payload)) true) s = .next t ∧
      Settled u t := by
  have hown : ¬ (ownerOf ((s.reply .none).prt.get p).cfg).isNone = true := by
    show ¬ (ownerOf (s.prt.get p).cfg).isNone = true
    simpa using ho
  have hw := writeNow_good (op := op) (tag := tag) hn hr hi
  rw [goodMessage_ordinary (s := s.reply .none) h1 h2 hp, if_neg hown, placeMessage_clean (s := s.reply .none) he] at hw
  refine ⟨_, exec_portWrite_up h (by omega) hw (by rw [emit_out]; cases p <;> rfl), ?_⟩
  have hset := settled_reply (r := firstSent p s) (emit_settled [BitVec.ofNat 8 (2 * (portIdx p) + 1)] { (s.reply .none).putPort p
    { (s.reply .none).prt.get p with held := true, rxcnt := satInc ((s.reply .none).prt.get p).rxcnt } with
      mem.bytes := Bytes.writeL 0 (s.reply .none).mem.bytes (inHalf (portIdx p)) (placedBytes op tag payload) })
  cases p <;> exact hset

/-- A message for the store service goes to it, and the half is free again. -/
theorem exec_portWrite_service (h : PortAnswers p s) (hn : payload.length ≤ 508) (hr : portReady s = true) (hi : inSpace p s = true)
    (he : s.mem.errs = []) (h1 : 0xF1 ≤ op.toNat) (h2 : op.toNat ≤ 0xF7) :
    exec (.portWrite p op tag (BitVec.ofNat 16 payload.length) (payload ++ wireWord (messageSum op tag payload)) true) s =
      .next { s.putPort p { s.prt.get p with held := false, rxcnt := satInc (s.prt.get p).rxcnt } with
        mem.bytes := Bytes.writeL 0 s.mem.bytes (inHalf (portIdx p)) (placedBytes op tag payload), out := firstSent p s
        img := { s.img with svc := s.img.svc ++ [{ port := p, opcode := op, tag := tag, payload := payload }] } } := by
  have hw := writeNow_good (op := op) (tag := tag) hn hr hi
  rw [goodMessage_service h1 h2, placeService_clean (s := s.reply .none) he] at hw
  rw [exec_portWrite_up h (by omega) hw (by cases p <;> rfl)]
  cases p <;> rfl

/-- A good message of a reserved opcode, and an ordinary one of a mailbox without owner. -/
theorem writeNow_reserved (hn : payload.length ≤ 508) (hr : portReady s = true) (hi : inSpace p s = true)
    (h : op = 0x00 ∨ op = 0xF0 ∨ 0xF8 ≤ op.toNat) :
    writeNow p op tag payload.length (payload ++ wireWord (messageSum op tag payload)) true (s.reply .none) =
      (s.reply .none).status p 0x06 op tag := by
  rw [writeNow_good hn hr hi, goodMessage_reserved h]

theorem writeNow_noOwner (hn : payload.length ≤ 508) (hr : portReady s = true) (hi : inSpace p s = true) (h1 : 0x01 ≤ op.toNat)
    (h2 : op.toNat ≤ 0xEF) (hp : s.pwr.phase = .awake) (ho : ownerOf (s.prt.get p).cfg = none) :
    writeNow p op tag payload.length (payload ++ wireWord (messageSum op tag payload)) true (s.reply .none) =
      (s.reply .none).status p 0x07 op tag := by
  rw [writeNow_good hn hr hi, goodMessage_ordinary (s := s.reply .none) h1 h2 hp]
  exact if_pos (Option.isNone_iff_eq_none.mpr ho)

theorem writeNow_badSum (hn : payload.length ≤ 508) (hr : portReady s = true) (hi : inSpace p s = true)
    (hw : w ≠ messageSum op tag payload) :
    writeNow p op tag payload.length (payload ++ wireWord w) true (s.reply .none) = (s.reply .none).status p 0x02 op tag := by
  rw [writeNow_whole hn hr hi, if_neg (by simp), if_pos hw]

theorem writeNow_badFrame (hn : payload.length ≤ 508) (hr : portReady s = true) (hi : inSpace p s = true) (hp : p = .u) :
    writeNow p op tag payload.length (payload ++ wireWord w) false (s.reply .none) = (s.reply .none).status p 0x09 op tag := by
  rw [writeNow_whole hn hr hi, if_pos ⟨hp, rfl⟩]

theorem writeNow_short (hn : n ≤ 508) (hr : portReady s = true) (hi : inSpace p s = true) (hl : rest.length < n + 2) :
    writeNow p op tag n rest ok (s.reply .none) = (s.reply .none).status p 0x03 op tag := by
  rw [writeNow_judged (s := s.reply .none) hn hr hi, judgeMessage_short hl]

/-! ### The obligation -/

/-- Settles O47: `judgeMessage_whole` and `judgeMessage_short` give the order of the reasons, `goodMessage` what a good message
does, `placeMessage_clean` its bytes. -/
theorem portWritesAreCheckedInOrder : Obligations.PortWritesAreCheckedInOrder := by
  unfold Obligations.PortWritesAreCheckedInOrder
  intro s p op tag payload extra ok k up n sum good out noted writes placed hu hn
  have hout : firstSent p s = out := by cases p <;> rfl
  have h16 : n < 65536 := by omega
  clear_value out
  subst hout
  refine ⟨fun hr hi => ⟨fun he hwf => ⟨fun h1 h2 hp ho => ?_, fun h1 h2 => ?_⟩, fun hop => ?_, fun h1 h2 hp ho => ?_, fun w hw => ?_,
    fun hl => ?_, fun hp => ?_⟩, fun hp hr hi => ?_, fun hp hr => ?_⟩
  · obtain ⟨t, ht, hs⟩ := exec_portWrite_placed (tag := tag) hu hn hr hi he h1 h2 hp ho
    exact ⟨t, _, ht, hs, fun a => placed_read hwf, rfl⟩
  · exact ⟨_, exec_portWrite_service hu hn hr hi he h1 h2, fun a => placed_read hwf, rfl⟩
  · exact exec_portWrite_status hu h16 (writeNow_reserved hn hr hi hop)
  · exact exec_portWrite_status hu h16 (writeNow_noOwner hn hr hi h1 h2 hp ho)
  · exact exec_portWrite_status hu h16 (writeNow_badSum hn hr hi hw)
  · exact exec_portWrite_status hu h16 (writeNow_short hn hr hi hl)
  · exact exec_portWrite_status hu h16 (writeNow_badFrame hn hr hi hp)
  · exact exec_portWrite_status hu h16 (writeNow_full (s := s.reply .none) hn hp hr hi)
  · have hw : writeNow p op tag n good ok (s.reply .none) = fire (portSource p) ((s.reply .none).status p 0x05 op tag) :=
      writeNow_asleep (s := s.reply .none) hn hp hr
    rw [State.status, putPort_reply, fire_reply] at hw
    have hexec := exec_portWrite_up hu h16 hw rfl
    exact hexec

end Laws
end Sys2Proof
end

section
/-!
The Hinge: a transaction that nothing hinders is its function on the state; sessions, run control, accesses, OTP; and O60.
-/
namespace Sys2Proof
namespace Laws
open Machine

variable {s t : State} {c d : CoreId} {a v w : Word} {f : State → State} {hdr same : Bool} {rnd : Option (List Byte)} {n r : Nat}

/-! ### Transactions (R532, R533, R536) -/

/-- The Hinge answers in this state. -/
def HingeOn (s : State) : Prop := s.awake = true ∧ hingeLive s = true ∧ s.pin.vioOk.getLsbD 0 = true

/-- And no session check and no read is under way. -/
def HingeQuiet (s : State) : Prop :=
  HingeOn s ∧ s.hng.checking = false ∧ s.hng.reading = none ∧ s.hng.held = none ∧ s.hng.dropRead = false

/-- In the image's own time HCK wakes nothing. -/
theorem hingeActivity_awake (h : s.pwr.phase = .awake) : hingeActivity s = s := by
  have hf : fire 11 s = s := (fire_awake h).trans (if_neg (by decide))
  rw [hingeActivity, hf, ite_self]

theorem dropHeld_idle (hr : s.hng.reading = none) (hh : s.hng.held = none) (hd : s.hng.dropRead = false) : dropHeld s = s := by
  have hg : ({ s.hng with held := none, dropRead := s.hng.reading.isSome } : Hinge) = s.hng := by rw [hr, ← hh, Option.isSome_none, ← hd]
  rw [dropHeld, hg]

theorem transact_on (h : HingeOn s) : transact hdr same f s =
    hingeActivity (if !hdr then hingeFault whyCheck (if same && hdr then s else dropHeld s) else f (if same && hdr then s else dropHeld s)) := by
  obtain ⟨ha, hl, hv⟩ := h
  refine if_neg ?_
  rw [mainOn_of_awake ha, hl, hv]
  decide

/-- A good transaction of the quiet Hinge. -/
theorem transact_good (h : HingeQuiet s) (hp : (f s).pwr.phase = .awake) : transact true same f s = f s := by
  obtain ⟨hon, -, hr, hh, hd⟩ := h
  rw [transact_on hon, dropHeld_idle hr hh hd, ite_self]
  exact hingeActivity_awake hp

theorem transact_bad (h : HingeQuiet s) : transact false same f s = hingeFault whyCheck s := by
  obtain ⟨hon, -, hr, hh, hd⟩ := h
  rw [transact_on hon, dropHeld_idle hr hh hd, ite_self]
  exact hingeActivity_awake (phase_of_awake hon.1)

theorem transact_silent (ha : s.awake = true) (hl : hingeLive s = false) : transact hdr same f s = s.reply (.hinge 15 none) := by
  have hg : (!s.mainOn || !hingeLive s || !s.pin.vioOk.getLsbD 0) = true := by simp [hl]
  rw [transact, if_pos hg, hingeActivity_awake (phase_of_awake ha)]
  rfl

theorem quiet_awake (h : HingeQuiet s) : s.pwr.phase = .awake := phase_of_awake h.1.1

theorem unlessChecking_no (h : s.hng.checking = false) : unlessChecking f s = f s := if_neg (by simp [h])

theorem unlessChecking_yes (h : s.hng.checking = true) : unlessChecking f s = hingeWait s := if_pos h

theorem unlessChecking_quiet (h : HingeQuiet s) : unlessChecking f s = f s := unlessChecking_no h.2.1

/-- A good transaction that waits for no session check. -/
theorem transact_serves (h : HingeQuiet s) (hp : (f s).pwr.phase = .awake) : transact true same (unlessChecking f) s = f s := by
  rw [transact_good h (by rw [unlessChecking_quiet h, hp]), unlessChecking_quiet h]

theorem hingePut_quiet (h : HingeQuiet s) (hp : (regWrite rnd n v s).pwr.phase = .awake) : hingePut rnd n v s = regWrite rnd n v s :=
  transact_serves h hp

/-! ### Rights (R537) -/

/-- The session has the right. -/
def HingeRight (r : Nat) (s : State) : Prop := s.hng.session = true ∧ s.hng.rights.getLsbD r = true

theorem hingeMay_iff : hingeMay r s = true ↔ HingeRight r s := by rw [hingeMay, Bool.and_eq_true, HingeRight]

theorem withRight_has (h : HingeRight r s) : withRight r f s = f s := if_pos (hingeMay_iff.mpr h)

theorem withRight_lacks (h : ¬ HingeRight r s) : withRight r f s = hingeFault whySession s := if_neg (mt hingeMay_iff.mp h)

theorem inSession_yes (h : s.hng.session = true) : inSession f s = f s := if_pos h

theorem inSession_no (h : s.hng.session = false) : inSession f s = hingeFault whySession s := if_neg (by simp [h])

theorem not_right (h : s.hng.session = false) : ¬ HingeRight r s := fun hr => by simp [hr.1] at h

/-! ### Each transaction's function -/

theorem exec_hingeId (hdr : Bool) (s : State) : exec (.hingeId hdr) s = .next (transact hdr false (unlessChecking (hingeData 0x7216)) s) := rfl

theorem exec_hingeRead_instr (a : Word) (hdr : Bool) (s : State) : exec (.hingeRead .instr a hdr) s =
    .next (transact hdr false (unlessChecking (withRight 1 fun s => hingeData (codeWord s a) s)) s) := rfl

theorem exec_hingeRead_data (a : Word) (hdr : Bool) (s : State) : exec (.hingeRead .data a hdr) s =
    .next (transact hdr false (unlessChecking (withRight 1 (dataRead a))) s) := rfl

theorem exec_hingeRead_io (a : Word) (hdr : Bool) (s : State) : exec (.hingeRead .io a hdr) s =
    .next (transact hdr (repeats a s) (unlessChecking (withRight 1 (ioRead a))) s) := rfl

theorem exec_hingeRead_hinge (a : Word) (hdr : Bool) (s : State) : exec (.hingeRead .hinge a hdr) s =
    .next (transact hdr false (if a = 0 then regRead 0 else unlessChecking (regRead a.toNat)) s) := rfl

/-- What a write with a good data check does in its space. -/
def writeIn (sp : HingeSpace) (a v : Word) : State → State :=
  match sp with
  | .instr => hingeFault whyCmd
  | .data => withRight 2 (dataWrite a v)
  | .io => withRight 2 (ioWrite a v)
  | .hinge => regWrite none a.toNat v

theorem exec_hingeWrite (sp : HingeSpace) (a v : Word) (hdr dat : Bool) (s : State) :
    exec (.hingeWrite sp a v hdr dat) s = .next (transact hdr false (dataChecked dat (writeIn sp a v)) s) := by
  cases sp <;> rfl

theorem exec_hingeUnknownCommand (cmd : BitVec 6) (s : State) (h : hingeKnown cmd = false) : exec (.hingeUnknownCommand cmd true) s =
    .next (transact true false (unlessChecking (hingeFault whyCmd)) s) := congrArg Host.Outcome.next (if_neg (by simp [h]))

/-- A write whose checks are good. -/
theorem exec_hingeWrite_good {sp : HingeSpace} (h : HingeQuiet s) (hp : (writeIn sp a v s).pwr.phase = .awake) :
    exec (.hingeWrite sp a v true true) s = .next (writeIn sp a v s) := by
  rw [exec_hingeWrite]
  exact congrArg Host.Outcome.next (transact_serves h hp)

/-! ### Bad checks and unknown commands -/

theorem exec_hingeRead_bad {sp : HingeSpace} (h : HingeQuiet s) : exec (.hingeRead sp a false) s = .next (hingeFault whyCheck s) := by
  cases sp
  · rw [exec_hingeRead_instr, transact_bad h]
  · rw [exec_hingeRead_data, transact_bad h]
  · rw [exec_hingeRead_io, transact_bad h]
  · rw [exec_hingeRead_hinge, transact_bad h]

theorem exec_hingeWrite_bad {sp : HingeSpace} (h : HingeQuiet s) : exec (.hingeWrite sp a v false true) s = .next (hingeFault whyCheck s) ∧
    exec (.hingeWrite sp a v true false) s = .next (hingeFault whyCheck s) := by
  rw [exec_hingeWrite, exec_hingeWrite, transact_bad h]
  exact ⟨rfl, congrArg Host.Outcome.next (transact_good h (quiet_awake h))⟩

theorem exec_hingeRead_refused {sp : HingeSpace} (h : HingeQuiet s) (hr : ¬ HingeRight 1 s) (hsp : sp ≠ .hinge) :
    exec (.hingeRead sp a true) s = .next (hingeFault whySession s) := by
  have hw : ∀ g, withRight 1 g s = hingeFault whySession s := fun g => withRight_lacks hr
  have hp : ∀ g, (withRight 1 g s).pwr.phase = .awake := fun g => by rw [hw, ← quiet_awake h]; rfl
  cases sp
  · rw [exec_hingeRead_instr, transact_serves h (hp _), hw]
  · rw [exec_hingeRead_data, transact_serves h (hp _), hw]
  · rw [exec_hingeRead_io, transact_serves h (hp _), hw]
  · exact absurd rfl hsp

/-! ### Reads (R533, R535) -/

theorem exec_hingeRead_code (h : HingeQuiet s) (hr : HingeRight 1 s) : exec (.hingeRead .instr a true) s = .next (hingeData (codeWord s a) s) := by
  have hw : withRight 1 (fun s => hingeData (codeWord s a) s) s = hingeData (codeWord s a) s := withRight_has hr
  rw [exec_hingeRead_instr, transact_serves h (by rw [hw]; exact quiet_awake h), hw]

theorem exec_hingeRead_sram (h : HingeQuiet s) (hr : HingeRight 1 s) (h2 : a.getLsbD 0 = false) (hn : a.toNat < 0xD000) (he : s.mem.errs = []) :
    exec (.hingeRead .data a true) s = .next (hingeData (sramWord s.mem a.toNat) s) := by
  have hd : dataRead a s = hingeData (sramWord s.mem a.toNat) s := by
    have htrap : wordTrap (hingeCore s) false a s = none := wordTrap_loadable h2 (.inl hn)
    have hread := dataReadW_plain (r := .hinge) (c := hingeCore s) (s := s) (.inl hn) (mod_two_of_even h2)
    rw [eccTouch_noError (by simp [he])] at hread
    rw [dataRead, htrap, hread]
    rfl
  have hw : withRight 1 (dataRead a) s = hingeData (sramWord s.mem a.toNat) s := (withRight_has hr).trans hd
  rw [exec_hingeRead_data, transact_serves h (by rw [hw]; exact quiet_awake h), hw]

theorem exec_hingeRead_odd (h : HingeQuiet s) (hr : HingeRight 1 s) (h2 : a.getLsbD 0 = true) :
    exec (.hingeRead .data a true) s = .next (hingeFault whyMisalign s) := by
  have hd : dataRead a s = hingeFault whyMisalign s := by
    rw [dataRead, wordTrap_odd h2]
    rfl
  have hw : withRight 1 (dataRead a) s = hingeFault whyMisalign s := (withRight_has hr).trans hd
  rw [exec_hingeRead_data, transact_serves h (by rw [hw]; exact quiet_awake h), hw]

/-- A register of the main domain read with NORC: no read effect. -/
theorem exec_hingeRead_register (h : HingeQuiet s) (hr : HingeRight 1 s) (hc : s.hng.norc = true) (hd : derzorRange a.toNat = false)
    (hm : ioMapped a.toNat s = true) (hv : ioVal (s.actsAs .hinge) a.toNat s = some w) :
    exec (.hingeRead .io a true) s = .next (hingeData w s) := by
  have hi : ioRead a s = hingeData w s := by
    simp only [ioRead, hm, hd, hingeCore, hv, hc, Bool.not_true, Bool.false_eq_true, if_false, if_true, Option.getD_some]
  have hw : withRight 1 (ioRead a) s = hingeData w s := (withRight_has hr).trans hi
  rw [exec_hingeRead_io, transact_serves h (by rw [hw]; exact quiet_awake h), hw]

/-- A Derzor-side read waits behind the posted writes. -/
theorem exec_hingeRead_derzor (h : HingeQuiet s) (hr : HingeRight 1 s) (hd : derzorRange a.toNat = true) (hm : ioMapped a.toNat s = true) :
    exec (.hingeRead .io a true) s = .next { s with hng.reading := some (a, s.tie.post.length), out := .hinge 6 none } := by
  obtain ⟨hon, hck, hrd, hh, hdr⟩ := h
  have hi : ioRead a s = hingeWait { s with hng.reading := some (a, s.tie.post.length) } := by
    simp only [ioRead, hm, hd, hh, hrd, Bool.not_true, Bool.false_eq_true, if_false, if_true, Option.isSome_none]
  have hw : withRight 1 (ioRead a) s = hingeWait { s with hng.reading := some (a, s.tie.post.length) } := (withRight_has hr).trans hi
  rw [exec_hingeRead_io, transact_serves ⟨hon, hck, hrd, hh, hdr⟩ (by rw [hw]; exact phase_of_awake hon.1), hw]
  rfl

/-- The read ends, and its result is held for the repeat. -/
theorem exec_tieReadComplete_hinge (ha : s.awake = true) (hr : s.hng.reading = some (a, 0)) (hd : s.hng.dropRead = false) (hc : s.hng.norc = true)
    (hv : ioVal (s.actsAs .hinge) (a.setWidth 12 : BitVec 12).toNat s = some w) :
    exec (.tieReadComplete .hinge none) s = .next { s with hng.reading := none, hng.held := some (a, w) } := by
  have ht : tieRead .hinge (a.setWidth 12) none s = (w, s) := by
    simp only [tieRead, hv, hc]
    rfl
  have hread : hingeReadEnd none s = { s with hng.reading := none, hng.held := some (a, w) } := by
    rw [hingeReadEnd, hr]
    simp only [ht]
    rw [hd]
    rfl
  have hx : exec (.tieReadComplete .hinge none) s = .next (hingeReadEnd none s) :=
    congrArg Host.Outcome.next (if_neg (by simp [mainOn_of_awake ha]))
  rw [hx, hread]

/-- The repeat of a read takes the held result. -/
theorem exec_hingeRead_held (hon : HingeOn s) (hck : s.hng.checking = false) (hh : s.hng.held = some (a, w)) (hr : HingeRight 1 s)
    (hd : derzorRange a.toNat = true) (hm : ioMapped a.toNat s = true) :
    exec (.hingeRead .io a true) s = .next (hingeData w { s with hng.held := none }) := by
  have hrep : repeats a s = true := by simp [repeats, hh]
  have hi : ioRead a s = hingeData w { s with hng.held := none } := by
    simp only [ioRead, hm, hd, hh, Bool.not_true, Bool.false_eq_true, if_false, if_true]
  have hw : withRight 1 (ioRead a) s = hingeData w { s with hng.held := none } := (withRight_has hr).trans hi
  rw [exec_hingeRead_io, transact_on hon, hrep]
  simp only [Bool.not_true, Bool.true_and, Bool.false_eq_true, if_false, if_true]
  rw [unlessChecking_no hck, hw]
  exact congrArg Host.Outcome.next (hingeActivity_awake (phase_of_awake hon.1))

/-! ### Writes (R535) -/

theorem exec_hingeWrite_refused (h : HingeQuiet s) (hr : ¬ HingeRight 2 s) :
    exec (.hingeWrite .data a v true true) s = .next (hingeFault whySession s) ∧
    exec (.hingeWrite .io a v true true) s = .next (hingeFault whySession s) := by
  have hd : writeIn .data a v s = hingeFault whySession s := withRight_lacks hr
  have hi : writeIn .io a v s = hingeFault whySession s := withRight_lacks hr
  rw [exec_hingeWrite_good h (by rw [hd]; exact quiet_awake h), exec_hingeWrite_good h (by rw [hi]; exact quiet_awake h), hd, hi]
  exact ⟨rfl, rfl⟩

theorem word2_loB_hiB (v : Word) : word2 (loB v) (hiB v) = v := by
  apply BitVec.eq_of_getLsbD_eq
  intro i hi
  rw [word2_getLsbD]
  split
  · next h => simp [loB, h]
  · next h => simp [hiB, show i - 8 < 8 by omega, show 8 + (i - 8) = i by omega]

theorem exec_hingeWrite_sram (h : HingeQuiet s) (hr : HingeRight 2 s) (h2 : a.getLsbD 0 = false) (hn : a.toNat < 0xD000) :
    exec (.hingeWrite .data a v true true) s = .next (hingeOk (sramWrite a.toNat v s)) := by
  have htrap : wordTrap (hingeCore s) true a s = none := wordTrap_storable h2 (.inl hn)
  have hheld : ¬ outHeld a.toNat s = true := by
    rw [outHeld_iff]
    omega
  have hd : dataWrite a v s = hingeOk (sramWrite a.toNat v s) := by
    rw [dataWrite, htrap]
    exact congrArg hingeOk ((dataWriteW_plain (.inl hn)).trans (if_neg hheld))
  have hw : writeIn .data a v s = hingeOk (sramWrite a.toNat v s) := (withRight_has hr).trans hd
  rw [exec_hingeWrite_good h (by rw [hw]; exact quiet_awake h), hw]

/-- The word reads back, and every other byte is as it was. -/
theorem sramWrite_word (hs : s.mem.sound) : sramWord (sramWrite n v s).mem n = v ∧
    ∀ b, b ≠ n → b ≠ n + 1 → Bytes.read 0 (sramWrite n v s).mem.bytes b = Bytes.read 0 s.mem.bytes b := by
  constructor
  · rw [sramWord, sramWrite_read hs, sramWrite_read hs, if_pos rfl, if_neg (by omega), if_pos rfl]
    exact word2_loB_hiB v
  · intro b h0 h1
    rw [sramWrite_read hs, if_neg h0, if_neg h1]

theorem exec_hingeWrite_derzor (h : HingeQuiet s) (hr : HingeRight 2 s) (hd : derzorRange a.toNat = true) (hm : ioMapped a.toNat s = true)
    (hf : ioForeign (s.actsAs .hinge) a.toNat s = false) (hp : s.tie.post.length < 8) :
    exec (.hingeWrite .io a v true true) s =
      .next (hingeOk { s with tie.post := s.tie.post ++ [{ addr := a.setWidth 12, data := .word v, who := .hinge }] }) := by
  have hrange : (0x040 ≤ a.toNat ∧ a.toNat < 0x074) ∨ (0x380 ≤ a.toNat ∧ a.toNat < 0x400) := by simpa [derzorRange] using hd
  have ho : outGroup a.toNat = none := if_neg (by rw [inR_iff]; omega)
  have he : oeGroup a.toNat = none := if_neg (by rw [inR_iff]; omega)
  have ht : ioTrust .hinge a.toNat v s = none := by rw [ioTrust, ho, he]
  have hpost : tiePost { addr := a.setWidth 12, data := .word v, who := .hinge } s =
      { s with tie.post := s.tie.post ++ [{ addr := a.setWidth 12, data := .word v, who := .hinge }] } := if_neg (Nat.not_le.mpr hp)
  have hi : ioWrite a v s = hingeOk { s with tie.post := s.tie.post ++ [{ addr := a.setWidth 12, data := .word v, who := .hinge }] } := by
    simp only [ioWrite, hm, hd, hingeCore, hf, ht, hpost, Bool.not_true, Bool.false_eq_true, if_false, if_true]
  have hw : writeIn .io a v s = _ := (withRight_has hr).trans hi
  rw [exec_hingeWrite_good h (by rw [hw]; exact quiet_awake h), hw]

theorem exec_hingeWrite_req (h : HingeQuiet s) : exec (.hingeWrite .hinge 0x04 v true true) s = .next (hingeOk { s with hng.req := v &&& 0x001F }) := by
  have hw : writeIn .hinge 0x04 v s = hingeOk { s with hng.req := v &&& 0x001F } := rfl
  rw [exec_hingeWrite_good h (by rw [hw]; exact quiet_awake h), hw]

/-- The registers of HRESP. -/
theorem regWrite_resp (i : Fin 64) : regWrite rnd (0x60 + i.val) v s = hingeOk { s with hng.resp := s.hng.resp.set i v } := by
  have hi := i.isLt
  have h1 : ¬ (0x60 + i.val = 0x00 ∨ (decide (0x60 + i.val = 0x01) || inR 0x50 0x5F (0x60 + i.val)) = true) := by
    rw [Bool.or_eq_true, decide_eq_true_eq, inR_iff]
    omega
  have h2 : haltedIndex (0x60 + i.val) = none := by
    rw [haltedIndex, if_neg (by rw [inR_iff]; omega), if_neg (by rw [inR_iff]; omega)]
  have h3 : inR 0x60 0x9F (0x60 + i.val) = true := by
    rw [inR_iff]
    omega
  have hset : s.hng.resp.set! (0x60 + i.val - 0x60) v = s.hng.resp.set i v := by
    rw [Nat.add_sub_cancel_left]
    exact set!_eq_set s.hng.resp i v
  rw [regWrite, if_neg h1, if_neg (by omega), if_neg (by omega), if_neg (by omega), if_neg (by omega), if_neg (by omega), if_neg (by omega),
    if_neg (by omega), h2]
  dsimp only
  rw [if_pos h3, hset]

theorem exec_hingeWrite_resp (h : HingeQuiet s) (i : Fin 64) :
    exec (.hingeWrite .hinge (BitVec.ofNat 16 (0x60 + i.val)) v true true) s = .next (hingeOk { s with hng.resp := s.hng.resp.set i v }) := by
  have hn : (BitVec.ofNat 16 (0x60 + i.val)).toNat = 0x60 + i.val := by
    have hi := i.isLt
    rw [BitVec.toNat_ofNat]
    omega
  have hw : writeIn .hinge (BitVec.ofNat 16 (0x60 + i.val)) v s = hingeOk { s with hng.resp := s.hng.resp.set i v } := by
    rw [writeIn, hn]
    exact regWrite_resp i
  rw [exec_hingeWrite_good h (by rw [hw]; exact quiet_awake h), hw]

/-! ### HCTL: challenge, open, close (R536 to R539) -/

/-- A command bit of HCTL written beside the bits that stay. -/
theorem hctlWord_or (x : Hinge) (v : Word) : (hctlWord x ||| v).getLsbD 0 = v.getLsbD 0 ∧ (hctlWord x ||| v).getLsbD 1 = v.getLsbD 1 ∧
    (hctlWord x ||| v).getLsbD 2 = v.getLsbD 2 ∧ (hctlWord x ||| v).getLsbD 3 = (x.norc || v.getLsbD 3) ∧
    (hctlWord x ||| v).getLsbD 4 = (x.hcore || v.getLsbD 4) := by
  simp only [BitVec.getLsbD_or, hctlWord]
  cases x.norc <;> cases x.hcore <;> simp [bitAt]

/-- NORC and HCORE carried along stay. -/
theorem hctl_kept (s : State) : (if s.hng.session then { s with hng.norc := s.hng.norc, hng.hcore := s.hng.hcore } else s) = s := ite_self s

theorem hctlPut_challenge {l : List Byte} (s : State) : hctlPut (some l) (hctlWord s.hng ||| 1) s = hingeOk (challenge l s) := by
  obtain ⟨h0, h1, h2, h3, h4⟩ := hctlWord_or s.hng 1
  rw [show (1 : Word).getLsbD 0 = true from rfl] at h0
  rw [show (1 : Word).getLsbD 1 = false from rfl] at h1
  rw [show (1 : Word).getLsbD 2 = false from rfl] at h2
  rw [show (1 : Word).getLsbD 3 = false from rfl, Bool.or_false] at h3
  rw [show (1 : Word).getLsbD 4 = false from rfl, Bool.or_false] at h4
  simp only [hctlPut, h0, h1, h2, h3, h4, Bool.not_true, Bool.or_false, Bool.and_false, Bool.false_eq_true, if_false, if_true]
  rw [hctl_kept]

theorem hctlPut_open (s : State) : hctlPut rnd (hctlWord s.hng ||| 2) s = openPut (hingeOk s) := by
  obtain ⟨h0, h1, h2, h3, h4⟩ := hctlWord_or s.hng 2
  rw [show (2 : Word).getLsbD 0 = false from rfl] at h0
  rw [show (2 : Word).getLsbD 1 = true from rfl] at h1
  rw [show (2 : Word).getLsbD 2 = false from rfl] at h2
  rw [show (2 : Word).getLsbD 3 = false from rfl, Bool.or_false] at h3
  rw [show (2 : Word).getLsbD 4 = false from rfl, Bool.or_false] at h4
  simp only [hctlPut, h0, h1, h2, h3, h4, Bool.or_true, Bool.not_true, Bool.or_false, Bool.and_false, Bool.false_eq_true, if_false, if_true]
  rw [hctl_kept]

theorem hctlPut_close (s : State) : hctlPut rnd (hctlWord s.hng ||| 4) s =
    if s.hng.session then sessionEnd (hingeOk s) else hingeFault whySession s := by
  obtain ⟨h0, h1, h2, h3, h4⟩ := hctlWord_or s.hng 4
  rw [show (4 : Word).getLsbD 0 = false from rfl] at h0
  rw [show (4 : Word).getLsbD 1 = false from rfl] at h1
  rw [show (4 : Word).getLsbD 2 = true from rfl] at h2
  rw [show (4 : Word).getLsbD 3 = false from rfl, Bool.or_false] at h3
  rw [show (4 : Word).getLsbD 4 = false from rfl, Bool.or_false] at h4
  simp only [hctlPut, h0, h1, h2, h3, h4, Bool.true_or, Bool.and_true, Bool.false_eq_true, if_false, if_true, Bool.not_eq_true']
  rw [hctl_kept]
  cases s.hng.session <;> rfl

theorem exec_hingeChallenge {l : List Byte} (h : HingeQuiet s) (hl : l.length = 32) :
    exec (.hingeChallenge l) s = .next (hingeOk { s with hng.chal := l, hng.chalv := true }) := by
  have hpad : (padTo 32 l).take 32 = l := by
    rw [padTo, hl]
    simp [← hl]
  have hw : regWrite (some l) 0x02 (hctlWord s.hng ||| 1) s = hingeOk { s with hng.chal := l, hng.chalv := true } := by
    refine (hctlPut_challenge s).trans ?_
    rw [challenge, hpad]
  show Host.Outcome.next (hingePut (some l) 0x02 (hctlWord s.hng ||| 1) s) = _
  rw [hingePut_quiet h (by rw [hw]; exact quiet_awake h), hw]

theorem exec_hingeOpen (h : HingeQuiet s) (hp : (openPut (hingeOk s)).pwr.phase = .awake) :
    exec .hingeOpen s = .next (openPut (hingeOk s)) := by
  have hw : regWrite none 0x02 (hctlWord s.hng ||| 2) s = openPut (hingeOk s) := hctlPut_open (rnd := none) s
  show Host.Outcome.next (hingePut none 0x02 (hctlWord s.hng ||| 2) s) = _
  rw [hingePut_quiet h (by rw [hw, hp]), hw]

theorem openPut_lockout (h : s.hng.fails = 3) : openPut (hingeOk s) = hingeFault whyLockout s := if_pos h

theorem openPut_factory (h : s.hng.fails ≠ 3) (hl : s.sec.lc = .factory) :
    openPut (hingeOk s) = hingeOk { s with hng.session := true, hng.rights := 0x1F } := by
  refine (if_neg h).trans ?_
  show (match s.sec.lc with
    | .factory => _
    | .locked => _
    | .retired => _) = _
  rw [hl]
  rfl

theorem openPut_locked (h : s.hng.fails ≠ 3) (hl : s.sec.lc = .locked) : openPut (hingeOk s) =
    if s.hng.chalv then hingeOk { s with hng.checking := true, sec := engAsk .session s.sec }
    else (openFails whySig (hingeOk s)).reply (.hinge hFault none) := by
  refine (if_neg h).trans ?_
  show (match s.sec.lc with
    | .factory => _
    | .locked => _
    | .retired => _) = _
  rw [hl]
  rfl

/-! ### The session check ends (R536, R538) -/

theorem exec_hingeSessionCheckEnd (s : State) : exec .hingeSessionCheckEnd s = execHingeSessionCheckEnd s := rfl

/-- The key in HRESP is the debug key. -/
def KeyMatches (s : State) : Prop := dbgHashSet s.sec = true ∧ sha256 ((respBytes s.hng).take 64) = dbgHash s.sec

/-- The signature in HRESP is the key's over the challenge. -/
def SignatureValid (s : State) : Prop :=
  let b := respBytes s.hng
  ecdsaVerify (leAt b 0 32) (leAt b 32 32) (leAt b 64 32) (leAt b 96 32) (sha256 (openMessage s)) = true

/-- The state once a check has ended and the engines are free. -/
def checkOver (x : Hinge) (s : State) : State := { s with hng := { x with checking := false, chalv := false }, sec.engine := none }

theorem exec_sessionCheckEnd_idle (h : s.hng.checking = false) : exec .hingeSessionCheckEnd s = .next s :=
  congrArg Host.Outcome.next (if_neg (by simp [h]))

theorem exec_sessionCheckEnd_done (h : s.hng.checking = true) (he : s.sec.engine = some .session) (hw : s.sec.waiters = []) :
    let failed := if s.hng.fails = 3 then 3 else s.hng.fails + 1
    (KeyMatches s → SignatureValid s →
      exec .hingeSessionCheckEnd s = .next (checkOver { s.hng with session := true, rights := s.hng.req.setWidth 5 } s)) ∧
    (KeyMatches s → ¬ SignatureValid s → exec .hingeSessionCheckEnd s = .next (checkOver { s.hng with fails := failed, lasterr := whySig } s)) ∧
    (¬ KeyMatches s → exec .hingeSessionCheckEnd s = .next (checkOver { s.hng with fails := failed, lasterr := whyKey } s)) := by
  have hg : (s.hng.checking && decide (s.sec.engine = some .session)) = true := by simp [h, he]
  have hkey : (!dbgHashSet s.sec || sha256 ((respBytes s.hng).take 64) != dbgHash s.sec) = true ↔ ¬ KeyMatches s := by
    simp [KeyMatches]
    grind
  have hexec : exec .hingeSessionCheckEnd s = .next (
      let b := respBytes s.hng
      let t : State := { s with hng.checking := false, sec := { s.sec with engine := none } }
      if (!dbgHashSet s.sec || sha256 (b.take 64) != dbgHash s.sec) = true then openFails whyKey t
      else if ecdsaVerify (leAt b 0 32) (leAt b 32 32) (leAt b 64 32) (leAt b 96 32) (sha256 (openMessage s)) = true then
        { t with hng := { t.hng with session := true, rights := t.hng.req.setWidth 5, chalv := false } }
      else openFails whySig t) := by
    rw [exec_hingeSessionCheckEnd, execHingeSessionCheckEnd, if_pos hg, engDone_alone hw]
    rfl
  refine ⟨fun hk hs => ?_, fun hk hs => ?_, fun hk => ?_⟩
  · rw [hexec]
    exact congrArg Host.Outcome.next ((if_neg fun hc => hkey.mp hc hk).trans (if_pos hs))
  · rw [hexec]
    exact congrArg Host.Outcome.next ((if_neg fun hc => hkey.mp hc hk).trans (if_neg hs))
  · rw [hexec]
    exact congrArg Host.Outcome.next (if_pos (hkey.mpr hk))

/-! ### Cores go on, and a session ends (R540, R542) -/

/-- A core resumed: where time is not up a halted one returns to its state, another stays. -/
def resumedCore (step : Bool) (k : Core) : Core :=
  match k.st with
  | .halted f => { k with st := f.st, stepping := step, haltReq := false }
  | _ => k

theorem resumedCore_halted {step : Bool} {k : Core} {g : CoreFrom} (h : k.st = .halted g) :
    resumedCore step k = { k with st := g.st, stepping := step, haltReq := false } := by rw [resumedCore, h]

theorem resumedCore_other {step : Bool} {k : Core} (h : isHalted k = false) : resumedCore step k = k := by
  unfold resumedCore
  split
  · next hk => simp [isHalted, hk] at h
  · rfl

theorem resume_eq (c : CoreId) (step : Bool) (ht : s.crs.timeUp = false) : resume c step s = s.setCore c (resumedCore step (s.core c)) := by
  unfold resume
  dsimp only
  split
  · next g hk =>
    rw [State.setCore_crs, ht, if_neg Bool.false_ne_true, resumedCore_halted hk]
  · next hk =>
    have hr : resumedCore step (s.core c) = s.core c := by
      unfold resumedCore
      split
      · next g hg => exact absurd hg (hk g)
      · rfl
    rw [hr, State.setCore_core]

/-- A core after the session: resumed, schedule check off. -/
def freedCore (k : Core) : Core := { resumedCore false k with sched := false, haltReq := false, stepping := false }

theorem sessionEnd_eq (hs : s.hng.session = true) (ht : s.crs.timeUp = false) : sessionEnd s =
    { s with coreA := freedCore s.coreA, coreB := freedCore s.coreB, hng := { s.hng with session := false, rights := 0, norc := false } } := by
  rw [sessionEnd, if_pos hs, resume_eq .a false ht, resume_eq .b false (by exact ht)]
  rfl

theorem freedCore_eq (k : Core) : freedCore k = { k with st := (freedCore k).st, sched := false, haltReq := false, stepping := false } := by
  unfold freedCore resumedCore
  split <;> rfl

theorem freedCore_halted {k : Core} {g : CoreFrom} (h : k.st = .halted g) : (freedCore k).st = g.st := by rw [freedCore, resumedCore_halted h]

theorem freedCore_other {k : Core} (h : isHalted k = false) : (freedCore k).st = k.st := by rw [freedCore, resumedCore_other h]

theorem exec_hingeClose_refused (h : HingeQuiet s) (hs : s.hng.session = false) : exec .hingeClose s = .next (hingeFault whySession s) := by
  have hw : regWrite none 0x02 (hctlWord s.hng ||| 4) s = hingeFault whySession s :=
    (hctlPut_close (rnd := none) s).trans (if_neg (by simp [hs]))
  show Host.Outcome.next (hingePut none 0x02 (hctlWord s.hng ||| 4) s) = _
  rw [hingePut_quiet h (by rw [hw]; exact quiet_awake h), hw]

theorem exec_hingeClose_ends (h : HingeQuiet s) (hs : s.hng.session = true) (ht : s.crs.timeUp = false) :
    exec .hingeClose s = .next (hingeOk { s with
      coreA := freedCore s.coreA, coreB := freedCore s.coreB, hng := { s.hng with session := false, rights := 0, norc := false } }) := by
  have hw : regWrite none 0x02 (hctlWord s.hng ||| 4) s = hingeOk { s with
      coreA := freedCore s.coreA, coreB := freedCore s.coreB, hng := { s.hng with session := false, rights := 0, norc := false } } := by
    refine (hctlPut_close (rnd := none) s).trans ((if_pos hs).trans ?_)
    exact sessionEnd_eq (s := hingeOk s) hs ht
  show Host.Outcome.next (hingePut none 0x02 (hctlWord s.hng ||| 4) s) = _
  rw [hingePut_quiet h (by rw [hw]; exact quiet_awake h), hw]

/-! ### Run control (R540 to R542) -/

/-- A register written in Hinge space that leaves the power state alone. -/
theorem hingePut_does (h : HingeQuiet s) (hw : regWrite rnd n v s = t) (hp : t.pwr = s.pwr) :
    Host.Outcome.next (hingePut rnd n v s) = (.next t : Host.Outcome State Fault Refusal) := by
  rw [hingePut_quiet h (by rw [hw, hp]; exact quiet_awake h), hw]

theorem regWrite_run : regWrite rnd (hrunAt c) v s = withRight 0 (hrunPut c v) s := by cases c <;> rfl

theorem regWrite_pc : regWrite rnd (hrunAt c + 2) v s = withRight 0 (hpcPut c v) s := by cases c <;> rfl

theorem setCore_ok_pwr {k : Core} : (hingeOk (s.setCore c k)).pwr = s.pwr := State.setCore_pwr

/-- HRUN is HALT, RESUME, STEP and SCHED in bits 0 to 3; a write of one command bit carries SCHED along. -/
theorem hrunKeep_or (v : Word) : (hrunKeep c s ||| v).getLsbD 0 = v.getLsbD 0 ∧ (hrunKeep c s ||| v).getLsbD 1 = v.getLsbD 1 ∧
    (hrunKeep c s ||| v).getLsbD 2 = v.getLsbD 2 ∧ (hrunKeep c s ||| v).getLsbD 3 = ((s.core c).sched || v.getLsbD 3) := by
  simp only [BitVec.getLsbD_or, hrunKeep]
  cases (s.core c).sched <;> simp [bitAt]

/-- A RESUME or STEP of a core that is not halted. -/
theorem hrunPut_refused (hb : v.getLsbD 1 = true ∨ v.getLsbD 2 = true) (hk : isHalted (s.core c) = false) :
    hrunPut c v s = hingeFault whyNotHalted s := by
  refine if_pos ?_
  rcases hb with hb | hb <;> rw [hb, hk] <;> simp

/-- A write of HRUN that is not refused and keeps SCHED. -/
theorem hrunPut_kept (hs : v.getLsbD 3 = (s.core c).sched)
    (hok : ((v.getLsbD 0 && v.getLsbD 1) || (v.getLsbD 0 && v.getLsbD 2) || (v.getLsbD 1 && v.getLsbD 2) ||
      ((v.getLsbD 1 || v.getLsbD 2) && !isHalted (s.core c))) = false) :
    hrunPut c v s = hingeOk (
      if v.getLsbD 0 then (if isHalted (s.core c) then s else s.setCore c { s.core c with haltReq := true })
      else if v.getLsbD 1 then resume c false s
      else if v.getLsbD 2 then resume c true s
      else s) := by
  have hsame : s.setCore c { s.core c with sched := (s.core c).sched } = s := State.setCore_core
  unfold hrunPut
  dsimp only
  rw [hok, if_neg Bool.false_ne_true, hs, hsame]

theorem hrunPut_halt (hk : isHalted (s.core c) = false) :
    hrunPut c (hrunKeep c s ||| 1) s = hingeOk (s.setCore c { s.core c with haltReq := true }) := by
  obtain ⟨h0, h1, h2, h3⟩ := hrunKeep_or (c := c) (s := s) 1
  rw [hrunPut_kept (h3.trans (Bool.or_false _)) (by rw [h0, h1, h2]; rfl), h0, if_pos (by decide), hk, if_neg Bool.false_ne_true]

theorem hrunPut_resume {g : CoreFrom} (hk : (s.core c).st = .halted g) (ht : s.crs.timeUp = false) :
    hrunPut c (hrunKeep c s ||| 2) s = hingeOk (s.setCore c { s.core c with st := g.st, stepping := false, haltReq := false }) := by
  obtain ⟨h0, h1, h2, h3⟩ := hrunKeep_or (c := c) (s := s) 2
  have hh : isHalted (s.core c) = true := by rw [isHalted, hk]
  rw [hrunPut_kept (h3.trans (Bool.or_false _)) (by rw [h0, h1, h2, hh]; rfl), h0, h1, if_neg (by decide), if_pos (by decide), resume_eq c false ht,
    resumedCore_halted hk]

theorem hrunPut_step {g : CoreFrom} (hk : (s.core c).st = .halted g) (ht : s.crs.timeUp = false) :
    hrunPut c (hrunKeep c s ||| 4) s = hingeOk (s.setCore c { s.core c with st := g.st, stepping := true, haltReq := false }) := by
  obtain ⟨h0, h1, h2, h3⟩ := hrunKeep_or (c := c) (s := s) 4
  have hh : isHalted (s.core c) = true := by rw [isHalted, hk]
  rw [hrunPut_kept (h3.trans (Bool.or_false _)) (by rw [h0, h1, h2, hh]; rfl), h0, h1, h2, if_neg (by decide), if_neg (by decide), if_pos (by decide),
    resume_eq c true ht, resumedCore_halted hk]

theorem hrunPut_sched (b : Bool) : hrunPut c (bitAt 16 3 b) s = hingeOk (s.setCore c { s.core c with sched := b }) := by cases b <;> rfl

theorem hpcPut_halted (hk : isHalted (s.core c) = true) :
    hpcPut c v s = hingeOk (s.setCore c { s.core c with pc := v, xfer := none, call := false }) := if_pos hk

theorem hpcPut_running (hk : isHalted (s.core c) = false) : hpcPut c v s = hingeFault whyNotHalted s := if_neg (by simp [hk])

/-- HRUN or HPC of a core written with the right. -/
theorem hingePut_run (h : HingeQuiet s) (hr : HingeRight 0 s) (hw : hrunPut c v s = t) (hp : t.pwr = s.pwr) :
    Host.Outcome.next (hingePut none (hrunAt c) v s) = (.next t : Host.Outcome State Fault Refusal) :=
  hingePut_does h (regWrite_run.trans ((withRight_has hr).trans hw)) hp

theorem hingePut_pc (h : HingeQuiet s) (hr : HingeRight 0 s) (hw : hpcPut c v s = t) (hp : t.pwr = s.pwr) :
    Host.Outcome.next (hingePut none (hrunAt c + 2) v s) = (.next t : Host.Outcome State Fault Refusal) :=
  hingePut_does h (regWrite_pc.trans ((withRight_has hr).trans hw)) hp

theorem exec_hingeHalt_running (h : HingeQuiet s) (hr : HingeRight 0 s) (hk : isHalted (s.core c) = false) :
    exec (.hingeHalt c) s = .next (hingeOk (s.setCore c { s.core c with haltReq := true })) ∧
    exec (.hingeResume c) s = .next (hingeFault whyNotHalted s) ∧ exec (.hingeStep c) s = .next (hingeFault whyNotHalted s) ∧
    exec (.hingePcWrite c v) s = .next (hingeFault whyNotHalted s) := by
  have h1 : (hrunKeep c s ||| 2).getLsbD 1 = true := (hrunKeep_or 2).2.1
  have h2 : (hrunKeep c s ||| 4).getLsbD 2 = true := (hrunKeep_or 4).2.2.1
  exact ⟨hingePut_run h hr (hrunPut_halt hk) setCore_ok_pwr, hingePut_run h hr (hrunPut_refused (.inl h1) hk) rfl,
    hingePut_run h hr (hrunPut_refused (.inr h2) hk) rfl, hingePut_pc h hr (hpcPut_running hk) rfl⟩

theorem exec_hingeResume_halted {g : CoreFrom} (h : HingeQuiet s) (hr : HingeRight 0 s) (hk : (s.core c).st = .halted g) (ht : s.crs.timeUp = false) :
    exec (.hingeResume c) s = .next (hingeOk (s.setCore c { s.core c with st := g.st, stepping := false, haltReq := false })) ∧
    exec (.hingeStep c) s = .next (hingeOk (s.setCore c { s.core c with st := g.st, stepping := true, haltReq := false })) :=
  ⟨hingePut_run h hr (hrunPut_resume hk ht) setCore_ok_pwr, hingePut_run h hr (hrunPut_step hk ht) setCore_ok_pwr⟩

/-- A requested halt of a core that runs and waits for nothing. -/
theorem exec_coreHalted_halts (ha : s.awake = true) (hq : (s.core c).haltReq = true) (hk : (s.core c).st = .running) (hx : (s.core c).xfer = none)
    (hb : (s.core c).busy = none) : exec (.coreHalted c) s =
      .next { s.setCore c { s.core c with haltReq := false, stepping := false, st := .halted .running } with
        crs := { s.crs with flags := if s.crs.running then setBit s.crs.flags 4 true else s.crs.flags } } := by
  have hm : (s.core c).mayHalt = true := by simp [Core.mayHalt, hk, hx, hb]
  have hh : (s.core c).halt = { s.core c with haltReq := false, stepping := false, st := .halted .running } := by rw [Core.halt, hk]
  refine congrArg Host.Outcome.next ((if_pos (by rw [hq, hm, mainOn_of_awake ha]; rfl)).trans ?_)
  rw [hh]
  dsimp only
  rw [State.setCore_crs]
  by_cases hr : s.crs.running = true
  · rw [if_pos hr, if_pos hr]
  · rw [if_neg hr, if_neg hr]
    cases c <;> rfl

theorem exec_coreHalted_not (h : (s.core c).haltReq = false ∨ (s.core c).busy.isSome = true ∧ (s.core c).st = .running) :
    exec (.coreHalted c) s = .next s := by
  refine congrArg Host.Outcome.next (if_neg ?_)
  rcases h with h | ⟨hb, hk⟩
  · simp [h]
  · have hm : (s.core c).mayHalt = false := by simp [Core.mayHalt, hk, hb]
    simp [hm]

/-! ### The reset (R544) -/

/-- What a warm reset keeps and sets. -/
theorem warmReset_keeps (b : BitVec 3) (s : State) : (warmReset b s).pwr = s.pwr ∧ (warmReset b s).hng = s.hng ∧ (warmReset b s).isl.rstCause = b ∧
    (warmReset b s).crs.running = false ∧ (warmReset b s).coreA.sched = s.coreA.sched := by
  unfold warmReset
  dsimp only
  split
  · rw [courseStop_eq]
    exact ⟨rfl, rfl, rfl, rfl, rfl⟩
  · next hr => exact ⟨rfl, rfl, rfl, Bool.eq_false_iff.mpr hr, rfl⟩

/-- The fabric settles in an awake state: what it keeps of the state here. -/
theorem emit_awake (h : s.pwr.phase = .awake) : (emit [] s).pwr = s.pwr ∧ (emit [] s).crs.running = s.crs.running ∧
    (emit [] s).coreA.sched = s.coreA.sched := by
  obtain ⟨-, hA, -, hcrs, -, -, -, hpwr⟩ := emit_settled [] s
  refine ⟨hpwr.resolve_right ?_, by rw [hcrs], by rw [hA]⟩
  rintro ⟨z, hz, -⟩
  rw [h] at hz
  exact Phase.noConfusion hz

theorem exec_hingeReset_ignored (h : HingeQuiet s) (hr : HingeRight 3 s) (hv : v ≠ 0x5EA1) : exec (.hingeReset v) s = .next (hingeOk s) := by
  have hw : regWrite none 0x03 v s = hingeOk s := (withRight_has (f := hrstPut v) hr).trans (congrArg hingeOk (if_neg hv))
  exact hingePut_does h hw rfl

theorem exec_hingeReset_resets (h : HingeQuiet s) (hr : HingeRight 3 s) : ∃ t, exec (.hingeReset 0x5EA1) s = .next t ∧
    t.isl.rstCause = 5 ∧ t.crs.running = false ∧ t.hng = s.hng ∧ t.out = .hinge 5 none ∧ t.coreA.sched = s.coreA.sched := by
  obtain ⟨hpwr, hhng, hcause, hrun, hsched⟩ := warmReset_keeps 5 s
  have hph : (warmReset 5 s).pwr.phase = .awake := by rw [hpwr, quiet_awake h]
  obtain ⟨epwr, erun, esched⟩ := emit_awake hph
  have hw : regWrite none 0x03 0x5EA1 s = hingeOk (emit [] (warmReset 5 s)) := withRight_has (f := hrstPut 0x5EA1) hr
  exact ⟨_, hingePut_does h hw (epwr.trans hpwr), (congrArg Island.rstCause emit_isl).trans hcause, erun.trans hrun, emit_hng.trans hhng, rfl,
    esched.trans hsched⟩

/-! ### OTP and the lifecycle (R520 to R522) -/

/-- PROG may program the word at HOTP_ADDR. -/
def OtpOpen (s : State) : Prop :=
  s.sec.lc = .factory ∧ s.hng.otpAddr.toNat % 2 = 0 ∧ 0x00A ≤ s.hng.otpAddr.toNat ∧ s.hng.otpAddr.toNat ≤ 0x07F ∧
    otpWord s.sec s.hng.otpAddr.toNat = none

theorem progOk_iff : progOk s = true ↔ OtpOpen s := by
  rw [progOk, OtpOpen, Bool.and_eq_true, Bool.and_eq_true, Bool.and_eq_true, decide_eq_true_eq, beq_iff_eq, inR_iff, Option.isNone_iff_eq_none]
  tauto

/-- A command of HOTP_CMD in a session. -/
theorem hingePut_otp (h : HingeQuiet s) (hs : s.hng.session = true) (hw : otpCmd v s = t) (hp : t.pwr = s.pwr) :
    Host.Outcome.next (hingePut none 0xC2 v s) = (.next t : Host.Outcome State Fault Refusal) :=
  hingePut_does h (hw ▸ inSession_yes (f := otpCmd v) hs) hp

theorem exec_otpProg_session (h : HingeQuiet s) (hs : s.hng.session = true) :
    (s.sec.otpBusy = none → OtpOpen s → exec .otpProg s = .next (hingeOk { s with sec.otpBusy := some (s.hng.otpAddr.toNat, s.hng.otpData) })) ∧
    (s.sec.otpBusy = none → ¬ OtpOpen s → exec .otpProg s = .next (hingeFault whyOtp s)) ∧
    (s.sec.otpBusy.isSome = true → exec .otpProg s = .next (hingeWait s)) := by
  have hcmd : otpCmd 0x0001 s = progPut s := rfl
  refine ⟨fun hb ho => hingePut_otp h hs (hcmd.trans ?_) rfl, fun hb ho => hingePut_otp h hs (hcmd.trans ?_) rfl,
    fun hb => hingePut_otp h hs (hcmd.trans (if_pos hb)) rfl⟩
  · rw [progPut, if_neg (by simp [hb]), if_pos (progOk_iff.mpr ho)]
  · rw [progPut, if_neg (by simp [hb]), if_neg (mt progOk_iff.mp ho)]

/-- A lifecycle command that is refused. -/
theorem exec_lifecycleLock_refused (h : HingeQuiet s) (hs : s.hng.session = true) (hl : s.sec.lc ≠ .factory ∨ keyHashSet s.sec = false) :
    exec .lifecycleLock s = .next (hingeFault whyOtp s) := by
  have hcmd : otpCmd 0x10C4 s = lockPut s := rfl
  refine hingePut_otp h hs (hcmd.trans (if_neg ?_)) rfl
  rw [Bool.and_eq_true, decide_eq_true_eq]
  rintro ⟨hf, hk⟩
  rcases hl with hl | hl
  · exact hl hf
  · simp [hl] at hk

theorem exec_lifecycleRetire_refused (h : HingeQuiet s) (hs : s.hng.session = true)
    (hl : s.sec.lc = .retired ∨ s.sec.lc = .locked ∧ s.hng.rights.getLsbD 4 = false) : exec .lifecycleRetire s = .next (hingeFault whyOtp s) := by
  have hcmd : otpCmd 0x0DEA s = retirePut s := rfl
  refine hingePut_otp h hs (hcmd.trans (if_neg ?_)) rfl
  rcases hl with hl | ⟨hl, h4⟩
  · simp [hl]
  · simp only [hl, hingeMay, h4]
    simp

/-- The lifecycle moves on and the session ends. -/
theorem sessionEnd_lifecycle (l : Lifecycle) (hs : s.hng.session = true) (ht : s.crs.timeUp = false) :
    (sessionEnd { s with sec.lc := l }).sec = { s.sec with lc := l } ∧ (sessionEnd { s with sec.lc := l }).hng.session = false ∧
      (sessionEnd { s with sec.lc := l }).pwr = s.pwr := by
  rw [sessionEnd_eq (s := { s with sec.lc := l }) hs ht]
  exact ⟨rfl, rfl, rfl⟩

theorem exec_lifecycleLock_locks (h : HingeQuiet s) (hs : s.hng.session = true) (ht : s.crs.timeUp = false) (hl : s.sec.lc = .factory)
    (hk : keyHashSet s.sec = true) : exec .lifecycleLock s = .next (hingeOk (sessionEnd { s with sec.lc := .locked })) := by
  have hcmd : otpCmd 0x10C4 s = lockPut s := rfl
  refine hingePut_otp h hs (hcmd.trans (if_pos ?_)) (sessionEnd_lifecycle .locked hs ht).2.2
  rw [hk, Bool.and_true, decide_eq_true_eq]
  exact hl

theorem exec_lifecycleRetire_retires (h : HingeQuiet s) (hs : s.hng.session = true) (ht : s.crs.timeUp = false)
    (hl : s.sec.lc = .factory ∨ s.sec.lc = .locked ∧ s.hng.rights.getLsbD 4 = true) :
    exec .lifecycleRetire s = .next (hingeOk (sessionEnd { s with sec.lc := .retired })) := by
  have hcmd : otpCmd 0x0DEA s = retirePut s := rfl
  refine hingePut_otp h hs (hcmd.trans (if_pos ?_)) (sessionEnd_lifecycle .retired hs ht).2.2
  rw [Bool.or_eq_true, Bool.and_eq_true, decide_eq_true_eq, decide_eq_true_eq, hingeMay_iff]
  exact hl.imp_right (And.imp_right fun h4 => ⟨hs, h4⟩)

/-! ### Without a session -/

theorem exec_sessionless (h : HingeQuiet s) (hs : s.hng.session = false) :
    exec .hingeClose s = .next (hingeFault whySession s) ∧ exec (.hingeHalt c) s = .next (hingeFault whySession s) ∧
    exec (.hingeReset v) s = .next (hingeFault whySession s) ∧ exec .otpProg s = .next (hingeFault whySession s) ∧
    exec .lifecycleLock s = .next (hingeFault whySession s) ∧ exec .lifecycleRetire s = .next (hingeFault whySession s) := by
  have hotp : ∀ w, regWrite none 0xC2 w s = hingeFault whySession s := fun w => inSession_no (f := otpCmd w) hs
  have hrst : regWrite none 0x03 v s = hingeFault whySession s := withRight_lacks (f := hrstPut v) (not_right hs)
  have hrun : ∀ w, regWrite none (hrunAt c) w s = hingeFault whySession s := fun w => regWrite_run.trans (withRight_lacks (not_right hs))
  exact ⟨exec_hingeClose_refused h hs, hingePut_does h (hrun _) rfl, hingePut_does h hrst rfl, hingePut_does h (hotp _) rfl,
    hingePut_does h (hotp _) rfl, hingePut_does h (hotp _) rfl⟩

/-! ### The identification, and a check under way -/

theorem exec_hingeId_answers (hon : HingeOn s) (hc : s.hng.checking = false) :
    exec (.hingeId true) s = .next (hingeData 0x7216 { s with hng := { s.hng with held := none, dropRead := s.hng.reading.isSome } }) := by
  rw [exec_hingeId, transact_on hon]
  simp only [Bool.not_true, Bool.false_eq_true, Bool.false_and, if_false]
  rw [unlessChecking_no (by exact hc)]
  exact congrArg Host.Outcome.next (hingeActivity_awake (phase_of_awake hon.1))

/-- While the session check runs the Hinge waits, and HSTAT alone reads. -/
theorem exec_hinge_checking (hon : HingeOn s) (hc : s.hng.checking = true) (hr : s.hng.reading = none) (hh : s.hng.held = none)
    (hd : s.hng.dropRead = false) : exec (.hingeId true) s = .next (hingeWait s) ∧
    exec (.hingeRead .hinge 0 true) s = .next (hingeData (hstatWord s) s) := by
  have hp : s.pwr.phase = .awake := phase_of_awake hon.1
  rw [exec_hingeId, exec_hingeRead_hinge, transact_on hon, transact_on hon, dropHeld_idle hr hh hd]
  simp only [Bool.not_true, Bool.false_eq_true, Bool.false_and, if_false, if_true]
  rw [unlessChecking_yes hc]
  exact ⟨congrArg Host.Outcome.next (hingeActivity_awake hp), congrArg Host.Outcome.next (hingeActivity_awake hp)⟩

/-! ### The openings and closings of a session -/

theorem exec_hingeOpen_lockout (h : HingeQuiet s) (hf : s.hng.fails = 3) : exec .hingeOpen s = .next (hingeFault whyLockout s) := by
  rw [exec_hingeOpen h (by rw [openPut_lockout hf]; exact quiet_awake h), openPut_lockout hf]

theorem exec_hingeOpen_factory (h : HingeQuiet s) (hf : s.hng.fails ≠ 3) (hl : s.sec.lc = .factory) :
    exec .hingeOpen s = .next (hingeOk { s with hng.session := true, hng.rights := 0x1F }) := by
  rw [exec_hingeOpen h (by rw [openPut_factory hf hl]; exact quiet_awake h), openPut_factory hf hl]

theorem exec_hingeOpen_checks (h : HingeQuiet s) (hf : s.hng.fails ≠ 3) (hl : s.sec.lc = .locked) (hv : s.hng.chalv = true) :
    exec .hingeOpen s = .next (hingeOk { s with hng.checking := true, sec := engAsk .session s.sec }) := by
  have ho := (openPut_locked hf hl).trans (if_pos hv)
  have hp := quiet_awake h
  rw [exec_hingeOpen h (by rw [ho]; exact hp), ho]

theorem exec_hingeOpen_unchallenged (h : HingeQuiet s) (hf : s.hng.fails ≠ 3) (hl : s.sec.lc = .locked) (hv : s.hng.chalv = false) :
    exec .hingeOpen s = .next { s with hng := { s.hng with fails := s.hng.fails + 1, lasterr := whySig }, out := .hinge hFault none } := by
  have ho := (openPut_locked hf hl).trans (if_neg (by simp [hv]))
  have hfail : openFails whySig (hingeOk s) =
      { hingeOk s with hng := { s.hng with fails := s.hng.fails + 1, lasterr := whySig } } := by
    show { hingeOk s with hng := { s.hng with fails := if s.hng.fails = 3 then 3 else s.hng.fails + 1, chalv := false, lasterr := whySig } } = _
    rw [if_neg hf, ← hv]
  have hp := quiet_awake h
  rw [exec_hingeOpen h (by rw [ho]; exact hp), ho, hfail]
  rfl

/-- At the end of a session both cores are freed. -/
theorem exec_hingeClose_frees (h : HingeQuiet s) (hs : s.hng.session = true) (ht : s.crs.timeUp = false) :
    ∃ t, exec .hingeClose s = .next t ∧
      t = { s with coreA := t.coreA, coreB := t.coreB, hng := { s.hng with session := false, rights := 0, norc := false }, out := .hinge 5 none } ∧
      ∀ d, t.core d = { s.core d with st := (t.core d).st, sched := false, haltReq := false, stepping := false } ∧
        (∀ g, (s.core d).st = .halted g → (t.core d).st = g.st) ∧ (isHalted (s.core d) = false → (t.core d).st = (s.core d).st) := by
  refine ⟨_, exec_hingeClose_ends h hs ht, rfl, fun d => ?_⟩
  cases d
  · exact ⟨freedCore_eq s.coreA, fun g => freedCore_halted, freedCore_other⟩
  · exact ⟨freedCore_eq s.coreB, fun g => freedCore_halted, freedCore_other⟩

/-- A store through data space: the word stands, nothing else of memory changed. -/
theorem exec_hingeWrite_stores (h : HingeQuiet s) (hr : HingeRight 2 s) (hm : s.mem.sound) (h2 : a.getLsbD 0 = false) (hn : a.toNat < 0xD000) :
    ∃ t, exec (.hingeWrite .data a v true true) s = .next t ∧
      t = { s with mem := { s.mem with bytes := t.mem.bytes, errs := t.mem.errs }, out := .hinge 5 none } ∧ sramWord t.mem a.toNat = v ∧
      ∀ b, b ≠ a.toNat → b ≠ a.toNat + 1 → Bytes.read 0 t.mem.bytes b = Bytes.read 0 s.mem.bytes b := by
  obtain ⟨hword, hrest⟩ := sramWrite_word (n := a.toNat) (v := v) hm
  exact ⟨_, exec_hingeWrite_sram h hr h2 hn, rfl, hword, hrest⟩

/-- Settles O60: each command is one transaction, and its clause the transaction's lemma. -/
theorem hingeAnswersItsTransactions : Obligations.HingeAnswersItsTransactions := by
  intro s c a v rnd
  extract_lets h k live quiet ok gives fault may n
  refine ⟨exec_hingeId_answers, fun ha hl => ?_, exec_hinge_checking, fun hq => ⟨?_, fun sp => ?_, fun cmd hc => ?_, ?_⟩,
    fun hq hr => ⟨exec_hingeRead_code hq hr, exec_hingeRead_sram hq hr, exec_hingeRead_odd hq hr, fun w => exec_hingeRead_register hq hr,
      exec_hingeRead_derzor hq hr⟩,
    fun hq hr sp hsp => exec_hingeRead_refused hq hr hsp, fun w => exec_tieReadComplete_hinge, fun w => exec_hingeRead_held,
    exec_hingeWrite_refused, exec_hingeWrite_stores, exec_hingeWrite_derzor, fun hq => ⟨exec_hingeWrite_req hq, exec_hingeWrite_resp hq⟩,
    exec_hingeChallenge,
    fun hq => ⟨exec_hingeOpen_lockout hq, exec_hingeOpen_factory hq, exec_hingeOpen_checks hq, exec_hingeOpen_unchallenged hq⟩,
    exec_sessionCheckEnd_done, exec_sessionCheckEnd_idle, exec_sessionless, exec_hingeClose_frees,
    fun hq hr => ⟨exec_hingeHalt_running hq hr, fun g => exec_hingeResume_halted hq hr, fun hk => ?_, fun b => ?_⟩,
    exec_coreHalted_halts, exec_coreHalted_not, exec_hingeReset_ignored, exec_hingeReset_resets, exec_otpProg_session,
    fun hq hs ht => ⟨fun hl hk => ?_, exec_lifecycleLock_refused hq hs, fun hl => ?_, exec_lifecycleRetire_refused hq hs⟩⟩
  · exact congrArg Host.Outcome.next (transact_silent ha hl)
  · exact congrArg Host.Outcome.next (transact_bad hq)
  · exact ⟨exec_hingeRead_bad hq, exec_hingeWrite_bad hq⟩
  · have hp := quiet_awake hq
    exact (exec_hingeUnknownCommand cmd s hc).trans (congrArg Host.Outcome.next (transact_serves (f := hingeFault whyCmd) hq hp))
  · exact exec_hingeWrite_good (sp := .instr) hq (quiet_awake hq)
  · exact hingePut_pc hq hr (hpcPut_halted hk) setCore_ok_pwr
  · exact hingePut_run hq hr (hrunPut_sched b) setCore_ok_pwr
  · obtain ⟨hsec, hend, -⟩ := sessionEnd_lifecycle .locked hs ht
    exact ⟨_, exec_lifecycleLock_locks hq hs ht hl hk, hsec, hend, rfl⟩
  · obtain ⟨hsec, hend, -⟩ := sessionEnd_lifecycle .retired hs ht
    exact ⟨_, exec_lifecycleRetire_retires hq hs ht hl, hsec, hend⟩

end Laws
end Sys2Proof
end
